-- ==== Sys2Proof/Word.lean ====
section
/-! DEFINITION. The word types of Ennos E64 (00 R7, R8) and the sparse table type every store of the block uses. -/

namespace Sys2Proof

/-- A byte of a frame, a ring entry or an image. -/
abbrev Byte := BitVec 8
/-- A parameter word (R10). -/
abbrev Word := BitVec 32
/-- A 64-bit parameter, an operand B or a control-store half word. -/
abbrev DWord := BitVec 64
/-- A 128-bit instruction, extension, control-store or metadata word (R37, R198, R339). -/
abbrev QWord := BitVec 128
/-- A fabric (host) address, 57 bits (R40, R468). -/
abbrev HostAddr := BitVec 57
/-- A queue number 0-4,095 (R70). -/
abbrev QId := BitVec 12
/-- A ring index modulo 2N (R77, R78). -/
abbrev RIdx := BitVec 17
/-- A port or lane number 0-63 (R103). -/
abbrev PortId := BitVec 6
/-- A priority 0-7 (R136). -/
abbrev Prio := BitVec 3

/-- A sparse store: pairs of a key and a value, keys strictly rising, holding no entry equal to the
store's own reset entry. The operations over it are in Machine/Tab.lean. -/
abbrev Tab (α : Type) := List (Nat × α)

end Sys2Proof
end

