-- ==== Sys2Proof/Syntax.lean ====
section
/-! DEFINITION. The commands of the block: one constructor of Instr per row of spec/opcode_table.json, with the operands
the row's rule gives it. -/

namespace Sys2Proof

/-- The operands of a Postmaster instruction (R37, R38) and its host cookie. The reserved bits [115:114] are ignored on
read (R9) and are not held. -/
structure Ins where
  /-- C: post a completion even when the status is OK. -/
  c : Bool := false
  /-- I: raise the completion queue's vector. -/
  i : Bool := false
  /-- F: fence before execution. -/
  f : Bool := false
  /-- S: cascade-wide collective. -/
  s : Bool := false
  ext : BitVec 2 := 0
  target : BitVec 16 := 0
  a : Word := 0
  b : DWord := 0
  e0 : QWord := 0
  e1 : QWord := 0
  cookie : DWord := 0
  deriving DecidableEq, Repr

/-- A DMA channel instruction as read from the channel's program (R314). `addr` is the address of every opcode but LINK and
the target of LINK. -/
structure ChIns where
  flags : BitVec 4 := 0
  x : Word := 0
  y : BitVec 24 := 0
  addr : HostAddr := 0
  deriving DecidableEq, Repr

/-- A fragment of a preemptable frame as received (R146, 802.3br): the start of a frame under SMD-S`no`, or a continuation under
SMD-C`no` with its fragment count; whether it closed with a good mCRC, where it is not the last. -/
structure RxFrag where
  start : Bool := true
  no : BitVec 2 := 0
  count : BitVec 2 := 0
  mcrcGood : Bool := true
  deriving DecidableEq, Repr

/-- How a received frame reached its end on the wire (R119, R120, R146). -/
structure RxFrame where
  /-- Destination address through the last byte of the FCS (R6). -/
  bytes : List Byte := []
  /-- Received through the preemptable MAC, as SMD-S and SMD-C fragments (R146). -/
  preempt : Bool := false
  /-- A preemptable frame: its fragments, in the order in which they arrived, the last of them included (R146). -/
  fragments : List RxFrag := []
  /-- A new SMD-S arrived while this frame was in progress, and so ended it (R146). -/
  newStart : Bool := false
  /-- A byte came from an uncorrectable codeword (R120). -/
  fecBad : Bool := false
  /-- A block was invalid, or the frame ended without a terminate (R120). -/
  codeBad : Bool := false
  /-- Its receive staging met an uncorrectable error (R405). -/
  stageBad : Bool := false
  /-- Units of 2^-16 ns between the stamp of the transfer that holds the timestamp point and the frame's end (R253). -/
  ago : Nat := 0
  /-- Bit of that transfer at which the point lies (R253). -/
  bit : Nat := 0
  /-- Logical lane of the port that carried the point (R252). -/
  lane : Nat := 0
  /-- The timestamp point came before the latest rule-epoch swap of the slice (R193, R251). -/
  beforeSwap : Bool := false
  deriving DecidableEq, Repr

/-- A marker slot of a lane (R110, R112): the 257-bit block that stands in it, after FEC correction once the lane is locked. -/
structure Marker where
  block : BitVec 257 := 0
  /-- The slot lies exactly 4,096 codeword pairs after the previous candidate (R112). -/
  onPeriod : Bool := true
  /-- When the slot arrived on its lane, in ps of the lane clock (R113). -/
  arrival : Nat := 0
  /-- 802.3 modes, whose markers the standard defines (R105): the slot passes its test. -/
  ieeeGood : Bool := true
  deriving DecidableEq, Repr

/-- What MACHINE_CHECK finds: a compare mismatch in a step of the queue's instruction (R54), an uncorrectable error in the journal word of the
queue's entry with that ring index (R405), or one in the queue's context in caddy 1 (R424). -/
inductive Check where
  | mismatch (q : QId) | journalWord (q : QId) (idx : RIdx) | queueContext (q : QId)
  deriving DecidableEq, Repr

def Check.queue : Check → QId
  | .mismatch q => q
  | .journalWord q _ => q
  | .queueContext q => q

/-- A transmit frame on a pipeline bus: its bytes; whether its first segment crosses in the same core cycle as that of the last frame from the
port's other slice (R104). -/
structure BusFrame where
  bytes : List Byte := []
  tie : Bool := false
  deriving DecidableEq, Repr

/-- The access paths of R494. -/
inductive Path where
  | window | mgmt | postmaster
  deriving DecidableEq, Repr

/-- The two cascade links (15, Cascade port). -/
inductive Link where
  | a | b
  deriving DecidableEq, Repr

/-- What a collective message carries (R63 to R67). A collective is named by its issuer and a number of the issuer's. -/
inductive CollMsg where
  /-- The issuer passes a collective to the head; it has waited behind another of its opcode on the issuer. -/
  | pass (cid : Nat) (op : Byte) (a : Word) (target : BitVec 16) (instant : DWord) (waited : Bool)
  /-- The head sends it to a member, which arms it at the instant. -/
  | arm (issuer : BitVec 3) (cid : Nat) (op : Byte) (a : Word) (target : BitVec 16) (instant : DWord) (members : Byte)
    (postponed : Bool)
  /-- The head: no member switches until a new instant comes (R66). -/
  | hold (issuer : BitVec 3) (cid : Nat)
  /-- A member reports (R65); it is not ready, or is ready again (R66). -/
  | report (issuer : BitVec 3) (cid : Nat)
  | notReady (issuer : BitVec 3) (cid : Nat)
  | ready (issuer : BitVec 3) (cid : Nat)
  /-- The head ends it: the status code, the actual instant and the bitmap of members that reported. -/
  | ended (issuer : BitVec 3) (cid : Nat) (status : Byte) (instant : DWord) (map : Byte)
  deriving DecidableEq, Repr

/-- One mirrored delta of Registry (R420). -/
structure Delta where
  index : Nat := 0
  epoch : BitVec 16 := 0
  frames : Nat := 0
  bytes : Nat := 0
  /-- The key word, for an entry learned or freed in the interval. -/
  key : Option DWord := none
  deriving DecidableEq, Repr

/-- The adoption-control messages of a twin (R419, R421, R423). -/
inductive TwinMsg where
  /-- A request to bind; the answer. -/
  | ask | accept | refuse
  /-- Part 2 of the binding has reached these entries; part 3. -/
  | part (n : Nat) | switch
  | release
  /-- The survivor takes the queues of the receiver. -/
  | adopt
  deriving DecidableEq, Repr

/-- What a cascade flit carries, by type (R477). The manual gives the types and what they convey; it gives no layout of
the 116 payload bytes, so the content stands here as data (log entry 18). -/
inductive Payload where
  | idle
  | heartbeat (mode : BitVec 4) (pmOk dpOk yielded : Bool)
  /-- The head's time, units of 2^-30 ns since second 0, and state; whether the head has just been set or stepped (R266). The correction field:
  the residence times of the members that forwarded it, units of 2^-16 ns (R479). -/
  | time (now : Nat) (state : BitVec 2) (step : Bool) (correction : Nat)
  | collective (m : CollMsg)
  | vote (client : Byte) (domains : BitVec 25)
  /-- Type 0x05 (R420): a journal entry with its progress; its outcome once it has completed; it leaves the journal. -/
  | journal (q : QId) (idx : RIdx) (gen : BitVec 16) (op : Byte) (i : Ins) (state : Byte) (step : BitVec 16)
    (outcome : Option (Byte × DWord × DWord)) (gone : Bool)
  /-- A queue's context and `q.idx`, its record count and its pending skip count (R59); none: the queue is gone. -/
  | context (q : QId) (c : Option (BitVec 256 × DWord × DWord × Byte))
  /-- The word of an accepted INJECT entry (R402), with what its report needs; it has started; it is reported. -/
  | injWord (q : QId) (idx : RIdx) (gen : BitVec 16) (cookie : DWord) (started sent : Bool) (len : BitVec 14) (gone : Bool)
  /-- Part 2 of TWINBIND: the entries of 4,096 from the n-th on that are not EMPTY. -/
  | shadow (n : Nat) (entries : List (Nat × BitVec 512))
  /-- Type 0x06 (R420): the deltas, the ports' native accepted counters and latches (port, frames, bytes, the latch's two,
  the generation), the configured ports, the record queue and the accounting epoch. -/
  | deltas (ds : List Delta) (ports : List (Nat × DWord × DWord × DWord × DWord × BitVec 16)) (configured : DWord)
    (recordQueue : QId) (epoch : BitVec 16)
  | relay
  | twin (m : TwinMsg)
  deriving DecidableEq, Repr

/-- A flit as received: its fields of R477, with the verdict of its CRC. -/
structure Flit where
  payload : Payload := .idle
  source : BitVec 3 := 0
  dest : Byte := 0
  seq : BitVec 16 := 0
  ack : BitVec 16 := 0
  crcOk : Bool := true
  deriving DecidableEq, Repr

/-- The counters' view of power at one evaluation (R381, R384): the block forms it from activity counters whose weights the
manual does not give, so it comes with the command (log entry 17). -/
structure CapObs where
  /-- Activity estimate before the gain, mW. -/
  activity : Nat := 0
  /-- Rungs the counters predict are needed to bring E + H to the cap. -/
  rungsNeeded : Nat := 0
  /-- Predicted pattern power of each slice pair 0-7 at each depth code 0-3. -/
  pairPower : List (List Nat) := []
  /-- Predicted cost, mW, of the rung that would be restored next. -/
  rungCost : Nat := 0
  /-- Current estimate of the links, memory and compute classes, mW (R386). -/
  links : Nat := 0
  memory : Nat := 0
  compute : Nat := 0
  deriving DecidableEq, Repr

/-- The commands, in the table's order. -/
inductive Instr where
  -- Postmaster instructions: the queue that holds them and their operands
  | nop (q : QId) (i : Ins)
  | set (q : QId) (i : Ins)
  | get (q : QId) (i : Ins)
  | setblk (q : QId) (i : Ins)
  | fence (q : QId) (i : Ins)
  | waitfor (q : QId) (i : Ins)
  | skipif (q : QId) (i : Ins)
  | signal (q : QId) (i : Ins)
  | qcreate (q : QId) (i : Ins)
  | qdestroy (q : QId) (i : Ins)
  | qmodify (q : QId) (i : Ins)
  | mode (q : QId) (i : Ins)
  | portcfg (q : QId) (i : Ins)
  | portup (q : QId) (i : Ins)
  | portdown (q : QId) (i : Ins)
  | spareMove (q : QId) (i : Ins)
  | spareReturn (q : QId) (i : Ins)
  | slicetest (q : QId) (i : Ins)
  | rulewr (q : QId) (i : Ins)
  | epoch (q : QId) (i : Ins)
  | bindwr (q : QId) (i : Ins)
  | pattwr (q : QId) (i : Ins)
  | snap (q : QId) (i : Ins)
  | pairwrWrite (q : QId) (i : Ins)
  | pairwrFill (q : QId) (i : Ins)
  | pairwrInvalidate (q : QId) (i : Ins)
  | statread (q : QId) (i : Ins)
  | timeset (q : QId) (i : Ins)
  | timeadj (q : QId) (i : Ins)
  | timestep (q : QId) (i : Ins)
  | keyload (q : QId) (i : Ins)
  | keyretire (q : QId) (i : Ins)
  | guardset (q : QId) (i : Ins)
  | guardlock (q : QId) (i : Ins)
  | dmarun (q : QId) (i : Ins)
  | dmarunArm (q : QId) (i : Ins)
  | dmastop (q : QId) (i : Ins)
  | vote (q : QId) (i : Ins)
  | unvote (q : QId) (i : Ins)
  | hint (q : QId) (i : Ins)
  | hintCancel (q : QId) (i : Ins)
  | capset (q : QId) (i : Ins)
  | csload (q : QId) (i : Ins)
  | csswapMap (q : QId) (i : Ins)
  | csswapUnmap (q : QId) (i : Ins)
  | csverify (q : QId) (i : Ins)
  | twinbind (q : QId) (i : Ins)
  | twinrelease (q : QId) (i : Ins)
  | headyield (q : QId) (i : Ins)
  | openRoutine (q : QId) (op : Byte) (i : Ins)
  | routineStep (q : QId)
  -- queue machinery
  | queueDoorbell (q : QId) (w : Word)
  | queuePoll (q : QId)
  | entryFetch (q : QId) (idx : RIdx) (data : BitVec 512)
  | commandAccept (q : QId)
  | injectConsume (q : QId)
  | headWriteback (q : QId)
  | completionPost (q : QId)
  | moderationTimeout (q : QId)
  | vectorPendingClear (v : BitVec 11) (firesToo : Bool)
  | vectorUnmask (v : BitVec 11)
  -- window accesses
  | directWrite (path : Path) (addr : BitVec 34) (v : Word)
  | directRead (path : Path) (addr : BitVec 34)
  | paramLowWordRead (path : Path) (addr : BitVec 34)
  | timeNowRead (path : Path)
  | compatCounterRead (path : Path) (addr : BitVec 34)
  | tableWindowRead (path : Path) (slice : BitVec 5)
  | bootGo (v : Word)
  | dmaDoorbell (c : BitVec 5) (w : Word)
  -- channel instructions
  | move (c : BitVec 5) (w : ChIns)
  | fill (c : BitVec 5) (w : ChIns)
  | compare (c : BitVec 5) (w : ChIns)
  | loop (c : BitVec 5) (w : ChIns)
  | wait (c : BitVec 5) (w : ChIns)
  | dmaWaitTimeout (c : BitVec 5)
  | dmaSignal (c : BitVec 5) (w : ChIns)
  | link (c : BitVec 5) (w : ChIns)
  | dmaNop (c : BitVec 5) (op : BitVec 4) (w : ChIns)
  | endProg (c : BitVec 5) (w : ChIns)
  | endReread (c : BitVec 5) (isLink : Bool) (target : HostAddr)
  | dmaIdleCheck (c : BitVec 5)
  -- ports of the block
  | masterResponse (tag : BitVec 10) (err : Bool) (data : List Byte)
  | targetRead (tag : Byte) (addr : BitVec 34)
  | mgmtBlockWrite (addr : Word) (v : Word) (pec : Option Bool)
  | mgmtProcessCall (addr : Word) (pec : Option Bool)
  | mgmtAddressMatch
  -- receive
  | frameReceive (p : PortId) (f : RxFrame)
  | pauseFrameReceive (p : PortId) (f : RxFrame)
  | pauseExpire (p : PortId) (i : Prio)
  | verifyReceive (p : PortId)
  | respondReceive (p : PortId)
  | verifyTimer (p : PortId)
  | parse (k : BitVec 4) (parity : List Nat)
  | replicaReload (k : BitVec 4) (word : BitVec 16)
  -- Registry
  | ledgerResponse (tag : BitVec 11) (uncorrectable : Bool)
  | probeTimeout (tag : BitVec 11)
  | ledgerUnreachable (tag : BitVec 11)
  | cacheCleaner (index : BitVec 24)
  | agingScan (index : BitVec 24) (uncorrectable : Bool)
  | sweepStep (uncorrectable : List Nat)
  | pairTableClear
  | coldResetWriteback (ok : Bool)
  -- pipeline
  | handover (k : BitVec 4)
  | punt (k : BitVec 4)
  | recircReceive (k : BitVec 4) (p : PortId) (frame : List Byte) (mw : QWord)
  | rxCreditReturn (k : BitVec 4) (n : BitVec 3)
  | heldBankLow (k : BitVec 4) (bank : BitVec 1)
  | pipelineTxFrame (k : BitVec 4) (p : PortId) (word : QWord) (frame : BusFrame)
  | injectFetch (q : QId) (ok : Bool) (frame : List Byte)
  | txFrameStart (p : PortId) (preempt : Bool)
  | preempt (p : PortId) (offset : Nat)
  | txFrameEnd (p : PortId) (preempt : Bool)
  | xoffChange (p : PortId) (i : Prio) (high : Bool)
  | pfcRefresh (p : PortId) (i : Prio)
  | dutyClip (p : PortId) (i : Prio)
  | dutyRelease (p : PortId) (i : Prio)
  | stormWatchdogRx (p : PortId) (i : Prio)
  | stormWatchdogTx (p : PortId) (i : Prio)
  | stormHoldExpire (p : PortId) (i : Prio) (sent : Bool)
  | guardRefusalReport (p : PortId) (guard : Byte)
  -- lanes
  | laneSignalDetect (l : PortId) (high : Bool)
  | alignmentMarker (l : PortId) (m : Marker)
  | faultOrderedSet (p : PortId) (remote : Bool) (present : Bool)
  | fecDegradeInterval (p : PortId)
  | laneCalibration (l : PortId) (rx tx : BitVec 15)
  -- time
  | ppsEdge (phase : BitVec 3)
  | todMessage (bytes : List Byte) (inTime : Bool)
  | holdoverTimeout
  | ppsOutput (rise : Bool)
  | armedInstant (snap : Bool)
  | alarmFire (n : BitVec 1)
  -- cascade and twin
  | collectiveTimeout (op : Byte)
  | cascadeFlitReceive (l : Link) (f : Flit)
  | cascadeResend (l : Link)
  | cascadeLinkDown (l : Link)
  | heartbeat
  | memberDeclaredFailed (m : BitVec 3)
  | cascadeTimeExchange (offset : Int) (roundTrip : Nat)
  | mirrorInterval
  | twinAdopt
  -- faults and resets
  | machineCheck (what : Check)
  | periodicSelfTest (aFails bFails : Bool)
  /-- A word of a page of the store, or of the overlay bank, which has page 0 alone, has a parity error; `fetched`: the Postmaster has fetched
  it for queue `q`, and otherwise the scrubber or a replica's reload has found it (R352 to R354). -/
  | csParityReload (ovl : Bool) (page : BitVec 3) (word : BitVec 13) (fetched : Bool) (q : QId)
  | scrub
  /-- Kind and entry as `slice.fault` numbers them (R430), and the bank of rules in which a rule's or action's word lies. -/
  | sliceFault (n : BitVec 5) (kind : BitVec 4) (entry : BitVec 13) (bank : Bool)
  | internalChannelFault (c : BitVec 2)
  | postmasterWatchdog
  | warmReset
  | coldReset
  | resetRelease (cascId : BitVec 3)
  | aonPowerUp (bootCount : BitVec 16) (bodLatch : Bool) (lmRegion : BitVec 2)
  | brownOut (bootCount : BitVec 16)
  -- power
  | wake (source : BitVec 4) (detail : BitVec 16)
  | domainRestoreStep (d : BitVec 5)
  | domainEntry (d : BitVec 5)
  | railGood (d : BitVec 5)
  | capEvaluation (o : CapObs)
  | powerMeasurement (m : BitVec 16) (mean : Nat)
  | measurementStale
  | capInput (v : BitVec 16)
  | hintExpire (n : Nat)
  -- service monitor and test access port
  | monVer
  | monBaud (rate : Nat)
  | monPeek (addr : Word) (n : Nat)
  | monPoke (addr : Word) (v m : Word)
  | monExec (op : Byte) (i : Ins)
  | monJournal (n : Nat)
  | monMcheck
  | monLane (l : PortId) (eye : Word)
  | monUnlockErase (dbgEn : Bool) (readBackFails : Nat)
  | tapUnlock (dbgEn : Bool) (readBackFails : Nat)
  | dbgEnFall
  /-- `badBlocks`: the 66B blocks of the codeword with an invalid header or control type after decoding (R129). -/
  | fecCodewordDecode (l : PortId) (corrected badBlocks : Nat) (uncorrectable : Bool)
  | dmaWaitTimeEnd (c : BitVec 5)
  | corePllLock
  | selfTestEnd (aFails bFails : Bool)
  | heldBankHigh (k : BitVec 4) (bank : BitVec 1)
  | sentPauseExpire (p : PortId) (i : Prio)
  | monUnknownCommand (line : List Byte)
  | tapInstruction (ir : Byte)
  deriving DecidableEq, Repr

end Sys2Proof
end

