-- ==== Sys2Proof/Decode.lean ====
section
/-! DEFINITION. The command a word of spec/opcode_table.json spells. The table gives no row any bits: the block takes commands,
not words, so no word spells one (INVENTORY.md, Instructions). -/

namespace Sys2Proof

/-- The command that `nbits` bits of value `w` spell by the table: none, since no row of the table has bits. -/
def decodeTableWord (_nbits _w : Nat) : Option Instr := none

end Sys2Proof
end

