-- ==== Sys2Proof/Machine/Tab.lean ====
section
/-! DEFINITION. The two operations of the sparse table and its canonical form; bit fields, byte orders and the two CRCs
the manual defines (R188, R351). -/

namespace Sys2Proof

variable {α : Type}

/-- The entry at key `i`; the reset entry `d` where none is listed. -/
def Tab.get (d : α) : Tab α → Nat → α
  | [], _ => d
  | (k, v) :: t, i => if k = i then v else Tab.get d t i

/-- The table with `v` at key `i`, in canonical form. -/
def Tab.put [DecidableEq α] (d : α) : Tab α → Nat → α → Tab α
  | [], i, v => if v = d then [] else [(i, v)]
  | (k, w) :: t, i, v =>
    if i < k then (if v = d then (k, w) :: t else (i, v) :: (k, w) :: t)
    else if i = k then (if v = d then t else (i, v) :: t)
    else (k, w) :: Tab.put d t i v

/-- Keys strictly rising from `lo` on, and no entry equal to the reset entry. -/
def Tab.wfFrom [DecidableEq α] (d : α) : Nat → Tab α → Bool
  | _, [] => true
  | lo, (k, v) :: t => decide (lo ≤ k) && decide (v ≠ d) && Tab.wfFrom d (k + 1) t

/-- The canonical form of a sparse table. -/
def Tab.wf [DecidableEq α] (d : α) (t : Tab α) : Bool := Tab.wfFrom d 0 t

/-! ### Bit fields -/

/-- `v` placed with its bit 0 at bit `lo` of an `n`-bit word. -/
def at' {w : Nat} (n : Nat) (v : BitVec w) (lo : Nat) : BitVec n := (v.setWidth n) <<< lo

/-- A flag placed at bit `lo`. -/
def flag (n : Nat) (b : Bool) (lo : Nat) : BitVec n := if b then at' n (1#1) lo else 0

/-- The field of `len` bits whose lowest bit is bit `lo`. -/
def fld {n : Nat} (x : BitVec n) (lo len : Nat) : BitVec len := x.extractLsb' lo len

/-- Bit `i`. -/
def bitOf {n : Nat} (x : BitVec n) (i : Nat) : Bool := x.getLsbD i

/-- `x` with bit `i` set or cleared. -/
def setBit {n : Nat} (x : BitVec n) (i : Nat) (b : Bool) : BitVec n :=
  if b then x ||| (1#n <<< i) else x &&& ~~~ (1#n <<< i)

/-- `x + 1`, staying at all ones (the manual's "saturating"). -/
def satInc {n : Nat} (x : BitVec n) : BitVec n := if x = BitVec.allOnes n then x else x + 1

/-- `x + k`, saturating. -/
def satAdd {n : Nat} (x : BitVec n) (k : Nat) : BitVec n :=
  if x.toNat + k < 2 ^ n then BitVec.ofNat n (x.toNat + k) else BitVec.allOnes n

/-- The 64-bit image of a value. -/
def z64 {n : Nat} (x : BitVec n) : DWord := x.setWidth 64

/-! ### Bytes -/

/-- `n` little-endian bytes of a value (R8). -/
def leBytes (n : Nat) (x : Nat) : List Byte := (List.range n).map fun i => BitVec.ofNat 8 (x >>> (8 * i))

/-- The value of little-endian bytes (R8). -/
def leNat : List Byte → Nat
  | [] => 0
  | b :: t => b.toNat + 256 * leNat t

/-- The value of bytes in network order. -/
def beNat (bs : List Byte) : Nat := bs.foldl (fun n b => 256 * n + b.toNat) 0

/-- `n` bytes in network order. -/
def beBytes (n : Nat) (x : Nat) : List Byte := (leBytes n x).reverse

/-- Byte `i`, zero beyond the end. -/
def byteAt (bs : List Byte) (i : Nat) : Byte := bs.getD i 0

/-- `len` bytes from offset `off`, zero beyond the end. -/
def slice (bs : List Byte) (off len : Nat) : List Byte := (List.range len).map fun i => byteAt bs (off + i)

/-- The bytes with `v` written from offset `off` on, within the list. -/
def overlay (bs : List Byte) (off : Nat) (v : List Byte) : List Byte :=
  bs.take off ++ (v.take (bs.length - off)) ++ bs.drop (off + v.length)

/-! ### CRCs -/

/-- One byte through a reflected CRC-32 register. -/
def crcByte (poly : Word) (r : Word) (b : Byte) : Word :=
  (List.range 8).foldl (fun x _ => if bitOf x 0 then (x >>> 1) ^^^ poly else x >>> 1) (r ^^^ b.setWidth 32)

/-- CRC-32C of R188: the register starts at the seed. -/
def crc32c (seed : Word) (bs : List Byte) : Word := ~~~ (bs.foldl (crcByte 0x82F63B78#32) seed)

/-- The CRC-32 register of R351 after some bytes, before the final complement. -/
def crc32From (r : Word) (bs : List Byte) : Word := bs.foldl (crcByte 0xEDB88320#32) r

/-- CRC-32 of R351. -/
def crc32 (bs : List Byte) : Word := ~~~ (crc32From 0xFFFFFFFF#32 bs)

/-! ### Lists as queues -/

/-- The list with the first element that meets `p` replaced by its image. -/
def updFirst (p : α → Bool) (f : α → α) : List α → List α
  | [] => []
  | x :: t => if p x then f x :: t else x :: updFirst p f t

/-- The list without the first element that meets `p`. -/
def dropFirst (p : α → Bool) : List α → List α
  | [] => []
  | x :: t => if p x then t else x :: dropFirst p t

end Sys2Proof
end

