-- ==== Sys2Proof/Machine/Gcm.lean ====
section
/-! DEFINITION. GCM-AES as IEEE 802.1AE uses it (R285, R294, R296): AES with 128- and 256-bit keys, GHASH, the counter
mode and the tag. The manual refers to the standard for these; the functions are the standard's (PRESUMED, log entry 19). -/

namespace Sys2Proof
namespace Gcm

/-- The AES substitution box, entry i in bits [8i + 7 : 8i], in four parts. -/
def sbox0 : Nat := 0x75b227ebe28012079a059618c323c7041531d871f1e5a534ccf73f362693fdb7c072a49cafa2d4adf04759fa7dc982ca76abd7fe2b670130c56f6bf27b777c63
def sbox1 : Nat := 0xd2f3ff1021dab6bcf5389d928f40a351a89f3c507f02f94585334d43fbaaefd0cf584c4a39becb6a5bb1fc20ed00d153842fe329b3d63b52a05a6e1b1a2c8309
def sbox2 : Nat := 0x08ae7a65eaf4566ca94ed58d6d37c8e779e4959162acd3c25c2406490a3a32e0db0b5ede14b8ee4688902a22dc4f816073195d643d7ea7c41744975fec130ccd
def sbox3 : Nat := 0x16bb54b00f2d99416842e6bf0d89a18cdf2855cee9871e9b948ed9691198f8e19e1dc186b95735610ef6034866b53e708a8bbd4b1f74dde8c6b4a61c2e2578ba

/-- SubBytes of one byte. -/
def sub (b : Byte) : Byte :=
  let n := b.toNat
  let t := if n < 64 then sbox0 else if n < 128 then sbox1 else if n < 192 then sbox2 else sbox3
  BitVec.ofNat 8 (t >>> (8 * (n % 64)))

/-- Multiplication by x in the AES field. -/
def xtime (b : Byte) : Byte := (b <<< 1) ^^^ (if bitOf b 7 then 0x1B else 0)

/-- The bytes of a state with each row rotated. -/
def shiftRows (s : List Byte) : List Byte := (List.range 16).map fun i => byteAt s ((i + 4 * (i % 4)) % 16)

/-- One column of MixColumns. -/
def mixColumn (a b c d : Byte) : List Byte :=
  let t := a ^^^ b ^^^ c ^^^ d
  [a ^^^ t ^^^ xtime (a ^^^ b), b ^^^ t ^^^ xtime (b ^^^ c), c ^^^ t ^^^ xtime (c ^^^ d), d ^^^ t ^^^ xtime (d ^^^ a)]

/-- MixColumns. -/
def mixColumns (s : List Byte) : List Byte :=
  (List.range 4).flatMap fun c => mixColumn (byteAt s (4 * c)) (byteAt s (4 * c + 1)) (byteAt s (4 * c + 2)) (byteAt s (4 * c + 3))

/-- Bytewise exclusive or, as long as the first list. -/
def xorBytes (a b : List Byte) : List Byte := a.mapIdx fun i x => x ^^^ byteAt b i

/-- SubWord. -/
def subWord (w : Word) : Word :=
  (sub (fld w 24 8) ++ sub (fld w 16 8) ++ sub (fld w 8 8) ++ sub (fld w 0 8) : BitVec 32)

/-- The key schedule: `n` more words after the `nk` words listed, last first. -/
def expand (nk : Nat) : Nat → Byte → List Word → List Word
  | 0, _, ws => ws
  | n + 1, rcon, ws =>
    let i := ws.length
    let prev := ws.headD 0
    let back := ws.getD (nk - 1) 0
    if i % nk = 0 then
      expand nk n (xtime rcon) ((back ^^^ subWord (prev.rotateLeft 8) ^^^ at' 32 rcon 24) :: ws)
    else if nk = 8 ∧ i % nk = 4 then expand nk n rcon ((back ^^^ subWord prev) :: ws)
    else expand nk n rcon ((back ^^^ prev) :: ws)

/-- The round keys, 16 bytes each. -/
def roundKeys (key : List Byte) : List (List Byte) :=
  let nk := key.length / 4
  let rounds := nk + 6
  let first := (List.range nk).map fun i => BitVec.ofNat 32 (beNat (slice key (4 * i) 4))
  let ws := (expand nk (4 * (rounds + 1) - nk) 1 first.reverse).reverse
  (List.range (rounds + 1)).map fun r => (List.range 4).flatMap fun c => beBytes 4 (ws.getD (4 * r + c) 0).toNat

/-- The rounds after the first key addition. -/
def rounds : List (List Byte) → List Byte → List Byte
  | [], s => s
  | [k], s => xorBytes (shiftRows (s.map sub)) k
  | k :: ks, s => rounds ks (xorBytes (mixColumns (shiftRows (s.map sub))) k)

/-- AES of one block under expanded keys. -/
def cipher (ks : List (List Byte)) (b : List Byte) : List Byte :=
  match ks with
  | [] => b
  | k :: t => rounds t (xorBytes b k)

/-- The block of 16 bytes as a number, first byte most significant. -/
def block (bs : List Byte) : QWord := BitVec.ofNat 128 (beNat (slice bs 0 16))

/-- Multiplication in the GHASH field. -/
def gmul (x y : QWord) : QWord :=
  ((List.range 128).foldl (fun (zv : QWord × QWord) i =>
    (if bitOf x (127 - i) then zv.1 ^^^ zv.2 else zv.1,
     if bitOf zv.2 0 then (zv.2 >>> 1) ^^^ (0xE1#128 <<< 120) else zv.2 >>> 1)) (0, y)).1

/-- GHASH over bytes padded with zeros to whole blocks. -/
def ghash (h : QWord) (z : QWord) (bs : List Byte) : QWord :=
  (List.range ((bs.length + 15) / 16)).foldl (fun z i => gmul (z ^^^ block (slice bs (16 * i) 16)) h) z

/-- The hash subkey. -/
def subkey (key : List Byte) : QWord := block (cipher (roundKeys key) (List.replicate 16 0))

/-- The key stream of `n` bytes from counter 2 on. -/
def stream (ks : List (List Byte)) (iv : List Byte) (n : Nat) : List Byte :=
  (List.range ((n + 15) / 16)).flatMap fun i => cipher ks (iv ++ beBytes 4 (i + 2))

/-- The tag of additional data and ciphertext. -/
def tag (ks : List (List Byte)) (h : QWord) (iv aad ct : List Byte) : List Byte :=
  let z := ghash h (ghash h 0 aad) ct
  let z := gmul (z ^^^ (BitVec.ofNat 64 (8 * aad.length) ++ BitVec.ofNat 64 (8 * ct.length) : BitVec 128)) h
  xorBytes (beBytes 16 z.toNat) (cipher ks (iv ++ [0, 0, 0, 1]))

/-- Encryption and its 16-byte tag. -/
def protect (key : List Byte) (h : QWord) (iv aad pt : List Byte) : List Byte × List Byte :=
  let ks := roundKeys key
  let ct := xorBytes pt (stream ks iv pt.length)
  (ct, tag ks h iv aad ct)

/-- Decryption; none when the tag does not agree. -/
def validate (key : List Byte) (h : QWord) (iv aad ct t : List Byte) : Option (List Byte) :=
  let ks := roundKeys key
  if tag ks h iv aad ct = t then some (xorBytes ct (stream ks iv ct.length)) else none

end Gcm
end Sys2Proof
end

