-- ==== Sys2Proof/Config.lean ====
section
/-! DEFINITION. What the manual fixes for every block of release 2, and the free values: opaque constants without a body,
so that no proof can lean on a value the manual leaves open. -/

namespace Sys2Proof
namespace Config

/-- R498. -/
def idDevice : Word := 0x454E0642#32
/-- R499. -/
def idRelease : Word := 0x00020000#32
/-- R376: what a direct read of an asleep region returns. -/
def asleepWord : Word := 0xBAD00FF0#32
/-- R41. -/
def journalSize : Nat := 4096
/-- R95. -/
def pigeonholes : Nat := 32768
/-- R378: the low-power limit, in units of 0.01 mA. -/
def lowPowerLimit : Nat := 1800
/-- R205. -/
def pairEntries : Nat := 16777216
/-- R209. -/
def missSlots : Nat := 4096
/-- R469. -/
def masterTags : Nat := 1024

/-- FREE VALUE: a 64-bit value the manual leaves open; applied to the state's counter `fresh` (log entry 2). -/
opaque freeValue : Nat → BitVec 64
/-- FREE VALUE: the servo's rate term when the divisor falls on a quotient the manual does not round (R261, log entry 21).
Applied to the numerator and the divisor; it is the amount, 0 or 1, added to the floor. -/
opaque freeRound : Int → Int → Bool
/-- FREE VALUE: the instruction codes of the test access port that select Kwetiral's internal scan chains (R449); every other code is a
mandatory instruction of IEEE 1149.1 (log entry 8). -/
opaque tapInternal : Byte → Bool
/-- FREE VALUES: a follower's fixed internal servo gains, in units of 2^-16, which the manual does not give (R266, log
entry 45). -/
opaque followerKp : Nat
opaque followerKi : Nat
/-- FREE VALUE: what a lane carries in a transfer in the modes whose PCS the standard alone defines (R105, log entry 107).
Applied to the port mode, the logical lane, the number of the codeword pair since PORTUP, the transfer within it, and the 66B blocks
the reconciliation gave for that pair. -/
opaque ieeeTransfer : Nat → Nat → Nat → Nat → List (BitVec 66) → BitVec 320
end Config
end Sys2Proof
end

