-- ==== Sys2Proof/Machine/State.lean ====
section
/-! DEFINITION. The state of one block: every register, ring position, table, buffer, counter, mode and pin the manual gives it,
as plain data; the queue of waiting commands; and the state after reset (R435). A field's default is its reset value. Where
the manual gives none, the value is a log entry's. -/

namespace Sys2Proof
namespace Machine

/-- The statuses of R48. -/
inductive Status where
  | ok | okPartial | badOpcode | badOperand | targetAsleep | guardLocked | modeForbids | refusedVote | budgetExceeded
  | retriedAfterCheck | postponed | dmaBusError | compareMismatch | timeout | notSent | abandonedCold | pnExhausted
  | machineCheckFatal
  deriving DecidableEq, Repr

/-- The modes of an Ennos block (R26). -/
inductive Mode where
  | cold | provision | service | adopted | maintenance | quarantine
  deriving DecidableEq, Repr

/-- The port states of R115. -/
inductive PortSt where
  | down | training | deskew | up | localFault | remoteFault | quarantined
  deriving DecidableEq, Repr

/-- The time states of R247. -/
inductive TimeSt where
  | unset | free | locked | holdover
  deriving DecidableEq, Repr

/-- The verify states of R160. -/
inductive VerifySt where
  | disabled | initial | verifying | succeeded | failed | noVerify
  deriving DecidableEq, Repr

/-- The channel states of R324. -/
inductive ChanSt where
  | idle | running | waiting | halted
  deriving DecidableEq, Repr

/-- The steps of the steep table (R368). -/
inductive RestoreStep where
  | railUp | clockStart | isolation | retentionRestore | resetRelease
  deriving DecidableEq, Repr

/-- The rest states of R397. -/
inductive RestSt where
  | retention | off | retentionNoCache
  deriving DecidableEq, Repr

/-- The states of a power domain (R362, R397). `entering` carries the AON cycles of the entry that have passed (R371) and the
rest state it leads to (R397). -/
inductive DomSt where
  | off | retention (cache : Bool) | on | restoring (step : RestoreStep) (fromOff : Bool) | entering (cycle : Nat) (into : RestSt)
  deriving DecidableEq, Repr

/-- The queue kinds of R70. -/
inductive QKind where
  | admin | cmd | inject | punt | record | completion
  deriving DecidableEq, Repr

/-- Which reset is in progress (R400, R453). -/
inductive ResetSt where
  | none | warm | cold
  deriving DecidableEq, Repr

/-! ### The outside -/

/-- What the monitor answers (R444, R445), one item per line. The manual gives the fields of each line and not its digits. -/
inductive MonLine where
  | ok
  | ver (dev rel : Word) (base patch : Byte) (openId : BitVec 16) (crc : Word) (mode : Mode) (isOpen : Bool)
  | value (v : Word) | count (v : BitVec 48)
  | word (a v : Word)
  | exec (st : Status) (a b : DWord)
  | bytes (offset : Nat) (data : List Byte)
  | maintenance
  | status (st : Status)
  | locked | long | cmd | busy | dbgEn | mode | erase
  deriving DecidableEq, Repr

/-- What crosses the boundary outwards, in order. -/
inductive Out where
  /-- Master requests (R468, R469). -/
  | read (tag : BitVec 10) (addr : HostAddr) (len : Nat)
  | write (tag : BitVec 10) (addr : HostAddr) (data : List Byte) (relaxed : Bool)
  /-- Answers of the window, the target port and the management target (R471, R482). -/
  | answer (path : Path) (addr : BitVec 34) (v : Word)
  | targetAnswer (tag : Byte) (v : Word)
  | mgmtAck (ok : Bool) | mgmtData (v : Word) | mgmtHoldScl | mgmtReleaseScl
  /-- Ledger requests (R472). -/
  | ledgerRead (tag : BitVec 11) (entry : Nat) | ledgerWrite (entry : Nat) (image : BitVec 512)
  /-- A frame, or a fragment of one, on a port's lanes; the frame ended there or was cut (R117, R128, R143). -/
  | txStart (p : PortId) (bytes : List Byte) (preempt : Bool) | txFragment (p : PortId) (offset : Nat) | txResume (p : PortId)
  | txEnd (p : PortId) | txCut (p : PortId)
  /-- A lane's valid strobe is high: the transfer, bit 0 first on the wire (R101, R102). A strobe that is low has no output. -/
  | lane (l : PortId) (bits : BitVec 320)
  /-- Frames Ennos generates (R140, R142). -/
  | macControl (p : PortId) (bytes : List Byte) | verify (p : PortId) | respond (p : PortId)
  /-- Pipeline hand-over (R458, R198) and credits. -/
  | handover (k : BitVec 4) (p : PortId) (mw : QWord) (frame : List Byte) (recirc : Bool)
  | recircCredit (k : BitVec 4) (segments : Nat)
  /-- Pins. -/
  | pps (high : Bool) | bod | bodClr | eyeSel (l : PortId)
  /-- What leaves DBG_TDO while an instruction is shifted in: the captured instruction register, the first bit last (R449). -/
  | tdo (ir : Byte)
  /-- Cascade flits (R477). -/
  | flit (l : Link) (f : Flit)
  /-- Monitor answers. -/
  | mon (l : MonLine)
  deriving DecidableEq, Repr

/-! ### Region 0x00, Postmaster and journal -/

/-- A change of mode that waits for a commit point (R30, R51): an unrecoverable fault event; an unlock by the monitor or of the test
access port, with the failing read-backs where the erasure of R300 is still to come. -/
inductive Due where
  | fault (cause unit : Byte) | unlock (tap : Bool) (erase : Option Nat)
  deriving DecidableEq, Repr

/-- Region 0x00 (16 R488): mode, window log, bring-up parameters, sparing, fault and pipeline-bus records. -/
structure Unit00 where
  mode : Mode := .cold
  previous : Mode := .cold
  cause : Byte := 0
  /-- R29: a fault in COLD bars every later MODE until the next cold reset; one in MAINTENANCE has frames handled as R425 states. -/
  coldBar : Bool := false
  faultHold : Bool := false
  /-- R30: what changes the mode at the next commit point. -/
  due : List Due := []
  resetting : ResetSt := .none
  /-- R464: PB_RST from AON power-up until the first reset release of HOST. -/
  pbRst : Bool := true
  logValid : Bool := false
  logKind : BitVec 3 := 0
  logCount : BitVec 12 := 0
  logAddr : BitVec 34 := 0
  aqBase : DWord := 0
  aqHeadWb : DWord := 0
  acqBase : DWord := 0
  ready : Bool := false
  bootError : BitVec 3 := 0
  aqSize : BitVec 4 := 0
  acqSize : BitVec 4 := 0
  bootIrqEn : Bool := false
  bootVector : BitVec 11 := 0
  spareBusy : Bool := false
  sparePhase : BitVec 2 := 0
  spareCarrying : Bool := false
  spareLogical : BitVec 4 := 0
  spareCount : BitVec 16 := 0
  spareAuto : Bool := false
  faultValid : Bool := false
  faultCause : Byte := 0
  faultUnit : Byte := 0
  faultCount : Byte := 0
  /-- R467, keyed by logical slice: misroute, length, credit, recirc_lost. -/
  pbFault : Tab (Byte × Byte × Byte × Byte) := []
  deriving DecidableEq, Repr

/-- The states of a journal entry (R42). -/
inductive JSt where
  | accepted | running | committing | committed | skipped | completed
  deriving DecidableEq, Repr

/-- The content of a completion slot (R404). -/
structure Done where
  status : Status := .ok
  a : DWord := 0
  b : DWord := 0
  deriving DecidableEq, Repr

/-- The host accesses of a step, from `base` on. Reads: `need` bytes, what has arrived by offset. Writes: `need` blocks of 64 bytes,
those answered by number, with a byte of no meaning. The offset of an access that has failed. -/
structure ReadBuf where
  base : HostAddr := 0
  need : Nat := 0
  got : List (Nat × Byte) := []
  failed : Option Nat := none
  deriving DecidableEq, Repr

/-- An instruction that an open step has invoked, and that takes steps of its own (R346). -/
inductive SubRun where
  | epoch (phase lead : Nat)
  | keyretire (slot : Nat)
  | dmastop
  | signal
  deriving DecidableEq, Repr

/-- Where an open routine stands (R341, R342). -/
structure OpenSt where
  /-- What its last COMMIT saved: g9 to g15. -/
  saved : List DWord := []
  /-- After a COMMIT, while nothing has interrupted the routine: the registers and the next word. -/
  cont : Option (List DWord × BitVec 16) := none
  /-- What the step has read: parameter words, and host addresses (none: the read failed). -/
  params : List (Nat × DWord) := []
  host : List (Nat × Option DWord) := []
  /-- The INVOKE under way, by the number of its effect in the step; and what those before it in the step answered. -/
  sub : Option (Nat × Ins × SubRun) := none
  answers : List (Nat × Status × DWord) := []
  /-- The step is being committed and its effects have been released (R49): the registers and the next word. -/
  released : Option (List DWord × BitVec 16) := none
  deriving DecidableEq, Repr

/-- Where a routine of more than one step stands between its steps (R68, R42). -/
inductive Routine where
  | fence (since : Nat) (dirty : List Nat) (recs : List (Nat × Nat)) (before : Nat)
  | waitfor (since : Nat) (last : Word)
  | signal
  | setblk (done : Nat)
  | qdestroy (head0 : Nat) (posted : Option Nat)
  | portup (since : Nat)
  | portdown (phase : Nat) (reported : Nat)
  | spare (phase : Nat) (since : Nat) (mark : Nat)
  | slicetest (steps : Nat)
  | rulewr (slices : List Nat) (done : Nat)
  | bindwr (slices : List Nat) (done : Nat)
  | pattwr (slices : List Nat) (done : Nat)
  | epoch (phase lead : Nat)
  | snap (phase lead : Nat)
  | pairwr (done written skipped : Nat)
  | statread (unit bytes : Nat)
  | keyload (phase : Nat)
  | keyretire (slot : Nat)
  | vote (domains : BitVec 25)
  | unvote (todo stopped : List Nat) (withdrawn : List (Nat × Nat))
  | unvoteRefused (restoring : List Nat) (client : Byte) (domain : Nat)
  | csload (done : Nat)
  | csverify (done : Nat) (crc : Word)
  | twinbind (part done : Nat)
  | dmastop
  | openRun (o : OpenSt)
  deriving DecidableEq, Repr

/-- A journal entry (R42) with its completion slot (R404). -/
structure JEntry where
  id : Nat := 0
  /-- Queue identifier; 0xFFFF for the monitor's exec (R446). -/
  queue : BitVec 16 := 0
  op : Byte := 0
  ins : Ins := {}
  /-- The command entry as accepted. -/
  raw : BitVec 512 := 0
  /-- Ring index at acceptance, modulo 2N; the ring slot is this modulo N. -/
  idx : RIdx := 0
  gen : BitVec 16 := 0
  st : JSt := .accepted
  emitted : Byte := 0
  step : BitVec 16 := 0
  cursor : BitVec 48 := 0
  routine : Option Routine := none
  rd : Option ReadBuf := none
  slot : Option Done := none
  /-- R55: a rollback occurred during the instruction. -/
  rolled : Bool := false
  /-- R56: mismatches of the present step, attempt after attempt. -/
  mism : Nat := 0
  /-- R41: the twin has not yet retained the entry: it has not been accepted. -/
  awaits : Bool := false
  /-- The generation under which the instruction was executed (R93). -/
  ran : BitVec 16 := 0
  /-- The completion stands in a pigeonhole; its write into the ring is under way. -/
  held : Bool := false
  posting : Bool := false
  /-- R404: the completion is written again after a warm reset, with flags [1] set. -/
  replay : Bool := false
  deriving DecidableEq, Repr

/-- The Postmaster pair (02, 13). -/
structure Pm where
  mcheckCount : BitVec 16 := 0
  lastOpcode : Byte := 0
  /-- 0 lockstep, 1 A alone, 2 B alone (R56); self-test is `testing`. -/
  alone : BitVec 2 := 0
  testing : Bool := false
  /-- The journal entry whose step brought the alternate self-test on. -/
  testFor : Option Nat := none
  failedReturns : Nat := 0
  /-- False from a fatal fault of the pair that the twin is to adopt until the pair has passed self-test (R28, R423). -/
  fit : Bool := true
  interval : BitVec 16 := 0x03E8#16
  lastTest : BitVec 2 := 0
  tests : Byte := 0
  /-- When the last self-test ran, on the block's clock (R413). -/
  testedAt : Nat := 0
  journal : List JEntry := []
  /-- Steps the running routine has committed since it last took over (R44). -/
  burst : Nat := 0
  burstOf : Option Nat := none
  /-- The queue other than 0 that the Postmaster served last (R44). -/
  lastQ : Nat := 0
  /-- Microseconds that steps of waiting routines have taken: what those routines measure their waits by (model's own field, log
  entry 52). -/
  micros : Nat := 0
  /-- Background activity (R57) that has not finished, by the queue that started it: 1 drain of a slice, 2 program of a channel, 3
  training of a port. -/
  background : List (BitVec 16 × BitVec 2 × Nat) := []
  /-- R336: vendor opcodes run from the control store. -/
  fromStore : Bool := false
  deriving DecidableEq, Repr

/-- A word of the store or, counted from 0, of the overlay bank, that has a parity error (R352): the failed reloads so far; the queues whose
instruction has fetched it and waits; and `State.clock` at the last failure. -/
structure Reload where
  ovl : Bool := false
  word : Nat := 0
  fails : Nat := 0
  waiters : List Nat := []
  failedAt : Option Nat := none
  deriving DecidableEq, Repr

/-- The control store (11). `store` and `bank` hold the words as they now are; `recv` and `recvBank` as CSLOAD received
them (R351). -/
structure Cs where
  store : Tab QWord := []
  bank : Tab QWord := []
  recv : Tab QWord := []
  recvBank : Tab QWord := []
  verified : Bool := false
  mapped : Bool := false
  page : BitVec 3 := 0
  /-- Received CRC of R351. -/
  crc : Word := 0
  image : HostAddr := 0
  imageOvl : HostAddr := 0
  parityStore : BitVec 16 := 0
  parityReplica : BitVec 16 := 0
  faultValid : Bool := false
  faultReason : BitVec 4 := 0
  faultOpcode : Byte := 0
  faultWord : BitVec 16 := 0
  rate : Byte := 0x40#8
  passes : BitVec 16 := 0
  scrubAt : Nat := 0
  /-- R351, R355: the rest of `cs.version`, as of the last CSLOAD or CSSWAP. -/
  verBase : Byte := 0
  verPatch : Byte := 0
  verOpen : BitVec 16 := 0
  /-- The words with a parity error, which channel 28 reloads (R352). -/
  reloads : List Reload := []
  deriving DecidableEq, Repr

/-! ### Queues -/

/-- A completion entry (R93). -/
structure Compl where
  cookie : DWord := 0
  queue : BitVec 16 := 0
  slot : BitVec 16 := 0
  status : Status := .ok
  flags : Byte := 0
  gen : BitVec 16 := 0
  a : DWord := 0
  b : DWord := 0
  deriving DecidableEq, Repr

/-- What a completion reports (R95, R96): a command, an injected frame, or a queue (a notice). -/
inductive HeldSrc where
  | cmd (jid : Nat) | inj (iid : Nat) | notice (q : QId)
  deriving DecidableEq, Repr

/-- A ring entry Ennos writes, all its bytes but the last (R85, R93, R91, R89), and the I flag's demand (R98). -/
structure RingEntry where
  body : List Byte := []
  fire : Bool := false
  /-- What a completion or notice reports; none for a record and for an OK_PARTIAL entry. -/
  owner : Option HeldSrc := none
  /-- The byte with the phase has been issued; every write of the entry has been answered without error. -/
  phased : Bool := false
  answered : Bool := false
  /-- The internal channel that writes the entry (R312); none on the queue path. -/
  chan : Option Nat := none
  deriving DecidableEq, Repr

/-- A fetched or awaited submission entry (R83). -/
structure Fetch where
  idx : RIdx := 0
  /-- The stored tail when the read was issued. -/
  tail : RIdx := 0
  /-- This is the second read of an entry found beyond the tail. -/
  second : Bool := false
  deriving DecidableEq, Repr

/-- A queue: context (R72), positions (R502) and what hangs on it. -/
structure Queue where
  kind : QKind := .cmd
  base : HostAddr := 0
  size : BitVec 4 := 0
  cq : QId := 0
  vector : BitVec 11 := 0
  irqEn : Bool := false
  poll : Byte := 0
  maxOut : BitVec 16 := 0
  modCount : Byte := 1
  modTime : Byte := 0
  headWb : HostAddr := 0
  slotSize : BitVec 4 := 0
  tsQueue : QId := 0
  /-- Bits [56:12] of the punt buffer area. -/
  puntBase : BitVec 45 := 0
  /-- Submission kinds: consumed head. Other kinds: host head. -/
  head : RIdx := 0
  /-- Submission kinds: stored tail. Other kinds: one past the last entry Ennos has written. -/
  tail : RIdx := 0
  gen : BitVec 16 := 0
  stopped : Bool := false
  /-- R59: pending skip count. -/
  skip : Byte := 0
  /-- R75: QDESTROY has stopped intake. -/
  closing : Bool := false
  /-- Reads of submission entries under way. -/
  fetches : List Fetch := []
  /-- Entries read and found usable, by index (R83). -/
  ready : List (RIdx × BitVec 512) := []
  /-- The head moved and head_wb has not been written since (R81). -/
  wbOwed : Bool := false
  /-- Entries written since the vector last fired (R98). -/
  unsignalled : Nat := 0
  /-- When the first of those was written (R98), and when the last poll read (R84), on the block's clock. -/
  firstAt : Nat := 0
  polledAt : Nat := 0
  /-- Records generated on this queue; the next record's rec_seq (R91). -/
  recSeq : DWord := 0
  puntSeq : DWord := 0
  /-- Entries reserved for records not yet generated (R92). -/
  reserved : Nat := 0
  /-- Entries being written, by ring index, in order: an entry leaves once it and those before it have been answered. -/
  inflight : List (RIdx × RingEntry) := []
  /-- R503: entries held because the ring stopped, oldest first. -/
  heldWrites : List RingEntry := []
  /-- R503: the one retry of the held write is under way. -/
  retrying : Bool := false
  /-- R404: a queue-level notice not yet written. -/
  notice : Option Compl := none
  deriving DecidableEq, Repr

/-- An interrupt vector (R97). `sent` while its message is unanswered. -/
structure Vector97 where
  addr : DWord := 0
  data : Word := 0
  rsv : BitVec 29 := 0
  pin : Bool := false
  pending : Bool := false
  mask : Bool := true
  sent : Bool := false
  /-- A fire for which no message has been sent, or whose message has failed (R98). -/
  due : Bool := false
  /-- A message that became due while HOST was asleep waits for it (R468). -/
  waitsHost : Bool := false
  deriving DecidableEq, Repr

/-- An accepted INJECT entry whose completion has not been written (R87, R402). -/
structure Inj where
  iid : Nat := 0
  queue : QId := 0
  idx : RIdx := 0
  gen : BitVec 16 := 0
  cookie : DWord := 0
  buffer : HostAddr := 0
  length : BitVec 14 := 0
  port : PortId := 0
  preempt : Bool := false
  wantTs : Bool := false
  oneStep : Bool := false
  prio : Prio := 0
  ptpOffset : BitVec 16 := 0
  sent : Bool := false
  cut : Bool := false
  /-- It has started on the wire (R420). -/
  started : Bool := false
  /-- Length on the wire minus 1 (R402). -/
  lenMinus1 : BitVec 14 := 0
  /-- The NOT_SENT reason or 0 for OK, once the outcome is known (R88). -/
  outcome : Option Byte := none
  /-- The frame's buffer read is under way or done, into this many cells. -/
  fetching : Bool := false
  cells : Nat := 0
  /-- R420: the partner has been told that the frame starts. -/
  announced : Bool := false
  held : Bool := false
  posting : Bool := false
  replay : Bool := false
  deriving DecidableEq, Repr

/-- Region 0x02 and the pages of AON (03). -/
structure Queues where
  tab : Tab (Option Queue) := []
  /-- R78, R80: the stored doorbell words, held in AON. -/
  doorbells : Tab RIdx := []
  vectors : Tab Vector97 := []
  /-- Completions in pigeonholes, oldest first: the completion ring and what is reported. -/
  held : List (QId × HeldSrc) := []
  inj : List Inj := []
  faultValid : Bool := false
  faultReason : BitVec 4 := 0
  faultCount : BitVec 12 := 0
  faultQueue : BitVec 12 := 0
  deriving DecidableEq, Repr

/-! ### Fabric port and DMA -/

/-- Whose a master request is (R469). -/
inductive Owner where
  | entry (q : QId) (idx : RIdx)
  | routine (jid : Nat) (offset : Nat)
  | chanRead (c : Nat) (offset : Nat)
  | chanWrite (c : Nat) (offset : Nat)
  /-- A line of a channel's program, and the re-read of an END word (R328). -/
  | chanLine (c : Nat)
  | chanReread (c : Nat)
  | ring (q : QId) (idx : RIdx) (phase : Bool)
  | puntBuf (q : QId) (frame : Nat) (idx : RIdx) (last : Bool)
  | headWb (q : QId)
  | irq (v : BitVec 11)
  | hostWrite (jid : Nat)
  | inject (iid : Nat)
  /-- The reload of a control-store word (R352). -/
  | reload (ovl : Bool) (word : Nat)
  /-- Nothing waits for its answer any more. -/
  | none
  deriving DecidableEq, Repr

/-- An outstanding master request. -/
structure Req where
  tag : BitVec 10 := 0
  isWrite : Bool := false
  addr : HostAddr := 0
  len : Nat := 0
  data : List Byte := []
  relaxed : Bool := false
  owner : Owner := .none
  /-- Attempts that may still follow (R323). -/
  tries : Nat := 0
  /-- The channel whose program, or whose kind of work (R312), the access belongs to; none on the queue path. -/
  chan : Option Nat := none
  deriving DecidableEq, Repr

/-- The grants in one direction of the fabric port (R321): the channel that last won, and the queue path's claim while channels wait, in
1/256 of a beat. -/
structure Arb where
  last : Nat := 31
  claim : Nat := 0
  deriving DecidableEq, Repr

/-- How far an instruction that moves bytes has come (R315, R321): the bytes of the instruction; those whose reads, and whose writes, have
been issued; those done, up to which the cursors have advanced; whether its H and its F point are still to come (R322). Of COMPARE,
`asked` counts the reads at DST and `issued` those at SRC. -/
structure Span where
  total : Nat := 0
  asked : Nat := 0
  issued : Nat := 0
  done : Nat := 0
  h : Bool := false
  f : Bool := false
  deriving DecidableEq, Repr

/-- What a channel's instruction is doing (R315). -/
inductive Xfer where
  | move (x : Span)
  | fill (pattern : Word) (x : Span)
  /-- A pattern or the SRC bytes; continue on a mismatch; a mismatch has been seen. -/
  | compare (pattern : Option Word) (cont : Bool) (x : Span) (seen : Bool)
  /-- The vector to fire once the write has been made. -/
  | signal (fire : Option (BitVec 11))
  /-- An END word is being read again (R328). -/
  | reread
  deriving DecidableEq, Repr

/-- A DMA channel (R330 to R335). -/
structure Chan where
  irqEnd : Bool := false
  irqHalt : Bool := false
  vector : BitVec 11 := 0
  retries : BitVec 3 := 3
  st : ChanSt := .idle
  reason : BitVec 4 := 0
  prio : BitVec 2 := 0
  armed : Bool := false
  shadow : HostAddr := 0
  shadowPrio : BitVec 2 := 0
  hoEnd : Bool := false
  hoIdle : Bool := false
  reread : Bool := false
  endValid : Bool := false
  half : Bool := false
  full : Bool := false
  mismatch : Bool := false
  credits : Byte := 0
  pc : HostAddr := 0
  src : HostAddr := 0
  dst : HostAddr := 0
  endAt : HostAddr := 0
  cmp : HostAddr := 0
  active0 : Bool := false
  active1 : Bool := false
  lc0 : BitVec 24 := 0
  lc1 : BitVec 24 := 0
  /-- The 64-byte program line that holds the instruction at `pc`; none until its read is answered (R328). -/
  line : Option (List Byte) := none
  xfer : Option Xfer := none
  /-- Bytes in the funnel buffer, by their offset in the instruction; those that COMPARE reads at SRC stand above them (R321). -/
  buf : Tab Byte := []
  /-- While WAITING: the credits waited for, none for a time. -/
  waitFor : Option Nat := none
  /-- The X of the WAIT in µs, and `State.clock` at its start. -/
  waitUs : Nat := 0
  waitAt : Nat := 0
  /-- The first byte of the instruction whose access has failed (R323). -/
  failAt : Option Nat := none
  /-- DMASTOP has asked the channel to stop: at the end of the instruction (false) or at the next beat (true). -/
  stopping : Option Bool := none
  /-- R407: an internal channel out of use; and the channel that carries its work. -/
  failed : Bool := false
  deriving DecidableEq, Repr

/-- Region 0x03 and the fabric port's requests. -/
structure Dma where
  qshare : Byte := 0xC0#8
  qretries : BitVec 3 := 3
  chans : Tab Chan := []
  reqs : List Req := []
  /-- Requests that wait for one of the 1,024 tags (R469). -/
  backlog : List Req := []
  /-- R321: the grants of reads and of writes among them. -/
  readArb : Arb := {}
  writeArb : Arb := {}
  /-- The latch of each path (R494): window, management, Postmaster; the low word's address and the high words. -/
  latches : List (Path × Word × Word × Word) := []
  /-- R495: staged low words, by low-word address. -/
  staged : List (Nat × Word) := []
  deriving DecidableEq, Repr

/-! ### Sorter -/

/-- A rule (R190, R191). -/
structure Rule where
  value : BitVec 320 := 0
  mask : BitVec 320 := 0
  action : DWord := 0
  deriving DecidableEq, Repr

/-- A pattern (R185). -/
structure Pattern where
  value : List Byte := []
  mask : List Byte := []
  length : Byte := 0
  flags : Byte := 0
  minOff : BitVec 16 := 0
  maxOff : BitVec 16 := 0
  deriving DecidableEq, Repr

/-- What one logical slice holds of the Sorter (R202 to R204, R177, R195). -/
structure SliceL where
  bank0 : Tab Rule := []
  bank1 : Tab Rule := []
  bindings : Tab QWord := []
  patterns : Tab Pattern := []
  epochCount : Word := 0
  epochAt : DWord := 0
  draining : Bool := false
  /-- R195: the frames that were in reception at the last swap and have not ended: the port, and whether on the preemptable MAC. -/
  arriving : List (Nat × Bool) := []
  /-- R171: engine slots that frames from the wire have taken since a recirculated frame waits. -/
  slots : Nat := 0
  writing : Bool := false
  held0 : Bool := false
  held1 : Bool := false
  /-- R177: the sort-program replica, by control-store word. -/
  replica : Tab QWord := []
  /-- Replica words with a parity error (R353). -/
  badReplica : List Nat := []
  /-- R406: entries that act as not valid: the kind of R430, the bank of a rule, and the entry. -/
  badEntries : List (BitVec 4 × Bool × Nat) := []
  /-- Placement generation of the slice's counters (R408). -/
  gen : BitVec 16 := 0
  deriving DecidableEq, Repr

/-- What one physical slice holds (R430, R431, R491). -/
structure SliceP where
  table : BitVec 4 := 0
  index : BitVec 13 := 0
  faultValid : Bool := false
  faultHeld : Bool := false
  /-- R406: when its slice faults of the last second came, on the block's clock. -/
  faults : List Nat := []
  faultKind : BitVec 4 := 0
  faultEntry : BitVec 13 := 0
  testing : Bool := false
  /-- R410: passed SLICETEST since it last carried a slice. -/
  passed : Bool := false
  /-- What has been written to the RW parameters of its region while it carries nothing, by the parameter's offset. -/
  idle : Tab (Option DWord) := []
  deriving DecidableEq, Repr

/-- Region 0x04 and the slices' Sorter state (06). -/
structure Sorter where
  seed : Word := 0xFFFFFFFF#32
  /-- Depth code of slice pair j (R201). -/
  depth : Tab (BitVec 3) := []
  logical : Tab SliceL := []
  physical : Tab SliceP := []
  deriving DecidableEq, Repr

/-! ### Ports, lanes and frames -/

/-- A timestamp (R245, R249). -/
structure Stamp where
  seconds : BitVec 48 := 0
  /-- Units of 2^-16 ns below the second. -/
  sub : Nat := 0
  state : TimeSt := .unset
  powerup : BitVec 16 := 0
  deriving DecidableEq, Repr

/-- How Registry resolved a frame (R207, R211). -/
inductive Resolution where
  | none | probing | pair (index : Nat) | unsorted (reason : BitVec 3)
  deriving DecidableEq, Repr

/-- What the Sorter found (R189 to R192). -/
structure Class where
  src : BitVec 14 := 0
  dst : BitVec 14 := 0
  vlan : BitVec 12 := 0
  cls : BitVec 6 := 0
  colour : BitVec 2 := 0
  pipe : Bool := false
  prio : BitVec 3 := 0
  punt : Bool := false
  puntQueue : Nat := 0
  hash : Word := 0
  shallow : Bool := false
  parseFault : Bool := false
  outer : BitVec 2 := 0
  tagged : Bool := false
  deriving DecidableEq, Repr

/-- A received frame in staging, from the end of its checks to its acceptance or drop. -/
structure RxFr where
  fid : Nat := 0
  port : PortId := 0
  /-- Plaintext, destination address through the last byte before the FCS (R124). -/
  bytes : List Byte := []
  /-- Length on the wire (R6). -/
  wire : Nat := 0
  /-- Logical slice whose pipeline bus carries it (R104). -/
  slice : BitVec 4 := 0
  stamp : Stamp := {}
  /-- Epoch count under which it is classified (R193). -/
  epoch : Word := 0
  macsec : Bool := false
  preempt : Bool := false
  /-- Through the Sorter. -/
  parsed : Bool := false
  cls : Class := {}
  res : Resolution := .none
  /-- Handed to the pipeline; the punt copy remains (R20). -/
  handed : Bool := false
  /-- Its punt's writes are on their way: the queue, the index of its first slot and the slots; how many of its phase bytes have been
  issued (R90). -/
  punting : Option (QId × RIdx × Nat) := none
  phases : Nat := 0
  /-- The metadata word of a recirculated frame (R197). -/
  recirc : Option QWord := none
  deriving DecidableEq, Repr

/-- Where a transmit frame came from. -/
inductive TxSrc where
  /-- The pipeline: its transmit word, and the queue on which an entry is reserved for its timestamp record (R257). -/
  | pipe (word : QWord) (reserved : Option QId)
  | inject (iid : Nat)
  deriving DecidableEq, Repr

/-- A frame in transmit staging or on the wire. -/
structure TxFr where
  fid : Nat := 0
  port : PortId := 0
  /-- The logical slice whose bus brought it (R104); an injected frame has none. -/
  slice : Option (BitVec 4) := none
  bytes : List Byte := []
  src : TxSrc := .inject 0
  prio : Prio := 0
  /-- Assigned to the preemptable MAC (R143). -/
  preempt : Bool := false
  cells : Nat := 0
  /-- On the wire: the frame with its FCS, its SA and stamp, its length under R6, and whether it left with an SMD-S. -/
  wire : List Byte := []
  an : Option (BitVec 2) := none
  stamp : Stamp := {}
  /-- The lane calibration of the stamp was valid (R257 flags [0]). -/
  cal : Bool := false
  smd : Bool := false
  /-- Offset up to which fragments have been sent (R144). -/
  sent : Nat := 0
  /-- The number of its SMD-S, and the continuations begun (802.3br). -/
  smdNo : BitVec 2 := 0
  conts : Nat := 0
  /-- `port.preempt` frag at its start (R144). -/
  frag : BitVec 2 := 0
  /-- Record flags [1] and [3] of R257. -/
  updated : Bool := false
  skipped : Bool := false
  deriving DecidableEq, Repr

/-- A guard engagement or refusal count waiting for its record (R155). -/
structure GuardEvent where
  guard : Byte := 0
  prio : Byte := 0xFF#8
  action : Byte := 0
  count : Nat := 0
  stamp : Stamp := {}
  deriving DecidableEq, Repr

/-- The transmit PCS of a port (R101, R106 to R111), from PORTUP on. -/
structure Pcs where
  /-- Codeword pairs formed (R107): the number k of the next one. -/
  k : Nat := 0
  /-- The last 58 scrambled bits, the latest in bit 0 (R106). -/
  scrambler : BitVec 58 := 0
  /-- 66B blocks, not yet scrambled, of what the MAC has finished and the lanes have not yet taken. -/
  fifo : List (BitVec 66) := []
  /-- 66B blocks of idle that are still to be deleted for inserted markers (R111). -/
  owed : Nat := 0
  /-- The deficit idle count (R111, R128). -/
  deficit : Nat := 0
  /-- For each logical lane, the transfers of its present codeword pair that have still to leave. -/
  lanes : List (List (BitVec 320)) := []
  /-- The lane cycle, modulo 4, in which the valid strobe of the lanes stands (R101). -/
  strobe : Nat := 0
  deriving DecidableEq, Repr

/-- A port (R115, R131 to R134, R157 to R161, R168, R283). -/
structure Port where
  mode : Byte := 0
  st : PortSt := .down
  preemptEn : Bool := false
  protect : Bool := false
  memberGuard : Bool := false
  maxfrm : BitVec 15 := 0x2400#15
  threshold : Word := 0x00100000#32
  /-- R134: the threshold of the 1 ms interval that runs. -/
  thresholdNow : Word := 0x00100000#32
  corrected : Nat := 0
  degrade : Bool := false
  remoteDegrade : Bool := false
  peerPort : BitVec 6 := 0
  peerMode : Byte := 0
  quanta : BitVec 16 := 0xFFFF#16
  refresh : BitVec 12 := 0x800#12
  txMode : BitVec 2 := 0
  rxMode : BitVec 2 := 0
  fcSa : BitVec 48 := 0
  map : Byte := 0
  verifyTime : Byte := 0x0A#8
  verifyDisable : Bool := false
  frag : BitVec 2 := 0
  verify : VerifySt := .disabled
  attempts : BitVec 4 := 0
  asserted : Byte := 0
  /-- The priorities that the last generated frame asserted (R140). -/
  told : Byte := 0
  /-- R139, R150: when the last frame that asserted the priority left and the time it gave, in quanta; since when the priority is
  asserted without a break; the spans for which it was asserted before. In periods of `State.clock`. -/
  toldAt : Tab Nat := []
  toldTime : Tab (BitVec 16) := []
  assertedAt : Tab Nat := []
  spans : Tab (List (Nat × Nat)) := []
  /-- R137, R151: when the frame that set a received pause time ended; since when the partner holds the priority without a break; when
  each watchdog engaged. -/
  pauseFrom : Tab Nat := []
  pausedAt : Tab Nat := []
  stormRxAt : Tab Nat := []
  stormTxAt : Tab Nat := []
  /-- R142: when the last verify mPacket was sent. -/
  verifyAt : Nat := 0
  /-- R155: when each refusal guard last reported. -/
  reportedAt : Tab (Option Nat) := []
  xoff : Byte := 0
  rxIgnored : Byte := 0
  rxPaused : Byte := 0
  dutyClipped : Byte := 0
  stormTx : Byte := 0
  /-- R138: remaining pause time of a priority, in quanta, as the last valid frame set it. -/
  pauseTime : Tab (BitVec 16) := []
  tsRx : BitVec 16 := 0
  tsTx : BitVec 16 := 0
  gen : BitVec 16 := 0
  /-- R104: frames dealt since PORTUP, modulo 2, for the express and the preemptable MAC. -/
  turnE : Bool := false
  turnP : Bool := false
  tx : List TxFr := []
  wireE : Option TxFr := none
  wireP : Option TxFr := none
  /-- The preemptable frame on `wireP` is suspended; its remainder waits (R145). -/
  suspended : Bool := false
  /-- PORTDOWN has stopped the transmit intake (R507). -/
  txStopped : Bool := false
  /-- Injected frames refused since then (R68). -/
  stopRefused : Nat := 0
  /-- Fault ordered sets being received: local, remote (R115). -/
  localIn : Bool := false
  remoteIn : Bool := false
  /-- A pause or PFC frame is to be built and sent at the next preemption point or at the end of the frame on the wire (R141);
  further triggers merge into it (R140). -/
  ctlDue : Bool := false
  /-- The number of the next preemptable frame's SMD-S (R126, 802.3br). -/
  smdNext : BitVec 2 := 0
  /-- A frame of the express, of the preemptable MAC may still be in reception although the port has left UP (R120, R507). -/
  endE : Bool := false
  endP : Bool := false
  pcs : Pcs := {}
  /-- R153: the token bucket, bytes below full. -/
  spent : Nat := 0
  /-- R155: refusals of guards 0x05, 0x06 and 0x08 since the last report, and events merged while no entry was free. -/
  refused5 : Nat := 0
  refused6 : Nat := 0
  refused8 : Nat := 0
  events : List GuardEvent := []
  deriving DecidableEq, Repr

/-- A lane (R112, R114, R135, R282). -/
structure Lane where
  signal : Bool := false
  lock : Bool := false
  amSeq : Byte := 0
  mismatch : Bool := false
  logical : BitVec 3 := 0
  /-- The last candidate: mode, lane, am_seq. -/
  cand : Option (Byte × BitVec 3 × Byte) := none
  /-- The last good marker since the last deskew attempt: am_seq and its arrival in ps (R113). -/
  mark : Option (Byte × Nat) := none
  badMarkers : Nat := 0
  badCodewords : Nat := 0
  rxValid : Bool := false
  txValid : Bool := false
  rxCal : BitVec 15 := 0
  txCal : BitVec 15 := 0
  deriving DecidableEq, Repr

/-- The frame path of the slices: staging, buses and recirculation. -/
structure Frames where
  /-- Received frames in the order in which they became complete in staging (R171). -/
  rx : List RxFr := []
  /-- Recirculated frames that wait in a recirculation buffer for receive credit (R463). -/
  recirc : List RxFr := []
  /-- Receive credits of the bus of logical slice k below 256 (R460). -/
  creditsUsed : Tab Nat := []
  /-- Lane cycles at 1.328125 GHz that have passed, modulo 4, and the part of the next in units of 1/256 (R101). -/
  laneCycle : Nat := 0
  lanePart : Nat := 0
  deriving DecidableEq, Repr

/-! ### Registry and statistics -/

/-- A counter set (R206). -/
structure CSet where
  frames : DWord := 0
  bytes : DWord := 0
  deriving DecidableEq, Repr

/-- A pair-table entry (R206). -/
structure PairEntry where
  /-- 0 EMPTY, 1 VALID, 2 FREED, 3 acts as FREED. -/
  state : BitVec 2 := 0
  fixed : Bool := false
  swept : Bool := false
  lost : Bool := false
  learned : Bool := false
  key : BitVec 46 := 0
  lastSeen : DWord := 0
  curEpoch : BitVec 16 := 0
  prevEpoch : BitVec 16 := 0
  cur : CSet := {}
  prev : CSet := {}
  /-- The accounting epochs in which Registry learned and rebuilt the entry (R220, R223): kept beside the entry, log
  entry 38. -/
  learnedIn : BitVec 16 := 0
  lostIn : BitVec 16 := 0
  deriving DecidableEq, Repr

/-- The unsorted counters of one port and reason (R212). -/
structure Unsorted where
  curEpoch : BitVec 16 := 0
  prevEpoch : BitVec 16 := 0
  cur : CSet := {}
  prev : CSet := {}
  swept : Bool := true
  deriving DecidableEq, Repr

/-- A cache line (R210); the list's order is least recently used first. -/
structure CacheLine where
  index : Nat := 0
  entry : PairEntry := {}
  dirty : Bool := false
  /-- Identifier taken when the line last became dirty (R57 A[3]). -/
  since : Nat := 0
  pins : Nat := 0
  deriving DecidableEq, Repr

/-- A miss being probed (R207, R209). -/
structure Probe where
  key : BitVec 46 := 0
  way : Nat := 0
  /-- The tag of its read under way, channel in bit 10; none while every tag of the channel is in use. -/
  tag : Option (BitVec 11) := none
  /-- When the read was issued, R62 encoding (R224 cause 0x04). -/
  issued : DWord := 0
  /-- Frames that wait on it. -/
  frames : List Nat := []
  deriving DecidableEq, Repr

/-- An accounting gap owed or generated (R224). -/
structure Gap where
  cause : Byte := 0
  firstPort : Byte := 0xFF#8
  lastPort : Byte := 0xFF#8
  who : BitVec 3 := 0
  epoch : BitVec 16 := 0
  fromAt : DWord := 0
  toAt : DWord := 0
  pair : Word := 0xFFFFFFFF#32
  state : TimeSt := .unset
  powerup : BitVec 16 := 0
  deriving DecidableEq, Repr

/-- The latched accepted counters of a port at a switch (R215): frames and bytes, 64 bits each. -/
structure PortLatch where
  frames : DWord := 0
  bytes : DWord := 0
  /-- Placement generation at the switch. -/
  gen : BitVec 16 := 0
  deriving DecidableEq, Repr

/-- The phases of R233. -/
inductive SnapPhase where
  | idle | draining | sweeping | closing | paused
  deriving DecidableEq, Repr

/-- Regions 0x05 (07, 15 R475) and caddies 2 and 3. -/
structure Registry where
  epoch : BitVec 16 := 0
  epochAt : DWord := 0
  prevEpochAt : DWord := 0
  phase : SnapPhase := .idle
  /-- 0 none, 1 armed, 2 postponed. -/
  pending : BitVec 2 := 0
  mark : BitVec 25 := 0
  /-- The epoch being swept, the records emitted of it, the time state at its close, and the port of the closing step. -/
  closed : BitVec 16 := 0
  pairRecs : Word := 0
  unsortRecs : Word := 0
  closeState : TimeSt := .unset
  recordQueue : QId := 0
  learn : Bool := true
  limit : BitVec 25 := 0x1000000#25
  count : BitVec 25 := 0
  age : BitVec 16 := 0x05A0#16
  share : Byte := 0xA0#8
  window : BitVec 24 := 0
  cache : List CacheLine := []
  probes : List Probe := []
  /-- The pair table (and the shadow table above it) in ledger memory (R206, R473). -/
  ledger : Tab PairEntry := []
  region : BitVec 2 := 1
  unreachable : Bool := false
  uncorr : BitVec 16 := 0
  /-- R505: the pair table has not been cleared since AON power-up. -/
  clearing : Bool := true
  /-- Items of the final step of the sweep that are done (R218). -/
  closeAt : Nat := 0
  /-- R222: dirty caddy 3 lines are written back after a cold reset. -/
  writebackOwed : Bool := false
  /-- Owed gap records, in order (R224). -/
  gaps : List Gap := []
  unsorted : Tab Unsorted := []
  /-- Counter wraps past 2^48 of rx_accepted_frames and rx_accepted_bytes since power-up (R215). -/
  wrapFrames : Tab (BitVec 16) := []
  wrapBytes : Tab (BitVec 16) := []
  atClose : Tab PortLatch := []
  atOpen : Tab PortLatch := []
  deriving DecidableEq, Repr

/-- The counters (R225 to R230, R302): keys are port or slice times the block size plus the word. -/
structure Stats where
  native : Tab (BitVec 48) := []
  slice : Tab (BitVec 48) := []
  compat : Tab Word := []
  macsec : Tab (BitVec 48) := []
  vecEnable : Bool := false
  vector : BitVec 11 := 0
  cross : DWord := 0
  crossSlice : BitVec 16 := 0
  deriving DecidableEq, Repr

/-! ### Postmark -/

/-- An armed EPOCH or SNAP (R64, R66, R250). -/
structure Armed where
  instant : DWord := 0
  /-- The slices of an EPOCH. -/
  slices : List Nat := []
  /-- The local entry that armed it, none for a collective. -/
  jid : Option Nat := none
  /-- The queue whose drain it starts (R57). -/
  queue : Option (BitVec 16) := none
  /-- `coll.lead_min` as its instruction captured it at step 0, in µs (R42). -/
  lead : Nat := 0
  /-- The collective it belongs to: issuer and identifier. -/
  coll : Option (BitVec 3 × Nat) := none
  /-- R66: not ready at its instant; a new instant is still to be chosen. -/
  held : Bool := false
  postponed : Bool := false
  /-- The actual instant, once the switch has taken place. -/
  fired : Option DWord := none
  deriving DecidableEq, Repr

/-- What decides the timestamp of a point beside the moment (R249, R253, R283): the time state and whether TIME is on, the steps so far, each
port's receive correction and each lane's receive calibration. -/
structure Regime where
  state : TimeSt := .unset
  on : Bool := false
  stepped : Int := 0
  corr : Tab (BitVec 16) := []
  cal : Tab (BitVec 15) := []
  deriving DecidableEq, Repr

/-- Region 0x06 (08). -/
structure Time where
  seconds : BitVec 48 := 0
  /-- Units of 2^-30 ns below the second (R245). -/
  sub : Nat := 0
  state : TimeSt := .unset
  previous : TimeSt := .unset
  lowPower : Bool := false
  powerup : BitVec 16 := 1
  inc : Word := 0x50000000#32
  kp : BitVec 16 := 0xC000#16
  ki : BitVec 16 := 0x4000#16
  source : BitVec 2 := 0
  lpHold : Bool := false
  lockN : BitVec 5 := 4
  lockNs : Byte := 0x64#8
  holdMs : BitVec 16 := 0x0BB8#16
  /-- Integrator, units of 2^-16 ppb, signed (R274). -/
  integ : DWord := 0
  offset : DWord := 0
  inRow : Nat := 0
  /-- Local time of the last accepted offset, units of 2^-16 ns since second 0; none: the next offset uses 1 s (R261). -/
  lastAt : Option Int := none
  /-- The block's clock at the last accepted offset (R247, R273). -/
  lastTick : Nat := 0
  /-- How far steps, and time that has not counted, have moved local time against elapsed time: units of 2^-16 ns (R249, R253). -/
  stepped : Int := 0
  outEn : Bool := false
  inEn : Bool := false
  todEn : Bool := false
  todSet : Bool := false
  outWidth : BitVec 16 := 0x2710#16
  inDelay : BitVec 16 := 0
  outAdv : BitVec 16 := 0
  pipeTsQueue : QId := 0
  tsMissed : BitVec 16 := 0
  tcSkipped : Byte := 0
  todBad : BitVec 4 := 0
  ppsBad : BitVec 4 := 0
  alarm0 : DWord := 0
  alarm1 : DWord := 0
  armed0 : Bool := false
  armed1 : Bool := false
  fired0 : Bool := false
  fired1 : Bool := false
  alarmVector : BitVec 11 := 0
  /-- Local time of the last accepted edge (R264). -/
  lastEdge : Option Int := none
  /-- Seconds of a good time-of-day message waiting for its edge. -/
  tod : Option (BitVec 48) := none
  ppsOut : Bool := false
  role : BitVec 2 := 0
  headId : BitVec 3 := 0
  headOffset : BitVec 11 := 0
  headDelay : BitVec 16 := 0
  alignedRow : Nat := 0
  aligned : Bool := false
  /-- It has stepped to a head's time since it became a follower (R266). -/
  joined : Bool := false
  /-- The time state of the head, as its time flits tell it (R247, R266). -/
  headState : TimeSt := .unset
  armedEpoch : Option Armed := none
  armedSnap : Option Armed := none
  deriving DecidableEq, Repr

/-! ### Security and guards -/

/-- A key slot (R284, R291, R292, R297). -/
structure KeySlot where
  installed : Bool := false
  suite : BitVec 4 := 0
  key : BitVec 256 := 0
  hash : QWord := 0
  salt : BitVec 96 := 0
  ssci : Word := 0
  /-- Transmit: next PN to send. Receive: lowest acceptable PN. -/
  pn : Nat := 0
  /-- Receive: next expected PN. -/
  nextPn : Nat := 0
  highWater : Nat := 0
  exhausted : Bool := false
  warned : Bool := false
  /-- Retired while a frame under it is on the wire (R289). -/
  retiring : Bool := false
  deriving DecidableEq, Repr

/-- A packet-number record that waits for an entry (R292, R301): the SA's slot, the action, the suite, the PN and the time of the event. It
stays owed whatever becomes of the slot. -/
structure PnOwed where
  slot : Nat := 0
  action : Byte := 0
  suite : BitVec 4 := 0
  pn : Nat := 0
  stamp : Stamp := {}
  deriving DecidableEq, Repr

/-- A key-load scratch slot (R287). -/
structure Scratch where
  queue : BitVec 16 := 0
  slot : BitVec 16 := 0
  data : List Byte := []
  deriving DecidableEq, Repr

/-- A port's MACsec parameters (R306 to R309). -/
structure SecPort where
  txEn : Bool := false
  txAn : BitVec 2 := 0
  acceptClear : Bool := true
  txSci : DWord := 0
  rxSci : DWord := 0
  replay : Word := 0
  deriving DecidableEq, Repr

/-- The MACsec part of region 0x07 (09). -/
structure Sec where
  eventQueue : QId := 0
  xpnW : BitVec 6 := 0x30#6
  w : BitVec 6 := 0x1E#6
  erasures : BitVec 16 := 0
  ports : Tab SecPort := []
  slots : Tab KeySlot := []
  scratch : List Scratch := []
  /-- Packet-number records that wait for an entry, the oldest first (R292). -/
  owed : List PnOwed := []
  deriving DecidableEq, Repr

/-- A port's guard settings (R164 to R169). -/
structure GuardPort where
  duty : DWord := 0xC0C0C0C0C0C0C0C0#64
  rxHold : BitVec 16 := 0x03E8#16
  rxDetect : BitVec 16 := 0x00C8#16
  txHold : BitVec 16 := 0x03E8#16
  txDetect : BitVec 16 := 0x0014#16
  rate : Word := 0x000003E8#32
  burst : BitVec 7 := 0x10#7
  floor : Bool := false
  /-- Allow-list entries: valid in bit 48, address below (R169). -/
  allow : Tab (BitVec 49) := []
  deriving DecidableEq, Repr

/-- The guard settings and their lock, in AON (R148, R162). -/
structure Guards where
  locked : Bool := false
  ports : Tab GuardPort := []
  deriving DecidableEq, Repr

/-! ### Power -/

/-- A power domain (R361, R397). -/
structure Domain where
  st : DomSt := .off
  rest : RestSt := .retention
  refusedBy : Byte := 0
  entries : Byte := 0
  railGood : Bool := false
  /-- The count of the step's AON cycles has passed and only the rail is waited for (R484). -/
  railWait : Bool := false
  /-- R367: its entry begins in the next AON cycle. -/
  leaving : Bool := false
  deriving DecidableEq, Repr

/-- An outstanding hint (R386). -/
structure Hint where
  kind : Byte := 0
  expected : BitVec 16 := 0
  /-- B, in µs, and the commit of the HINT on the block's clock. -/
  duration : Nat := 0
  since : Nat := 0
  deriving DecidableEq, Repr

/-- Region 0x08 (12). -/
structure Power where
  doms : Tab Domain := []
  /-- Votes by client code. -/
  votes : Tab (BitVec 25) := []
  /-- R367: domains that begin entry once the UNVOTE's completion has been written, with the entry's identifier. -/
  deferred : List (Nat × Nat) := []
  wakeSource : BitVec 4 := 0
  wakeDetail : BitVec 16 := 0
  /-- R374: the management target holds SCL low; a match that the head has still to relay, taken with HOST asleep. -/
  sclHeld : Bool := false
  relayOwed : Bool := false
  asleepRead : Bool := false
  asleepWrite : Bool := false
  asleepCount : BitVec 16 := 0
  asleepAddr : Word := 0
  budgetRefused : BitVec 16 := 0
  brownout : Bool := false
  measStale : Bool := false
  capFail : Bool := false
  corePll : Bool := false
  wakeCfg : Word := 0xB000000E#32
  laneWake : DWord := 0
  soft : BitVec 16 := 0xB3B0#16
  capIn : BitVec 16 := 0xB3B0#16
  capSample : BitVec 16 := 0xB3B0#16
  estimate : BitVec 16 := 0
  measured : BitVec 16 := 0
  gain : BitVec 16 := 0x1000#16
  m : BitVec 4 := 0xF#4
  pmRate : BitVec 2 := 0
  hints : List Hint := []
  /-- H in force, mW. -/
  reserve : Nat := 0
  /-- The slice pairs whose depth has been lowered, the last first (R383). -/
  shed : List Nat := []
  /-- The latest estimates of the links, memory and compute classes, mW (R386). -/
  estLinks : Nat := 0
  estMemory : Nat := 0
  estCompute : Nat := 0
  /-- Evaluations in a row that held the headroom of R384, and of R385. -/
  calm : Nat := 0
  under : Nat := 0
  capVecEnable : Bool := false
  capVector : BitVec 11 := 0
  deriving DecidableEq, Repr

/-! ### Cascade and twin -/

/-- A collective as a member holds it (R63 to R67); the head's fields are kept by every member, so that a new head can go
on (R417). -/
structure Coll where
  issuer : BitVec 3 := 0
  cid : Nat := 0
  op : Byte := 0
  a : Word := 0
  target : BitVec 16 := 0
  instant : DWord := 0
  postponed : Bool := false
  /-- Members it was sent to, that have reported, that are not ready. -/
  members : Byte := 0
  reported : Byte := 0
  notReady : Byte := 0
  /-- R67: it waited behind another of its opcode; a member was lost before it reported. -/
  waited : Bool := false
  lost : Bool := false
  /-- This member has reported; it has told the head that it is not ready. -/
  mine : Bool := false
  told : Bool := false
  /-- FENCE: the lines, records and entries this member waits for. -/
  dirty : List Nat := []
  recs : List (Nat × Nat) := []
  before : Nat := 0
  /-- When this member took it in, on the block's clock (R67, `coll.timeout`). -/
  since : Nat := 0
  deriving DecidableEq, Repr

/-- A collective that an entry of this member issued: the reports seen, the slices that an EPOCH has swapped here, and how it ended:
status, instant, reports. -/
structure Issued where
  jid : Nat := 0
  queue : BitVec 16 := 0
  op : Byte := 0
  map : Byte := 0
  swapped : List Nat := []
  ended : Option (Byte × DWord × Byte) := none
  deriving DecidableEq, Repr

/-- One link of the ring (R478, R480). -/
structure LinkSt where
  up : Bool := false
  resends : Byte := 0
  seq : BitVec 16 := 0
  lastRecv : BitVec 16 := 0
  unacked : List Flit := []
  good : Nat := 0
  bad : Nat := 0
  deriving DecidableEq, Repr

/-- The states of R434. -/
inductive TwinSt where
  | unbound | binding | bound | serving | adopted | partnerLost
  deriving DecidableEq, Repr

/-- What a bound instance holds of its partner (R420): queue contexts, journal, INJECT words, unsorted counters, port counters,
the latches of the last close, and the numbers the later sweeps need (R422). -/
structure Partner where
  qs : Tab (Option Queue) := []
  journal : List JEntry := []
  inj : List Inj := []
  unsorted : Tab Unsorted := []
  ports : Tab PortLatch := []
  atOpen : Tab PortLatch := []
  configured : DWord := 0
  recordQueue : QId := 0
  epoch : BitVec 16 := 0
  /-- Entries of the shadow table that the present sweep has still to visit, and the items left of its final step; none: no
  sweep. -/
  sweep : List Nat := []
  left : Nat := 0
  pairRecs : Word := 0
  unsortRecs : Word := 0
  deriving DecidableEq, Repr

/-- Region 0x09 (13, 15). -/
structure Casc where
  self : BitVec 3 := 0
  present : Byte := 0
  eligible : Byte := 0
  head : BitVec 3 := 0
  yielded : Bool := false
  successions : Byte := 0
  /-- Consecutive beats missing in both directions, and members that have beaten since the last check. -/
  missing : Tab Nat := []
  beaten : Byte := 0
  lead : BitVec 16 := 0x0014#16
  limit : Word := 0x000F4240#32
  colls : List Coll := []
  issued : List Issued := []
  /-- R67: collectives that wait at the head behind one of their opcode. -/
  queued : List Coll := []
  /-- Units of 2^-16 ns: when the last EPOCH and the last SNAP ended here (R67). -/
  epochEnd : Nat := 0
  snapEnd : Nat := 0
  /-- Members in SERVICE or ADOPTED; that have yielded; whose Postmaster pair has failed while their datapath runs (R421): by
  their last beats (R416). -/
  serving : Byte := 0
  yields : Byte := 0
  pmFailed : Byte := 0
  a : LinkSt := {}
  b : LinkSt := {}
  twin : TwinSt := .unbound
  partner : BitVec 3 := 0
  /-- The binding's part, by the answer of the partner: none while it is awaited. -/
  answer : Option Bool := none
  other : Partner := {}
  /-- Deltas of the present mirror interval. -/
  deltas : List Delta := []
  /-- Local time, units of 2^-16 ns, at which the last mirror interval of the partner was applied (R422). -/
  mirrorAt : Option Nat := none
  deriving DecidableEq, Repr

/-! ### Monitor -/

/-- The service monitor and the test access port (R444 to R450). -/
structure Mon where
  isOpen : Bool := false
  tapOpen : Bool := false
  /-- R449: the instruction register of the test access port; locked, it acts as BYPASS. -/
  tapIr : Byte := 0xFF
  dbgEn : Bool := false
  refused : Byte := 0
  baud : BitVec 4 := 0
  /-- R446: the journal entry of a running exec. -/
  busy : Option Nat := none
  deriving DecidableEq, Repr

/-! ### The whole -/

/-- One block. -/
structure State where
  /-- The commands that wait, first in first out. -/
  pending : List Instr := []
  /-- What has crossed the boundary outwards, in order (model's own field, log entry 3). -/
  out : List Out := []
  /-- The place of the next free value (model's own field, log entry 2). -/
  fresh : Nat := 0
  /-- Periods of 1.25 ns that have passed since AON power-up (model's own field, log entry 108). -/
  clock : Nat := 0
  /-- The next identifier of a journal entry, an INJECT entry or a frame (model's own field, log entry 3). -/
  nextId : Nat := 0
  top : Unit00 := {}
  pm : Pm := {}
  cs : Cs := {}
  qs : Queues := {}
  dma : Dma := {}
  sorter : Sorter := {}
  reg : Registry := {}
  stats : Stats := {}
  time : Time := {}
  /-- The regimes of timestamps, the latest first, each with the clock from which it held. -/
  regimes : List (Nat × Regime) := []
  sec : Sec := {}
  guards : Guards := {}
  /-- R163: guard.event_queue, kept by R504 where the settings are not. -/
  guardQueue : QId := 0
  ports : Tab Port := []
  lanes : Tab Lane := []
  frames : Frames := {}
  power : Power := {}
  casc : Casc := {}
  mon : Mon := {}
  deriving DecidableEq, Repr

/-- The state after AON power-up and release of the cold reset input (R435): every field at its reset value. The straps
CASC_ID, LM_REGION and PW_BOOT_COUNT are log entry 6. -/
def State.reset : State := {}

/-- Why the block stops. No command of this model stops the block with a fault; the one constructor is kept for an internal
scan, see Refusal. -/
inductive Fault where
  /-- Raised by no command: the manual gives every event of the block an effect. Safe. -/
  | none
  deriving DecidableEq, Repr

/-- What the model does not give a meaning. -/
inductive Refusal where
  /-- Raised by an arm of exec that has no meaning yet. Safe. -/
  | notModelled (mnemonic : String)
  /-- Raised by TAP_INSTRUCTION when the test access port is open and the instruction is one of Kwetiral's internal scan
  instructions, whose effect the manual does not give (R449, R2). Safe. -/
  | internalScan
  deriving DecidableEq, Repr

end Machine
end Sys2Proof
end

