-- ==== Sys2Proof/Machine/Flags.lean ====
section
/-! DEFINITION. The codes under which statuses, modes and states are read, and the status words built from them. -/

namespace Sys2Proof
namespace Machine

/-- R48. -/
def Status.code : Status → Byte
  | .ok => 0x00 | .okPartial => 0x01 | .badOpcode => 0x10 | .badOperand => 0x11 | .targetAsleep => 0x12
  | .guardLocked => 0x13 | .modeForbids => 0x14 | .refusedVote => 0x15 | .budgetExceeded => 0x16
  | .retriedAfterCheck => 0x17 | .postponed => 0x18 | .dmaBusError => 0x20 | .compareMismatch => 0x21 | .timeout => 0x22
  | .notSent => 0x30 | .abandonedCold => 0x31 | .pnExhausted => 0x32 | .machineCheckFatal => 0x3F

/-- The status a code names; OK for a code that names none. -/
def Status.ofCode (c : Byte) : Status :=
  ([.okPartial, .badOpcode, .badOperand, .targetAsleep, .guardLocked, .modeForbids, .refusedVote, .budgetExceeded, .retriedAfterCheck,
    .postponed, .dmaBusError, .compareMismatch, .timeout, .notSent, .abandonedCold, .pnExhausted, .machineCheckFatal].find?
      fun s => s.code == c).getD .ok

/-- The mode codes of 01. -/
def Mode.code : Mode → BitVec 4
  | .cold => 0 | .provision => 1 | .service => 2 | .adopted => 3 | .maintenance => 4 | .quarantine => 5

/-- The mode a code names. -/
def Mode.ofCode (c : BitVec 4) : Option Mode :=
  match c.toNat with
  | 0 => some .cold | 1 => some .provision | 2 => some .service | 3 => some .adopted | 4 => some .maintenance
  | 5 => some .quarantine | _ => none

/-- R115. -/
def PortSt.code : PortSt → BitVec 4
  | .down => 0 | .training => 1 | .deskew => 2 | .up => 3 | .localFault => 4 | .remoteFault => 5 | .quarantined => 6

/-- R247. -/
def TimeSt.code : TimeSt → BitVec 2
  | .unset => 0 | .free => 1 | .locked => 2 | .holdover => 3

/-- The time state a code names. -/
def TimeSt.ofCode (c : BitVec 2) : TimeSt :=
  match c.toNat with | 0 => .unset | 1 => .free | 2 => .locked | _ => .holdover

/-- R160. -/
def VerifySt.code : VerifySt → BitVec 3
  | .disabled => 0 | .initial => 1 | .verifying => 2 | .succeeded => 3 | .failed => 4 | .noVerify => 5

/-- R333. -/
def ChanSt.code : ChanSt → BitVec 2
  | .idle => 0 | .running => 1 | .waiting => 2 | .halted => 3

/-- R397. -/
def DomSt.code : DomSt → BitVec 3
  | .off => 0 | .retention _ => 1 | .on => 2 | .restoring _ _ => 3 | .entering _ _ => 4

/-- R397. -/
def RestSt.code : RestSt → BitVec 2
  | .retention => 0 | .off => 1 | .retentionNoCache => 2

/-- R70. -/
def QKind.code : QKind → BitVec 3
  | .admin => 0 | .cmd => 1 | .inject => 2 | .punt => 3 | .record => 4 | .completion => 5

/-- The kind a code names (R70). -/
def QKind.ofCode (c : BitVec 3) : Option QKind :=
  match c.toNat with
  | 0 => some .admin | 1 => some .cmd | 2 => some .inject | 3 => some .punt | 4 => some .record | 5 => some .completion
  | _ => none

/-- R233. -/
def SnapPhase.code : SnapPhase → BitVec 3
  | .idle => 0 | .draining => 1 | .sweeping => 2 | .closing => 3 | .paused => 4

/-- R434. -/
def TwinSt.code : TwinSt → BitVec 3
  | .unbound => 0 | .binding => 1 | .bound => 2 | .serving => 3 | .adopted => 4 | .partnerLost => 5

/-- R42. -/
def JSt.code : JSt → Byte
  | .accepted => 0 | .running => 1 | .committing => 2 | .committed => 3 | .skipped => 4 | .completed => 5

/-- The state of a journal entry that a code names. -/
def JSt.ofCode (c : Byte) : JSt :=
  match c.toNat with | 0 => .accepted | 1 => .running | 2 => .committing | 3 => .committed | 4 => .skipped | _ => .completed

/-- `mode.state` (01). -/
def modeWord (u : Unit00) : Word := at' 32 u.cause 8 ||| at' 32 u.previous.code 4 ||| at' 32 u.mode.code 0

/-- `win.log` (R500). -/
def winLogWord (u : Unit00) : DWord :=
  flag 64 u.logValid 63 ||| at' 64 u.logKind 60 ||| at' 64 u.logCount 48 ||| at' 64 u.logAddr 0

/-- `boot.aq_cfg` (R438); `go` reads 0. -/
def aqCfgWord (u : Unit00) : Word :=
  flag 32 u.ready 31 ||| at' 32 u.bootError 27 ||| at' 32 u.aqSize 23 ||| at' 32 u.acqSize 19 ||| flag 32 u.bootIrqEn 18
    ||| at' 32 u.bootVector 0

/-- `spare.status` (R427). -/
def spareWord (u : Unit00) : Word :=
  flag 32 u.spareBusy 31 ||| at' 32 u.sparePhase 29 ||| flag 32 u.spareCarrying 20 ||| at' 32 (if u.spareCarrying then u.spareLogical else 0) 16
    ||| at' 32 u.spareCount 0

/-- `fault.status` (R429). -/
def faultWord (u : Unit00) : Word :=
  flag 32 u.faultValid 31 ||| at' 32 u.faultCause 16 ||| at' 32 u.faultUnit 8 ||| at' 32 u.faultCount 0

/-- `mon.status` (R450). -/
def monWord (m : Mon) : Word :=
  flag 32 m.isOpen 31 ||| flag 32 m.tapOpen 30 ||| flag 32 m.dbgEn 29 ||| at' 32 m.refused 8 ||| at' 32 m.baud 0

/-- `pm.lockstep` (02). -/
def lockstepWord (p : Pm) : Word :=
  at' 32 p.mcheckCount 16 ||| at' 32 p.lastOpcode 8 ||| at' 32 (if p.testing then 3#2 else p.alone) 0

/-- `pm.selftest` (R432). -/
def selftestWord (p : Pm) : Word := at' 32 p.interval 16 ||| at' 32 p.lastTest 8 ||| at' 32 p.tests 0

/-- `cs.map` (R356). -/
def csMapWord (c : Cs) : Word := flag 32 c.verified 8 ||| flag 32 c.mapped 7 ||| at' 32 c.page 0

/-- `cs.open_fault` (R359). -/
def openFaultWord (c : Cs) : Word :=
  flag 32 c.faultValid 31 ||| at' 32 c.faultReason 24 ||| at' 32 c.faultOpcode 16 ||| at' 32 c.faultWord 0

/-- `q.fault` (03). -/
def qFaultWord (q : Queues) : Word :=
  flag 32 q.faultValid 31 ||| at' 32 q.faultReason 24 ||| at' 32 q.faultCount 12 ||| at' 32 q.faultQueue 0

/-- The queue context of R72. -/
def ctxWord (q : Queue) : BitVec 256 :=
  at' 256 q.puntBase 210 ||| at' 256 q.tsQueue 196 ||| at' 256 q.slotSize 192 ||| at' 256 q.headWb 128
    ||| at' 256 q.modTime 120 ||| at' 256 q.modCount 112 ||| at' 256 q.maxOut 96 ||| at' 256 q.poll 88
    ||| flag 256 q.irqEn 87 ||| at' 256 q.vector 76 ||| at' 256 q.cq 64 ||| at' 256 q.size 60
    ||| at' 256 q.kind.code 57 ||| at' 256 q.base 0

/-- `q.idx` (R502). -/
def qIdxWord (q : Queue) : DWord :=
  at' 64 q.tail 47 ||| at' 64 q.head 30 ||| at' 64 q.gen 14 ||| flag 64 q.stopped 0

/-- An interrupt vector's last word (R97). -/
def vectorCtl (v : Vector97) : Word :=
  at' 32 v.rsv 3 ||| flag 32 v.pin 2 ||| flag 32 v.pending 1 ||| flag 32 v.mask 0

/-- `dma.ch.cfg` (R332). -/
def chCfgWord (c : Chan) : Word :=
  flag 32 c.irqEnd 31 ||| flag 32 c.irqHalt 30 ||| at' 32 c.vector 16 ||| at' 32 c.retries 0

/-- `dma.ch.status` (R333). -/
def chStatusWord (c : Chan) : Word :=
  at' 32 c.st.code 30 ||| flag 32 (c.st = .halted) 29 ||| at' 32 c.reason 25 ||| at' 32 c.prio 23 ||| flag 32 c.armed 22
    ||| flag 32 c.hoEnd 21 ||| flag 32 c.hoIdle 20 ||| flag 32 c.reread 19 ||| flag 32 c.endValid 18 ||| flag 32 c.half 17
    ||| flag 32 c.full 16 ||| flag 32 c.mismatch 15 ||| at' 32 c.credits 0

/-- `slice.fault` (R430). -/
def sliceFaultWord (p : SliceP) : Word :=
  flag 32 p.faultValid 31 ||| flag 32 p.faultHeld 30 ||| at' 32 p.faultKind 24 ||| at' 32 p.faultEntry 0

/-- `port.fc` (R157). -/
def fcWord (p : Port) : Word :=
  at' 32 p.quanta 16 ||| at' 32 p.refresh 4 ||| at' 32 p.txMode 2 ||| at' 32 p.rxMode 0

/-- `port.preempt` (R159). -/
def preemptWord (p : Port) : Word :=
  at' 32 p.map 24 ||| at' 32 p.verifyTime 16 ||| flag 32 p.verifyDisable 2 ||| at' 32 p.frag 0

/-- `port.preempt_status` (R160). -/
def preemptStatusWord (p : Port) : Word := at' 32 p.attempts 8 ||| at' 32 p.verify.code 0

/-- R115: PORTCFG has given the port a mode. -/
def Port.configured (p : Port) : Bool := p.mode != 0

/-- `port.paused` (R161). -/
def pausedWord (p : Port) : Word :=
  at' 32 p.asserted 24 ||| at' 32 (if p.configured then p.xoff else 0) 16 ||| at' 32 p.rxIgnored 8 ||| at' 32 p.rxPaused 0

/-- `guard.port.active` (R168): the received-pause watchdog of a priority holds while its received pause is ignored. -/
def activeWord (p : Port) : Word :=
  at' 32 p.dutyClipped 24 ||| at' 32 p.stormTx 16 ||| at' 32 p.rxIgnored 8

/-- `registry.snap_state` (R233). -/
def snapWord (r : Registry) : Word := at' 32 r.phase.code 29 ||| at' 32 r.pending 27 ||| at' 32 r.mark 0

/-- The key word of R206; its reserved bits, and bytes 20-31 of the entry, read 0 (R9). -/
def keyWord (e : PairEntry) : DWord :=
  at' 64 e.state 62 ||| flag 64 e.fixed 51 ||| flag 64 e.swept 50 ||| flag 64 e.lost 49 ||| flag 64 e.learned 48 ||| at' 64 e.key 0

/-- The 64 bytes of a pair-table entry (R206), as one value with byte 0 in bits [7:0]. -/
def pairImage (e : PairEntry) : BitVec 512 :=
  at' 512 (keyWord e) 0 ||| at' 512 e.lastSeen 64 ||| at' 512 e.curEpoch 128 ||| at' 512 e.prevEpoch 144
    ||| at' 512 e.cur.frames 256 ||| at' 512 e.cur.bytes 320 ||| at' 512 e.prev.frames 384 ||| at' 512 e.prev.bytes 448

/-- The entry whose 64 bytes are `x` (R206); reserved bits are ignored (R9). -/
def pairOfImage (x : BitVec 512) : PairEntry :=
  { state := fld x 62 2, fixed := bitOf x 51, swept := bitOf x 50,
    lost := bitOf x 49, learned := bitOf x 48, key := fld x 0 46, lastSeen := fld x 64 64, curEpoch := fld x 128 16,
    prevEpoch := fld x 144 16, cur := ⟨fld x 256 64, fld x 320 64⟩,
    prev := ⟨fld x 384 64, fld x 448 64⟩ }

/-- `time.status` (R270). -/
def timeStatusWord (t : Time) : Word :=
  at' 32 t.powerup 16 ||| at' 32 t.previous.code 6 ||| flag 32 t.lowPower 5 ||| at' 32 t.state.code 0

/-- `time.servo_cfg` (R273). -/
def servoCfgWord (t : Time) : Word :=
  at' 32 t.source 30 ||| flag 32 t.lpHold 29 ||| at' 32 t.lockN 24 ||| at' 32 t.lockNs 16 ||| at' 32 t.holdMs 0

/-- `time.pps` (R275). -/
def ppsWord (t : Time) : Word :=
  flag 32 t.outEn 31 ||| flag 32 t.inEn 30 ||| flag 32 t.todEn 29 ||| flag 32 t.todSet 28 ||| at' 32 t.outWidth 0

/-- `time.events` (R278). -/
def timeEventsWord (t : Time) : Word :=
  at' 32 t.tsMissed 16 ||| at' 32 t.tcSkipped 8 ||| at' 32 t.todBad 4 ||| at' 32 t.ppsBad 0

/-- `time.alarm_ctl` (R280). -/
def alarmWord (t : Time) : Word :=
  flag 32 t.armed1 31 ||| flag 32 t.armed0 30 ||| flag 32 t.fired1 29 ||| flag 32 t.fired0 28 ||| at' 32 t.alarmVector 0

/-- `time.casc` (R281). -/
def timeCascWord (t : Time) : Word :=
  at' 32 t.role 30 ||| at' 32 t.headId 27 ||| at' 32 t.headOffset 16 ||| at' 32 t.headDelay 0

/-- `guard.port.storm_rx` and `storm_tx` (R165). -/
def stormWord (hold detect : BitVec 16) : Word := at' 32 hold 16 ||| at' 32 detect 0

/-- `macsec.port.cfg` (R306). -/
def secCfgWord (p : SecPort) : Word := flag 32 p.txEn 31 ||| at' 32 p.txAn 29 ||| flag 32 p.acceptClear 0

/-- `power.cap` words (R393, R394, R395, R396). -/
def shedWord (p : Power) : Word := at' 32 p.m 24 ||| at' 32 p.pmRate 20
/-- `power.hint` (R396): H in units of 10 mW. -/
def hintWord (p : Power) : Word :=
  at' 32 (satAdd (0#16) (p.reserve / 10)) 16 ||| at' 32 (BitVec.ofNat 4 p.hints.length) 0

/-- `casc.status` (R433). -/
def cascWord (c : Casc) : Word :=
  at' 32 c.present 24 ||| at' 32 c.eligible 16 ||| at' 32 c.head 13 ||| at' 32 c.self 10 ||| flag 32 c.yielded 9
    ||| at' 32 c.successions 0

/-- `twin.status` (R434). -/
def twinWord (c : Casc) (last : BitVec 16) : Word := at' 32 c.twin.code 29 ||| at' 32 c.partner 26 ||| at' 32 last 0

/-- `casc.link` (R480). -/
def linkWord (c : Casc) : Word :=
  flag 32 c.a.up 31 ||| flag 32 c.b.up 30 ||| at' 32 c.a.resends 8 ||| at' 32 c.b.resends 0

/-! ### The micro-engine's flags (R340) -/

/-- Z, N and C. -/
structure ZNC where
  z : Bool := false
  n : Bool := false
  c : Bool := false
  deriving DecidableEq, Repr

/-- Z and N of a result, C unchanged. -/
def ZNC.ofResult (f : ZNC) (x : DWord) : ZNC := { f with z := x = 0, n := bitOf x 63 }

/-- The flags of ADD: C is the carry out. -/
def ZNC.ofAdd (x y : DWord) : ZNC := { z := x + y = 0, n := bitOf (x + y) 63, c := decide (2 ^ 64 ≤ x.toNat + y.toNat) }

/-- The flags of SUB: C is the borrow. -/
def ZNC.ofSub (x y : DWord) : ZNC := { z := x - y = 0, n := bitOf (x - y) 63, c := decide (x.toNat < y.toNat) }

/-- The conditions of R339; none for a reserved code. -/
def condHolds (code : BitVec 4) (f : ZNC) : Option Bool :=
  match code.toNat with
  | 0 => some false | 1 => some true | 2 => some f.z | 3 => some (!f.z) | 4 => some f.n | 5 => some (!f.n) | 6 => some f.c
  | 7 => some (!f.c) | _ => none

end Machine
end Sys2Proof
end

