-- ==== Sys2Proof/Machine/Ops.lean ====
section
/-! DEFINITION. The named operations over the state: reading and replacing each unit, domains, outputs, master requests,
interrupt vectors, rings, records, counters and time. Every read and write of a store goes through these. -/

namespace Sys2Proof
namespace Machine

/-! ### One accessor and one replacement per store -/

def State.port (s : State) (p : Nat) : Port := Tab.get {} s.ports p
def State.setPort (s : State) (p : Nat) (v : Port) : State := { s with ports := Tab.put {} s.ports p v }
def State.lane (s : State) (l : Nat) : Lane := Tab.get {} s.lanes l
def State.setLane (s : State) (l : Nat) (v : Lane) : State := { s with lanes := Tab.put {} s.lanes l v }
/-- The queue, none where it does not exist (R71). -/
def State.queue (s : State) (q : Nat) : Option Queue := Tab.get none s.qs.tab q
/-- The placement generation of a queue, or one that was noted where the queue is gone. -/
def State.genOf (s : State) (q : Nat) (noted : BitVec 16) : BitVec 16 := match s.queue q with | some x => x.gen | none => noted
def State.setQueueOpt (s : State) (q : Nat) (v : Option Queue) : State :=
  { s with qs := { s.qs with tab := Tab.put none s.qs.tab q v } }
def State.setQueue (s : State) (q : Nat) (v : Queue) : State := s.setQueueOpt q (some v)
def State.doorbell (s : State) (q : Nat) : RIdx := Tab.get 0 s.qs.doorbells q
def State.setDoorbell (s : State) (q : Nat) (v : RIdx) : State :=
  { s with qs := { s.qs with doorbells := Tab.put 0 s.qs.doorbells q v } }
def State.vector (s : State) (v : Nat) : Vector97 := Tab.get {} s.qs.vectors v
def State.setVector (s : State) (v : Nat) (x : Vector97) : State :=
  { s with qs := { s.qs with vectors := Tab.put {} s.qs.vectors v x } }
def State.chan (s : State) (c : Nat) : Chan := Tab.get {} s.dma.chans c
def State.setChan (s : State) (c : Nat) (v : Chan) : State := { s with dma := { s.dma with chans := Tab.put {} s.dma.chans c v } }
def State.sliceL (s : State) (k : Nat) : SliceL := Tab.get {} s.sorter.logical k
def State.setSliceL (s : State) (k : Nat) (v : SliceL) : State :=
  { s with sorter := { s.sorter with logical := Tab.put {} s.sorter.logical k v } }
def State.sliceP (s : State) (n : Nat) : SliceP := Tab.get {} s.sorter.physical n
def State.setSliceP (s : State) (n : Nat) (v : SliceP) : State :=
  { s with sorter := { s.sorter with physical := Tab.put {} s.sorter.physical n v } }
def State.secPort (s : State) (p : Nat) : SecPort := Tab.get {} s.sec.ports p
def State.setSecPort (s : State) (p : Nat) (v : SecPort) : State := { s with sec := { s.sec with ports := Tab.put {} s.sec.ports p v } }
def State.keySlot (s : State) (n : Nat) : KeySlot := Tab.get {} s.sec.slots n
def State.setKeySlot (s : State) (n : Nat) (v : KeySlot) : State := { s with sec := { s.sec with slots := Tab.put {} s.sec.slots n v } }
def State.guardPort (s : State) (p : Nat) : GuardPort := Tab.get {} s.guards.ports p
def State.setGuardPort (s : State) (p : Nat) (v : GuardPort) : State :=
  { s with guards := { s.guards with ports := Tab.put {} s.guards.ports p v } }
def State.dom (s : State) (d : Nat) : Domain := Tab.get {} s.power.doms d
def State.setDom (s : State) (d : Nat) (v : Domain) : State := { s with power := { s.power with doms := Tab.put {} s.power.doms d v } }
def State.votes (s : State) (c : Nat) : BitVec 25 := Tab.get 0 s.power.votes c
def State.setVotes (s : State) (c : Nat) (v : BitVec 25) : State :=
  { s with power := { s.power with votes := Tab.put 0 s.power.votes c v } }
def State.emit (s : State) (o : Out) : State := { s with out := s.out ++ [o] }
def State.setJournal (s : State) (j : List JEntry) : State := { s with pm := { s.pm with journal := j } }
def State.setInj (s : State) (l : List Inj) : State := { s with qs := { s.qs with inj := l } }

/-- A new identifier. -/
def State.takeId (s : State) : Nat × State := (s.nextId, { s with nextId := s.nextId + 1 })

/-- A free value of `w` bits (log entry 2). -/
def State.takeFree (w : Nat) (s : State) : BitVec w × State :=
  ((Config.freeValue s.fresh).setWidth w, { s with fresh := s.fresh + 1 })

/-! ### Domains (R361, R362, R376) -/

def dHOST : Nat := 1
def dPMA : Nat := 2
def dPMB : Nat := 3
def dDMA : Nat := 4
def dSORTC : Nat := 5
def dREG : Nat := 6
def dTIME : Nat := 7
/-- The domain of physical slice n. -/
def dSLICE (n : Nat) : Nat := 8 + n

/-- R361, R397: AON is always on; another domain runs only in state on (restoring and entering count as asleep, R362). -/
def State.isOn (s : State) (d : Nat) : Bool := d == 0 || (s.dom d).st == .on

/-- R376: region 0x01 sleeps only when both Postmaster domains do. -/
def State.pmOn (s : State) : Bool := s.isOn dPMA || s.isOn dPMB

/-- R490: the physical slice that carries logical slice k. -/
def State.carrier (s : State) (k : Nat) : Nat :=
  if s.top.spareCarrying && s.top.spareLogical.toNat == k then 16 else k

/-- R491: the logical slice that physical slice n carries. -/
def State.carried (s : State) (n : Nat) : Option Nat :=
  if n == 16 then (if s.top.spareCarrying then some s.top.spareLogical.toNat else none)
  else if s.top.spareCarrying && s.top.spareLogical.toNat == n then none
  else if n < 16 then some n else none

/-- The SLICE domain of logical slice k's carrier is on. -/
def State.sliceOn (s : State) (k : Nat) : Bool := s.isOn (dSLICE (s.carrier k))

/-- R361: the domains that domain d requires. -/
def requires (d : Nat) : List Nat :=
  if d == dPMA || d == dPMB || d == dDMA || d == dSORTC || d == dREG then [dHOST]
  else if 8 ≤ d && d ≤ 24 then [dHOST, dSORTC, dREG] else []

/-- R425, R29: the pipeline bus is quiesced: in QUARANTINE, and in MAINTENANCE after an unrecoverable fault event. -/
def State.quiesced (s : State) : Bool := s.top.mode == .quarantine || (s.top.mode == .maintenance && s.top.faultHold)

/-- R464: PB_RST is high. -/
def State.pbReset (s : State) : Bool := s.top.pbRst || s.top.resetting != .none

/-! ### Ports (R103, 02 PORTCFG) -/

/-- Lanes of a port-mode code; none for a code that is not listed. -/
def modeWidth (m : Byte) : Option Nat :=
  match m.toNat with
  | 1 => some 1 | 2 => some 2 | 3 => some 1 | 4 => some 4 | 5 => some 2 | 6 => some 8 | 7 => some 4 | 8 => some 8
  | 9 => some 1 | 10 => some 2 | 11 => some 4 | 12 => some 8 | _ => none

/-- Rate class of a port-mode code (R103, R135): 0 none, 1 L100, 2 L200, 3 L400. -/
def modeClass (m : Byte) : BitVec 2 :=
  match m.toNat with
  | 1 => 1 | 2 => 1 | 4 => 1 | 6 => 1 | 3 => 2 | 5 => 2 | 7 => 2 | 8 => 2 | 9 => 3 | 10 => 3 | 11 => 3 | 12 => 3 | _ => 0

/-- Payload rate in Gb/s (R103). -/
def modeRate (m : Byte) : Nat :=
  match m.toNat with
  | 1 => 100 | 2 => 200 | 3 => 200 | 4 => 400 | 5 => 400 | 6 => 800 | 7 => 800 | 8 => 1600 | 9 => 400 | 10 => 800
  | 11 => 1600 | 12 => 3200 | _ => 0

/-- R106: an Ennos lane mode. -/
def ennosMode (m : Byte) : Bool := decide (9 ≤ m.toNat ∧ m.toNat ≤ 12)

/-- R103: the lanes of a port's mode. -/
def Port.width (p : Port) : Nat := (modeWidth p.mode).getD 0

/-- The port that uses lane l, if any (R103). -/
def State.portOfLane (s : State) (l : Nat) : Option Nat :=
  (List.range 64).find? fun p => decide (p ≤ l) && decide (l < p + (s.port p).width)

/-- The logical slices that carry port p (R16, R103). -/
def State.slicesOfPort (s : State) (p : Nat) : List Nat :=
  if (s.port p).width == 8 then [p / 4, p / 4 + 1] else [p / 4]

/-- R406: a physical slice that carries a slice of the port holds its ports in DOWN. -/
def State.portHeld (s : State) (p : Nat) : Bool := (s.slicesOfPort p).any fun k => (s.sliceP (s.carrier k)).faultHeld

/-- R118: cells of a frame of L bytes. -/
def cellsOf (len : Nat) : Nat := (len + 255) / 256

/-! ### Time (R245, R249, R62) -/

/-- The timebase in units of 2^-16 ns since second 0. -/
def State.now16 (s : State) : Nat := s.time.seconds.toNat * 65536000000000 + s.time.sub / 16384

/-- The nanoseconds of the timebase. -/
def State.nowNs (s : State) : Nat := s.time.sub / 1073741824

/-- R249: a timestamp of this moment; UNSET with zero time while TIME is not on. -/
def State.stampNow (s : State) : Stamp :=
  if s.isOn dTIME then ⟨s.time.seconds, s.time.sub / 16384, s.time.state, s.time.powerup⟩
  else ⟨0, 0, .unset, s.time.powerup⟩

/-- R62: an instant from seconds and nanoseconds. -/
def instantWord (seconds ns : Nat) : DWord := (BitVec.ofNat 64 (seconds % 2 ^ 34) <<< 30) ||| BitVec.ofNat 64 (ns % 2 ^ 30)

/-- This moment in the encoding of R62; zero while TIME is not on (R249). -/
def State.nowInstant (s : State) : DWord :=
  if s.isOn dTIME then instantWord s.time.seconds.toNat s.nowNs else 0

/-- R62: the moment an instant names, units of 2^-16 ns since second 0, with the higher seconds bits of the current time. -/
def State.instant16 (s : State) (b : DWord) : Nat :=
  let sec := (s.time.seconds.toNat / 2 ^ 34) * 2 ^ 34 + (fld b 30 34).toNat
  sec * 65536000000000 + (fld b 0 30).toNat * 65536

/-- The encoding of a moment given in units of 2^-16 ns. -/
def instantOf16 (t : Nat) : DWord := instantWord (t / 65536000000000) (t % 65536000000000 / 65536)

/-- The bytes of a timestamp in a record: seconds, nanoseconds, fraction, time state, power-up count (R155, R256, R301). -/
def stampBytes (t : Stamp) : List Byte :=
  leBytes 6 t.seconds.toNat ++ leBytes 4 (t.sub / 65536) ++ leBytes 2 (t.sub % 65536)
    ++ [t.state.code.setWidth 8] ++ leBytes 2 t.powerup.toNat

/-- `us` microseconds have passed since the period `since` of the block's clock (log entry 108). -/
def State.usPassed (s : State) (us since : Nat) : Bool := decide (since + 800 * us ≤ s.clock)

/-- `ms` milliseconds have passed since the period `since` of the block's clock, in periods of 1.25 ns (log entry 108). -/
def State.msPassed (s : State) (ms since : Nat) : Bool := decide (since + 800000 * ms ≤ s.clock)

/-! ### Master requests (R469, R320) -/

/-- The largest power of two, at most 64, that divides `a` and does not exceed `n`. -/
def accessSize (a n : Nat) : Nat :=
  if a % 64 == 0 && 64 ≤ n then 64 else if a % 32 == 0 && 32 ≤ n then 32 else if a % 16 == 0 && 16 ≤ n then 16
  else if a % 8 == 0 && 8 ≤ n then 8 else if a % 4 == 0 && 4 ≤ n then 4 else if a % 2 == 0 && 2 ≤ n then 2 else 1

/-- R320: the accesses of a range, as addresses and sizes; `fuel` bounds their number. -/
def splitRange : Nat → Nat → Nat → List (Nat × Nat)
  | 0, _, _ => []
  | _ + 1, _, 0 => []
  | fuel + 1, a, n + 1 => let k := accessSize a (n + 1); (a, k) :: splitRange fuel (a + k) (n + 1 - k)

/-- The lowest tag not in use; none when all 1,024 are. -/
def freeTag (reqs : List Req) : Option (BitVec 10) :=
  if Config.masterTags ≤ reqs.length then none
  else ((List.range (reqs.length + 1)).find? fun n => !reqs.any fun r => r.tag.toNat == n).map (BitVec.ofNat 10)

/-- A request crosses the fabric port, or waits for a tag behind those that wait. -/
def State.sendReq (s : State) (r : Req) : State :=
  match if s.dma.backlog.isEmpty then freeTag s.dma.reqs else none with
  | none => { s with dma := { s.dma with backlog := s.dma.backlog ++ [r] } }
  | some t =>
    let r' := { r with tag := t }
    let s' := { s with dma := { s.dma with reqs := s.dma.reqs ++ [r'] } }
    s'.emit (if r.isWrite then .write t r.addr r.data r.relaxed else .read t r.addr r.len)

/-- R407: the internal channel that does the work of channel `w`: itself, or the next in the cycle that is in use. -/
def State.workerOf (s : State) (w : Nat) : Nat :=
  match ([0, 1, 2, 3].map fun k => 28 + (w + k) % 4).find? fun c => !(s.chan c).failed with
  | some c => c
  | none => w

/-- R312, R321, R324: the internal channel that has the work of channel `w` runs a program of Ennos, at the level of that work. The manual
gives the program no addresses (log entry 127). -/
def State.internalRuns (s : State) (w : Nat) : State :=
  let c := s.workerOf w
  if (s.chan c).failed || (s.chan c).st == .running then s
  else
    let (pc, s) := s.takeFree 57
    let (src, s) := s.takeFree 57
    let (dst, s) := s.takeFree 57
    s.setChan c { s.chan c with st := .running, reason := 0, prio := if w = 31 then 0 else 2, pc := pc, src := src, dst := dst }

/-- R324: an internal channel with no access left has come to its program's END. -/
def State.internalEnds (s : State) : State :=
  [28, 29, 30, 31].foldl (fun s c =>
    let mine (r : Req) : Bool := match r.chan with | some w => decide (28 ≤ w) && s.workerOf w == c | none => false
    if (s.chan c).st == .running && !s.dma.reqs.any mine && !s.dma.backlog.any mine then
      s.setChan c { s.chan c with st := .idle, reason := 1, endValid := true, endAt := (s.chan c).pc }
    else s) s

/-- The attempts after the first of an access on the queue path, or of a channel's kind of work (R323). -/
def State.attempts (s : State) (chan : Option Nat) : Nat :=
  match chan with | some w => (s.chan w).retries.toNat | none => s.dma.qretries.toNat

/-- The internal channel of a kind of work, if one has it, runs. -/
def State.worksOn (s : State) (chan : Option Nat) : State := match chan with | some w => s.internalRuns w | none => s

/-- A write of the queue path, or of an internal channel, as the funnel splits it. -/
def State.queueWrite (s : State) (addr : HostAddr) (data : List Byte) (relaxed : Bool) (o : Owner) (chan : Option Nat := none) : State :=
  (splitRange data.length addr.toNat data.length).foldl (fun s an =>
    s.sendReq { isWrite := true, addr := BitVec.ofNat 57 an.1, len := an.2, data := slice data (an.1 - addr.toNat) an.2,
                relaxed := relaxed, owner := o, tries := s.attempts chan, chan := chan }) (s.worksOn chan)

/-- A read of the queue path. -/
def State.queueRead (s : State) (addr : HostAddr) (len : Nat) (o : Owner) : State :=
  s.sendReq { addr := addr, len := len, owner := o, tries := s.dma.qretries.toNat }

/-- The reads of `n` bytes from `base` for a routine, as the funnel splits them: on the queue path, or by the internal channel that has
that work (R312). -/
def State.routineRead (s : State) (jid : Nat) (base : HostAddr) (n : Nat) (chan : Option Nat := none) : State :=
  (splitRange n base.toNat n).foldl (fun s an =>
    s.sendReq { addr := BitVec.ofNat 57 an.1, len := an.2, owner := .routine jid (an.1 - base.toNat), tries := s.attempts chan,
                chan := chan }) (s.worksOn chan)

/-- A request that channel c's instruction waits for. -/
def Req.ofXfer (c : Nat) (r : Req) : Bool :=
  match r.owner with | .chanRead d _ => d == c | .chanWrite d _ => d == c | _ => false

/-- Any request of channel c. -/
def Req.ofChan (c : Nat) (r : Req) : Bool :=
  r.ofXfer c || (match r.owner with | .chanLine d => d == c | .chanReread d => d == c | _ => false)

/-- The channel takes no further interest in its requests: those on their way are answered to nobody, the others are not
made. -/
def State.orphan (s : State) (c : Nat) : State :=
  { s with dma := { s.dma with reqs := s.dma.reqs.map fun r => if r.ofChan c then { r with owner := .none } else r
                               backlog := s.dma.backlog.filter fun r => !r.ofChan c } }

/-- Maps a `Nat` to the queue number type. -/
def qid (n : Nat) : QId := BitVec.ofNat 12 n

/-! ### Cascade flits (R477, R478) -/

/-- The state of a link. -/
def State.link (s : State) (l : Link) : LinkSt := match l with | .a => s.casc.a | .b => s.casc.b
def State.setLinkSt (s : State) (l : Link) (x : LinkSt) : State :=
  match l with
  | .a => { s with casc := { s.casc with a := x } }
  | .b => { s with casc := { s.casc with b := x } }

/-- The link on which the neighbour that a link feeds answers (R476). -/
def otherLink : Link → Link
  | .a => .b
  | .b => .a

/-- The last 256 flits of a list. -/
def lastFlits (l : List Flit) : List Flit := l.drop (l.length - 256)

/-- A flit is sent on a link, with the next sequence number, and kept until it is acknowledged. -/
def State.sendOn (s : State) (l : Link) (p : Payload) (source : BitVec 3) (dest : Byte) : State :=
  let x := s.link l
  let f : Flit := { payload := p, source := source, dest := dest, seq := x.seq + 1, ack := (s.link (otherLink l)).lastRecv }
  (s.setLinkSt l { x with seq := x.seq + 1, unacked := lastFlits (x.unacked ++ [f]) }).emit (.flit l f)

/-- A message of this member to others: on link A while it is up, otherwise on link B (log entry 41). -/
def State.sendFlit (s : State) (p : Payload) (dest : Byte) : State :=
  if dest = 0 then s else s.sendOn (if s.casc.a.up || !s.casc.b.up then .a else .b) p s.casc.self dest

/-- The bit of a member. -/
def memberBit (m : BitVec 3) : Byte := 1#8 <<< m.toNat

/-- Changes are sent to the partner: while the two are bound (R420), and from the first part of TWINBIND on, so that none is
lost between the copy and the switch (R419). -/
def State.mirrors (s : State) : Bool :=
  s.casc.twin == .binding || s.casc.twin == .bound || s.casc.twin == .serving || s.casc.twin == .adopted

/-- A link of the ring is up. -/
def State.ringUp (s : State) : Bool := s.casc.a.up || s.casc.b.up

/-- R41, R420: what is mirrored synchronously can reach the partner, where there is one. -/
def State.twinReach (s : State) : Bool := !s.mirrors || s.ringUp

/-- A message to the partner while this instance mirrors (R420). -/
def State.toTwin (s : State) (p : Payload) : State :=
  if s.mirrors then s.sendFlit p (memberBit s.casc.partner) else s

/-- R420: a queue's context and positions are mirrored. -/
def State.mirrorQueue (s : State) (q : Nat) : State :=
  s.toTwin (.context (qid q) ((s.queue q).map fun x => (ctxWord x, qIdxWord x, x.recSeq, x.skip)))

/-- R420: a journal entry is mirrored with its progress. -/
def State.mirrorEntry (s : State) (e : JEntry) (gone : Bool) : State :=
  if e.queue = 0xFFFF then s
  else s.toTwin (.journal (e.queue.setWidth 12) e.idx e.gen e.op e.ins e.st.code e.step (e.slot.map fun d => (d.status.code, d.a, d.b)) gone)

/-- R420: an INJECT word is mirrored. -/
def State.mirrorInj (s : State) (e : Inj) (gone : Bool) : State :=
  s.toTwin (.injWord e.queue e.idx e.gen e.cookie e.started e.sent e.lenMinus1 gone)

/-! ### Interrupt vectors (R97, R98) -/

/-- Sends a vector's message. -/
def State.sendMessage (s : State) (v : Nat) : State :=
  let x := s.vector v
  if !s.isOn dHOST then s.setVector v { x with waitsHost := true, due := true }
  else (s.setVector v { x with sent := true, due := false, waitsHost := false }).queueWrite (x.addr.setWidth 57) (leBytes 4 x.data.toNat) false
    (.irq (BitVec.ofNat 11 v))

/-- R98: the entries of every queue are counted since its vector last fired. -/
def State.signalled (s : State) (v : Nat) : State :=
  { s with qs := { s.qs with tab := s.qs.tab.map fun kv => (kv.1, kv.2.map fun x =>
    if x.vector.toNat = v then { x with unsignalled := 0 } else x) } }

/-- R98: a vector fires: pending is set, and an unmasked vector that is not routed to the pin sends its message. The
master channels belong to HOST (R468); a message that becomes due while HOST is asleep waits for it (log entry 55). -/
def State.fireVector (s : State) (v : Nat) : State :=
  let x := s.vector v
  let x := { x with pending := true, due := x.due || (x.mask && !x.pin) }
  let s' := (s.setVector v x).signalled v
  if x.pin || x.mask then s' else s'.sendMessage v

/-- HOST is on again: the messages that waited for it. -/
def State.sendWaiting (s : State) : State :=
  (s.qs.vectors.filter fun kv => kv.2.waitsHost).foldl (fun s kv =>
    if kv.2.due && !kv.2.mask && !kv.2.pin then s.sendMessage kv.1 else s.setVector kv.1 { kv.2 with waitsHost := false }) s

/-- R99: the level interrupt pin is active. -/
def State.intPin (s : State) : Bool := s.qs.vectors.any fun kv => kv.2.pin && kv.2.pending

/-! ### Background activity (R57) -/

/-- A background activity that a queue's instruction has started. -/
def State.beginBackground (s : State) (queue : BitVec 16) (kind : BitVec 2) (unit : Nat) : State :=
  { s with pm := { s.pm with background := s.pm.background ++ [(queue, kind, unit)] } }

/-- The activity of a unit has ended, whichever queue started it. -/
def State.endBackground (s : State) (kind : BitVec 2) (unit : Nat) : State :=
  { s with pm := { s.pm with background := s.pm.background.filter fun b => !(b.2.1 == kind && b.2.2 == unit) } }

/-! ### Rings (R76, R77, R85) -/

/-- Entries of a ring: 16 × 2^size. -/
def Queue.n (q : Queue) : Nat := 16 * 2 ^ q.size.toNat

/-- Bytes of an entry (R70). -/
def Queue.entrySize (q : Queue) : Nat := if q.kind = .completion then 32 else 64

/-- The ring slot of an index. -/
def Queue.slotOf (q : Queue) (i : RIdx) : Nat := i.toNat % q.n

/-- The index after `k` more entries, modulo 2N. -/
def Queue.advance (q : Queue) (i : RIdx) (k : Nat) : RIdx := BitVec.ofNat 17 ((i.toNat + k) % (2 * q.n))

/-- `a − b` modulo 2N. -/
def Queue.dist (q : Queue) (a b : RIdx) : Nat := (a.toNat + 2 * q.n - b.toNat) % (2 * q.n)

/-- R77: the phase of the lap an index belongs to. -/
def Queue.phase (q : Queue) (i : RIdx) : Bool := (i.toNat / q.n) % 2 == 0

/-- A submission queue (R93). -/
def Queue.submits (q : Queue) : Bool := q.kind = .admin || q.kind = .cmd || q.kind = .inject

/-- The host address of the entry at an index. -/
def Queue.entryAddr (q : Queue) (i : RIdx) : HostAddr := q.base + BitVec.ofNat 57 (q.slotOf i * q.entrySize)

/-- Free entries of a ring that Ennos writes, less the reserved and held ones (R90, R92). -/
def Queue.room (q : Queue) : Nat := q.n - q.dist q.tail q.head - q.reserved - q.heldWrites.length

/-- `q.fault` records a reason (03). -/
def State.queueFault (s : State) (reason : BitVec 4) (q : BitVec 12) : State :=
  { s with qs := { s.qs with faultValid := true, faultReason := reason, faultCount := satInc s.qs.faultCount, faultQueue := q } }

/-- The phase byte: bit 7 the phase, bits 6-0 zero. -/
def phaseByte (b : Bool) : Byte := if b then 0x80 else 0x00

/-- R98: an entry has been written; the vector fires when the count or the I flag demands it. -/
def State.moderate (s : State) (q : Nat) (fire : Bool) : State :=
  match s.queue q with
  | none => s
  | some x =>
    let n := x.unsignalled + 1
    if x.irqEn && (decide (x.modCount.toNat ≤ n) || fire) then
      s.fireVector x.vector.toNat
    else s.setQueue q { x with unsignalled := n, firstAt := if x.unsignalled = 0 then s.clock else x.firstAt }

/-- R85: an entry of a ring Ennos writes begins: every byte but the last. The last, which carries the phase, follows once those
have been written (log entry 54). -/
def State.writeEntry (s : State) (q : Nat) (e : RingEntry) : State :=
  match s.queue q with
  | none => s
  | some x =>
    let i := x.tail
    let s := s.setQueue q { x with tail := x.advance i 1, inflight := x.inflight ++ [(i, e)] }
    (s.queueWrite (x.entryAddr i) e.body false (.ring (BitVec.ofNat 12 q) i false) e.chan).mirrorQueue q

/-- The entries being written, with one of them changed. -/
def Queue.updWritten (x : Queue) (i : RIdx) (f : RingEntry → RingEntry) : Queue :=
  { x with inflight := updFirst (fun kv => kv.1 == i) (fun kv => (kv.1, f kv.2)) x.inflight }

/-- The internal channel that writes the entry at an index. -/
def Queue.writerOf (x : Queue) (i : RIdx) : Option Nat := (x.inflight.find? fun kv => kv.1 == i).bind fun kv => kv.2.chan

/-- The byte with the phase of the entry at an index is written; then moderation. -/
def State.publishEntry (s : State) (q : Nat) (i : RIdx) (fire : Bool) : State :=
  match s.queue q with
  | none => s
  | some x =>
    ((s.setQueue q (x.updWritten i fun e => { e with phased := true })).queueWrite
      (x.entryAddr i + BitVec.ofNat 57 (x.entrySize - 1)) [phaseByte (x.phase i)] false
      (.ring (BitVec.ofNat 12 q) i true) (x.writerOf i)).moderate q fire

/-- A request of a ring write: of the entry's body, or of its last byte. -/
def Req.ringPart (q : BitVec 12) (i : RIdx) (phase : Bool) (r : Req) : Bool :=
  match r.owner with | .ring q' i' p => q' == q && i' == i && p == phase | _ => false

/-- A write of that part of the entry has not been answered. -/
def State.ringOwed (s : State) (q : BitVec 12) (i : RIdx) (phase : Bool) : Bool :=
  s.dma.reqs.any (Req.ringPart q i phase) || s.dma.backlog.any (Req.ringPart q i phase)

/-- R85, R92, R94: the entries whose other bytes are written get their phase, in order. -/
def State.publishReady (q : BitVec 12) : List (RIdx × RingEntry) → State → State
  | [], s => s
  | (i, e) :: t, s =>
    if s.ringOwed q i false then s
    else State.publishReady q t (if e.phased then s else s.publishEntry q.toNat i e.fire)

/-- A stopped ring holds the entry (R503); a running one writes it. -/
def State.putEntry (s : State) (q : Nat) (e : RingEntry) : State :=
  match s.queue q with
  | none => s
  | some x => if x.stopped then s.setQueue q { x with heldWrites := x.heldWrites ++ [e] } else s.writeEntry q e

/-! ### Records (R91, R92) -/

/-- The queue is a RECORD queue. -/
def State.isRecordQueue (s : State) (q : Nat) : Bool :=
  match s.queue q with | some x => x.kind = .record | none => false

/-- A RECORD queue with an entry that can be reserved now. -/
def State.recordRoom (s : State) (q : Nat) : Bool :=
  match s.queue q with | some x => x.kind = .record && decide (0 < x.room) | none => false

/-- Reserves one entry (R88, R92, R257). -/
def State.reserveRecord (s : State) (q : Nat) : State :=
  match s.queue q with | some x => s.setQueue q { x with reserved := x.reserved + 1 } | none => s

/-- Generates a record into a reserved entry: type, source, rec_seq, generation and body (R91). -/
def State.genReserved (s : State) (q : Nat) (type : Nat) (who : BitVec 3) (gen : BitVec 16) (body : List Byte)
    (chan : Option Nat := none) : State :=
  match s.queue q with
  | none => s
  | some x =>
    let s := s.setQueue q { x with reserved := x.reserved - 1, recSeq := x.recSeq + 1 }
    s.putEntry q { chan := chan, body := leBytes 2 type ++ [who.setWidth 8, 0] ++ leBytes 8 x.recSeq.toNat ++ leBytes 2 gen.toNat
                             ++ slice body 0 49 }

/-- Reserves and generates at once. -/
def State.genRecord (s : State) (q : Nat) (type : Nat) (gen : BitVec 16) (body : List Byte) (chan : Option Nat := none) : State :=
  (s.reserveRecord q).genReserved q type s.casc.self gen body chan

/-! ### Completions (R93 to R96) -/

/-- The 31 bytes of a completion entry before its phase byte. -/
def complBytes (c : Compl) : List Byte :=
  leBytes 8 c.cookie.toNat ++ leBytes 2 c.queue.toNat ++ leBytes 2 c.slot.toNat ++ [c.status.code, c.flags]
    ++ leBytes 2 c.gen.toNat ++ leBytes 8 c.a.toNat ++ leBytes 7 c.b.toNat

/-- R95: accepted work of a submission queue whose final completion has not been written. -/
def State.outstanding (s : State) (q : Nat) : Nat :=
  (s.pm.journal.filter fun e => e.queue.toNat == q).length + (s.qs.inj.filter fun e => e.queue.toNat == q).length

/-- `q.pigeon` (03): the sum of max_out over all queues, at least the 64 of queue 0 (R71). -/
def State.reservedTotal (s : State) : Nat :=
  ((s.qs.tab.map fun kq => match kq.2 with | some x => if kq.1 == 0 then 0 else x.maxOut.toNat | none => 0).sum) + 64

/-- Bindings of completions held for a ring (R96). -/
def State.heldFor (s : State) (cq : QId) : Bool := s.qs.held.any fun h => h.1 == cq

/-! ### Counters (R225 to R230, R302) -/

/-- R226: a crossing of a port's block. -/
def State.crossed (s : State) (p : Nat) : State :=
  let s := { s with stats := { s.stats with cross := setBit s.stats.cross p true } }
  if s.stats.vecEnable then s.fireVector s.stats.vector.toNat else s

/-- R226: a crossing of a slice's block. -/
def State.crossedSlice (s : State) (k : Nat) : State :=
  let s := { s with stats := { s.stats with crossSlice := setBit s.stats.crossSlice k true } }
  if s.stats.vecEnable then s.fireVector s.stats.vector.toNat else s

/-- R230: the compatibility counter that counts with a native word. -/
def compatOf (w : Nat) : Option Nat :=
  if w ≤ 4 then some w
  else if w == 0x080 || w == 0x081 then some 0x05
  else if w == 0x025 then some 0x06 else if w == 0x020 then some 0x07
  else if w == 0x026 || w == 0x021 then some 0x08 else if w == 0x024 || w == 0x023 then some 0x09
  else if w == 0x022 || w == 0x027 || w == 0x028 || w == 0x029 then some 0x0A
  else if 0x010 ≤ w && w ≤ 0x015 then some (w - 0x010 + 0x0B) else if 0x016 ≤ w && w ≤ 0x01A then some 0x11
  else if w == 0x040 then some 0x12 else if w == 0x041 then some 0x13
  else if w == 0x082 || w == 0x083 then some 0x14 else if 0x060 ≤ w && w ≤ 0x068 then some 0x15
  else if w == 0x0C0 then some 0x16 else if w == 0x0C1 then some 0x17 else none

def State.native (s : State) (p w : Nat) : BitVec 48 := Tab.get 0 s.stats.native (256 * p + w)
def State.compat (s : State) (p n : Nat) : Word := Tab.get 0 s.stats.compat (24 * p + n)
def State.sliceCount (s : State) (k w : Nat) : BitVec 48 := Tab.get 0 s.stats.slice (16 * k + w)
def State.secCount (s : State) (p w : Nat) : BitVec 48 := Tab.get 0 s.stats.macsec (32 * p + w)

/-- R229: a compatibility counter counts, saturating. -/
def State.countCompat (s : State) (p n k : Nat) : State :=
  { s with stats := { s.stats with compat := Tab.put 0 s.stats.compat (24 * p + n) (satAdd (s.compat p n) k) } }

/-- R225, R226: native word `w` of port `p` rises by `k`; the compatibility counter that follows it counts too. -/
def State.count (s : State) (p w k : Nat) : State :=
  let old := s.native p w
  let new := old + BitVec.ofNat 48 k
  let s := { s with stats := { s.stats with native := Tab.put 0 s.stats.native (256 * p + w) new } }
  let s := match compatOf w with | some n => s.countCompat p n k | none => s
  if bitOf old 47 != bitOf new 47 then s.crossed p else s

/-- One event of port `p`. -/
def State.event (s : State) (p w : Nat) : State := s.count p w 1

/-- R227: an event of logical slice `k`. -/
def State.eventSlice (s : State) (k w : Nat) : State :=
  let old := s.sliceCount k w
  let s := { s with stats := { s.stats with slice := Tab.put 0 s.stats.slice (16 * k + w) (old + 1) } }
  if bitOf old 47 != bitOf (old + 1) 47 then s.crossedSlice k else s

/-- R302: a MACsec counter. -/
def State.countSec (s : State) (p w k : Nat) : State :=
  let old := s.secCount p w
  let new := old + BitVec.ofNat 48 k
  let s := { s with stats := { s.stats with macsec := Tab.put 0 s.stats.macsec (32 * p + w) new } }
  if bitOf old 47 != bitOf new 47 then s.crossed p else s

/-- R227: the band of a length, as an offset from the first length counter. -/
def lenBand (l : Nat) : Nat :=
  if l ≤ 64 then 0 else if l ≤ 127 then 1 else if l ≤ 255 then 2 else if l ≤ 511 then 3 else if l ≤ 1023 then 4
  else if l ≤ 1518 then 5 else if l ≤ 2047 then 6 else if l ≤ 4095 then 7 else if l ≤ 8191 then 8 else if l ≤ 9216 then 9
  else 10

/-- R227: unicast 0, multicast 1, broadcast 2, by the destination address. -/
def castOf (bs : List Byte) : Nat :=
  if (bs.take 6).all (· == 0xFF#8) && decide (6 ≤ bs.length) then 2 else if bitOf (byteAt bs 0) 0 then 1 else 0

/-! ### Window log and asleep log (R376, R500) -/

/-- R500: an access is logged. -/
def State.logAccess (s : State) (kind : BitVec 3) (addr : BitVec 34) : State :=
  { s with top := { s.top with logValid := true, logKind := kind, logCount := satInc s.top.logCount, logAddr := addr } }

/-- R376, R389: an access met an asleep region. -/
def State.logAsleep (s : State) (write : Bool) (addr : Word) : State :=
  { s with power := { s.power with
      asleepRead := s.power.asleepRead || !write, asleepWrite := s.power.asleepWrite || write,
      asleepCount := satInc s.power.asleepCount, asleepAddr := addr } }

/-! ### Modes (R28) and fault events (R424) -/

/-- The mode changes; `mode.state` keeps the mode before and the cause. An instance that enters SERVICE may be head again
(R418). -/
def State.enterMode (s : State) (m : Mode) (cause : Byte) : State :=
  { s with top := { s.top with previous := s.top.mode, mode := m, cause := cause }
           casc := { s.casc with yielded := s.casc.yielded && m != .service } }

/-- Every port number. -/
def allPorts : List Nat := List.range 64
/-- Every logical slice. -/
def allSlices : List Nat := List.range 16

/-- Applies `f` for every element in turn. -/
def State.forEach {α : Type} (s : State) (l : List α) (f : State → α → State) : State := l.foldl f s

/-- A list of port numbers that are configured. -/
def State.configuredPorts (s : State) : List Nat := allPorts.filter fun p => (s.port p).configured

end Machine
end Sys2Proof
end

