-- ==== Sys2Proof/Machine/Operands.lean ====
section
/-! DEFINITION. The operand forms of a Postmaster instruction (R37 to R40, R82): the 64-byte entry it comes in, its flags byte, its
target and its host addresses. -/

namespace Sys2Proof
namespace Machine

/-- R364: A target that names a unit of its kind, below `n`. -/
def targetBelow (i : Ins) (n : Nat) : Bool := decide (i.target.toNat < n)

/-- R40: a host address in operand B, aligned to `al` bytes. -/
def hostAddrOk (b : DWord) (al : Nat) : Bool := decide (b.toNat < 2 ^ 57) && b.toNat % al == 0

/-- The flags byte of an instruction word (R37); its reserved bits are ignored. -/
def flagsByte (i : Ins) : Byte :=
  flag 8 i.c 7 ||| flag 8 i.i 6 ||| flag 8 i.f 5 ||| flag 8 i.s 4 ||| at' 8 i.ext 0

/-- R37, R82: the instruction and its cookie in a 64-byte entry. -/
def insOfEntry (x : BitVec 512) : Byte × Ins :=
  let e := (fld x 112 2).toNat
  (fld x 120 8,
   { c := bitOf x 119, i := bitOf x 118, f := bitOf x 117, s := bitOf x 116, ext := fld x 112 2, target := fld x 96 16,
     a := fld x 64 32, b := fld x 0 64, e0 := if e = 0 then 0 else fld x 128 128,
     e1 := if e = 2 then fld x 256 128 else 0, cookie := fld x 384 64 })

/-- An entry that holds an instruction, with zeros where no field stands. -/
def entryOfIns (op : Byte) (i : Ins) : BitVec 512 :=
  at' 512 i.b 0 ||| at' 512 i.a 64 ||| at' 512 i.target 96 ||| at' 512 (flagsByte i) 112 ||| at' 512 op 120 ||| at' 512 i.e0 128
    ||| at' 512 i.e1 256 ||| at' 512 i.cookie 384

end Machine
end Sys2Proof
end

