-- ==== Sys2Proof/Machine/Servo.lean ====
section
/-! DEFINITION. Postmark's time states, steps and servo (R245 to R251, R260 to R262). -/

namespace Sys2Proof
namespace Machine

/-- R247: a transition keeps the state before it; staying is no transition. -/
def Time.enter (t : Time) (st : TimeSt) : Time :=
  if t.state = st then t else { t with previous := t.state, state := st, inRow := 0 }

/-- Division to the nearest, ties away from zero (R246). -/
def roundDiv (n d : Int) : Int := if 0 ≤ n then (2 * n + d) / (2 * d) else - ((2 * (-n) + d) / (2 * d))

/-- R246: the increment for a frequency of `num / den` ppb. -/
def incFor (num den : Int) : Word := BitVec.ofInt 32 (0x50000000 - roundDiv (0x50000000 * num) (1000000000 * den))

/-- Clamp to ± `b`. -/
def clampTo (b x : Int) : Int := max (-b) (min b x)

/-- 200,000 ppb in units of 2^-16 ppb (R261). -/
def ppbLimit : Int := 200000 * 65536

/-- R262: in HOLDOVER the increment follows the integral term alone. -/
def Time.holdRate (t : Time) : Time := { t with inc := incFor t.integ.toInt 65536 }

/-- R247, R262: into HOLDOVER. -/
def Time.enterHoldover (t : Time) : Time := (t.enter .holdover).holdRate

/-- The floor of a quotient, raised by a free 0 or 1 where it is not exact (log entry 21). -/
def freeDiv (n d : Int) : Int := if n % d = 0 then n / d else n / d + (if Config.freeRound n d then 1 else 0)

/-- R261: τ in units of 2^-16 ns: local time since the previous accepted offset, limited to 1 ms to 64 s; 1 s for the
first. -/
def Time.tau (t : Time) (now : Nat) : Int :=
  match t.lastAt with
  | none => 65536000000000
  | some a => max 65536000000 (min (64 * 65536000000000) (now - a))

/-- R261: the servo update with gains `kp`, `ki` (units of 2^-16) for the offset `theta` (units of 2^-16 ns). -/
def Time.servoStep (t : Time) (kp ki : Nat) (theta : Int) (now : Nat) : Time :=
  let tau : Int := t.tau now
  let i := clampTo ppbLimit (t.integ.toInt + freeDiv (ki * theta * 1000000000) tau)
  -- f = kp r + i over the common denominator 65536 τ
  let num := clampTo (200000 * (65536 * tau)) (kp * theta * 1000000000 + i * tau)
  { t with integ := BitVec.ofInt 64 i, offset := BitVec.ofInt 64 theta, inc := incFor num (65536 * tau), lastAt := some now }

/-- R247: the lock rules after an accepted offset. -/
def Time.lockRules (t : Time) (theta : Int) : Time :=
  let within := decide (theta.natAbs ≤ t.lockNs.toNat * 65536)
  let t := { t with inRow := if within then t.inRow + 1 else 0 }
  match t.state with
  | .locked => if 16 * t.lockNs.toNat * 65536 < theta.natAbs then t.enter .free else t
  | .free | .holdover => if t.lockN.toNat ≤ t.inRow then t.enter .locked else t
  | .unset => t

/-- R260, R261: an offset the selected source delivers. -/
def State.acceptOffset (s : State) (theta : Int) : State :=
  { s with time := { (s.time.servoStep s.time.kp.toNat s.time.ki.toNat theta s.now16).lockRules theta with lastTick := s.clock } }

/-- R247, R250: the timebase is stepped to a moment given in units of 2^-30 ns since second 0. The distance to the last edge
is elapsed time (R264), so that edge moves with the step. -/
def State.stepTo (s : State) (t : Nat) : State :=
  let old := s.now16
  let s := { s with time := { s.time with seconds := BitVec.ofNat 48 (t / 1073741824000000000), sub := t % 1073741824000000000 } }
  let d : Int := s.now16 - old
  { s with time := { s.time with lastAt := s.time.lastAt.map (· + d), lastEdge := s.time.lastEdge.map (· + d), stepped := s.time.stepped + d } }

/-- R261: the next offset uses τ = 1 s. -/
def State.freshTau (s : State) : State := { s with time := { s.time with lastAt := none } }

/-- The timebase counts: TIME is on, or keeps time in low-power holdover (R263). -/
def State.timeRuns (s : State) : Bool := s.isOn dTIME || s.time.lowPower

/-- R245: one cycle of the TIME clock. In low-power holdover 16 increments pass per cycle of the 50 MHz division (R263);
the model's idle step is one such cycle then. -/
def State.tick (s : State) : State :=
  if s.timeRuns then
    let sub := s.time.sub + (if s.time.lowPower then 16 * s.time.inc.toNat else s.time.inc.toNat)
    if sub < 1073741824000000000 then { s with time := { s.time with sub := sub } }
    else { s with time := { s.time with sub := sub - 1073741824000000000, seconds := s.time.seconds + 1 } }
  else { s with time := { s.time with stepped := s.time.stepped - 81920 } }

/-! ### Timestamp points in the past (R249, R253, R283) -/

/-- The present regime. While TIME is not on, steps do not matter. -/
def State.regimeNow (s : State) : Regime :=
  { state := s.time.state, on := s.isOn dTIME, stepped := if s.isOn dTIME then s.time.stepped else 0,
    corr := s.ports.map fun kv => (kv.1, kv.2.tsRx), cal := s.lanes.map fun kv => (kv.1, kv.2.rxCal) }

/-- A clock cycle is about to pass under the present regime. -/
def State.noteRegime (s : State) : State :=
  if s.regimes.head?.map Prod.snd = some s.regimeNow then s else { s with regimes := (s.clock, s.regimeNow) :: s.regimes }

/-- The regime that was in force `ago` units of 2^-16 ns before now. -/
def State.regimeAt (s : State) (ago : Nat) : Regime :=
  if ago = 0 then s.regimeNow
  else
    let c := s.clock - (ago + 81919) / 81920
    match s.regimes.find? fun r => decide (r.1 ≤ c) with
    | some r => r.2
    | none => s.regimeNow

end Machine
end Sys2Proof
end

