-- ==== Sys2Proof/Machine/Records.lean ====
section
/-! DEFINITION. The pair table through the cache (R206, R210) and the records of every producer: guard events (R155),
accounting gaps (R224), packet-number exhaustion (R301), transmit timestamps (R256, R257). -/

namespace Sys2Proof
namespace Machine

/-! ### Pair entries through the cache -/

/-- R241: an entry, coherently through the cache. -/
def State.pairEntry (s : State) (i : Nat) : PairEntry :=
  match s.reg.cache.find? fun l => l.index == i with
  | some l => l.entry
  | none => Tab.get {} s.reg.ledger i

/-- VALID (R206). -/
def PairEntry.isValid (e : PairEntry) : Bool := e.state == 1
/-- EMPTY. -/
def PairEntry.isEmpty (e : PairEntry) : Bool := e.state == 0

/-- R237: the count of VALID entries follows a change of one entry. -/
def State.recount (s : State) (old new : PairEntry) : State :=
  if old.isValid == new.isValid then s
  else { s with reg := { s.reg with count := if new.isValid then s.reg.count + 1 else s.reg.count - 1 } }

/-- A write of ledger memory (R472, R473). -/
def State.ledgerPut (s : State) (i : Nat) (e : PairEntry) : State :=
  ({ s with reg := { s.reg with ledger := Tab.put {} s.reg.ledger i e } }).emit (.ledgerWrite i (pairImage e))

/-- Writes an entry where it stands: its cache line, marked dirty, or ledger memory. -/
def State.setPairEntry (s : State) (i : Nat) (e : PairEntry) : State :=
  let s := s.recount (s.pairEntry i) e
  if s.reg.cache.any fun l => l.index == i then
    let (id, s) := s.takeId
    { s with reg := { s.reg with
        cache := updFirst (fun l => l.index == i)
          (fun l => { l with entry := e, dirty := true, since := if l.dirty then l.since else id }) s.reg.cache } }
  else s.ledgerPut i e

/-- R210: writes a dirty line back to ledger memory. -/
def State.writeBack (s : State) (i : Nat) : State :=
  match s.reg.cache.find? fun l => l.index == i with
  | some l =>
    if l.dirty then
      let s := s.ledgerPut i l.entry
      { s with reg := { s.reg with cache := updFirst (fun l => l.index == i) (fun l => { l with dirty := false }) s.reg.cache } }
    else s
  | none => s

/-- R240. -/
def Registry.dirtyCount (r : Registry) : Nat := (r.cache.filter (·.dirty)).length

/-! ### Accounting gaps (R224) -/

/-- The 49 bytes of a gap record's body. -/
def gapBody (g : Gap) : List Byte :=
  [g.cause, g.firstPort, g.lastPort, g.who.setWidth 8] ++ leBytes 2 g.epoch.toNat ++ leBytes 8 g.fromAt.toNat
    ++ leBytes 8 g.toAt.toNat ++ leBytes 4 g.pair.toNat ++ [g.state.code.setWidth 8] ++ leBytes 2 g.powerup.toNat

/-- R224: two gaps of one cause as one record. -/
def Gap.merge (a b : Gap) : Gap :=
  let whole := a.firstPort == 0xFF || b.firstPort == 0xFF
  { b with
    firstPort := if whole then 0xFF else if a.firstPort.toNat ≤ b.firstPort.toNat then a.firstPort else b.firstPort
    lastPort := if whole then 0xFF else if a.lastPort.toNat ≤ b.lastPort.toNat then b.lastPort else a.lastPort
    fromAt := if a.fromAt.toNat ≤ b.fromAt.toNat then a.fromAt else b.fromAt
    toAt := if a.toAt.toNat ≤ b.toAt.toNat then b.toAt else a.toAt
    pair := 0xFFFFFFFF }

/-- The oldest two gaps of one cause become one, in the place of the later. -/
def mergeGaps : List Gap → List Gap
  | [] => []
  | x :: t => if t.any (fun y => y.cause == x.cause) then updFirst (fun y => y.cause == x.cause) (fun y => x.merge y) t
              else x :: mergeGaps t

/-- R224: up to 64 gaps are owed; one more merges with an owed one of its cause, or makes two others of one cause merge: there are four causes
only. -/
def oweGap (l : List Gap) (g : Gap) : List Gap :=
  if l.length < 64 then l ++ [g]
  else if l.any (fun x => x.cause == g.cause) then updFirst (fun x => x.cause == g.cause) (fun x => x.merge g) l
  else mergeGaps l ++ [g]

/-- Generates owed gap records while the record queue has room (R224, R92); `fuel` bounds their number. -/
def State.flushGaps : Nat → State → State
  | 0, s => s
  | fuel + 1, s =>
    match s.reg.gaps with
    | [] => s
    | g :: t =>
      if s.reg.recordQueue != 0 && s.recordRoom s.reg.recordQueue.toNat then
        State.flushGaps fuel (({ s with reg := { s.reg with gaps := t } }).genRecord s.reg.recordQueue.toNat 2 0 (gapBody g))
      else s

/-- R223, R224, R474: Registry emits a gap record, now or when it can. -/
def State.emitGap (s : State) (g : Gap) : State :=
  State.flushGaps 65 { s with reg := { s.reg with gaps := oweGap s.reg.gaps g } }

/-- R224: the gap of causes 0x02 and 0x03, found now. -/
def State.gapNow (s : State) (cause : Byte) (pair : Word) : Gap :=
  { cause := cause, who := s.casc.self, epoch := s.reg.epoch - 1, fromAt := s.reg.prevEpochAt, toAt := s.nowInstant,
    pair := pair, state := s.stampNow.state, powerup := s.time.powerup }

/-! ### Guard events (R155) -/

/-- The body of a guard-event record. -/
def guardBody (p : Nat) (e : GuardEvent) : List Byte :=
  [e.guard, BitVec.ofNat 8 p, e.prio, e.action] ++ stampBytes e.stamp ++ leBytes 8 e.count

/-- R155: events of one guard, port and priority merge while no entry is free; the action and the time are those of the latest. -/
def mergeEvent (l : List GuardEvent) (e : GuardEvent) : List GuardEvent :=
  if l.any fun x => x.guard == e.guard && x.prio == e.prio then
    updFirst (fun x => x.guard == e.guard && x.prio == e.prio)
      (fun x => { x with count := x.count + e.count, action := e.action, stamp := e.stamp }) l
  else l ++ [e]

/-- Generates the waiting guard events of a port while entries are free. -/
def State.flushEvents : Nat → Nat → State → State
  | 0, _, s => s
  | fuel + 1, p, s =>
    match (s.port p).events with
    | [] => s
    | e :: t =>
      if s.guardQueue != 0 && s.recordRoom s.guardQueue.toNat then
        State.flushEvents fuel p
          ((s.setPort p { s.port p with events := t }).genRecord s.guardQueue.toNat 5 (s.port p).gen (guardBody p e))
      else s

/-- The waiting guard events of every port. -/
def State.flushAllEvents (s : State) : State :=
  s.forEach (s.ports.map Prod.fst) fun s p => State.flushEvents (s.port p).events.length p s

/-- R155: a guard action; none is carried while `guard.event_queue` is 0. -/
def State.guardEvent (s : State) (p : Nat) (guard : Byte) (prio : Byte) (action : Byte) (count : Nat) : State :=
  if s.guardQueue = 0 then s
  else
    let e : GuardEvent := ⟨guard, prio, action, count, s.stampNow⟩
    let l := mergeEvent (s.port p).events e
    State.flushEvents l.length p (s.setPort p { s.port p with events := l })

/-! ### Packet-number records (R292, R301) -/

/-- The body of a record of type 0x0006. -/
def pnBody (p : Nat) (an : BitVec 2) (action : Byte) (suite : BitVec 4) (pn : Nat) (t : Stamp) : List Byte :=
  [BitVec.ofNat 8 p, an.setWidth 8, action, suite.setWidth 8] ++ leBytes 8 pn ++ stampBytes t

/-- Generates owed packet-number records, the oldest first, while entries are free; `fuel` bounds their number. -/
def State.flushPnFuel : Nat → State → State
  | 0, s => s
  | fuel + 1, s =>
    match s.sec.owed with
    | [] => s
    | o :: t =>
      if s.sec.eventQueue != 0 && s.recordRoom s.sec.eventQueue.toNat then
        State.flushPnFuel fuel (({ s with sec := { s.sec with owed := t } }).genRecord s.sec.eventQueue.toNat 6 (s.port (o.slot / 8)).gen
          (pnBody (o.slot / 8) (BitVec.ofNat 2 o.slot) o.action o.suite o.pn o.stamp))
      else s

/-- Generates every owed packet-number record that an entry is free for. -/
def State.flushPn (s : State) : State := State.flushPnFuel s.sec.owed.length s

/-- R292: a packet-number event of an SA: its record is generated as soon as an entry is free; none is carried while the event queue is 0. -/
def State.pnRecord (s : State) (n : Nat) (action : Byte) (pn : Nat) : State :=
  if s.sec.eventQueue = 0 then s
  else
    let o : PnOwed := { slot := n, action := action, suite := (s.keySlot n).suite, pn := pn, stamp := s.stampNow }
    ({ s with sec := { s.sec with owed := s.sec.owed ++ [o] } }).flushPn

/-! ### Transmit timestamps (R256, R257) -/

/-- The body of a record of type 0x0003: cookie, port, flags, timestamp, status, length. -/
def tsBody3 (cookie : DWord) (p : Nat) (flags : Byte) (t : Stamp) (status : Byte) (len : Nat) : List Byte :=
  leBytes 8 cookie.toNat ++ [BitVec.ofNat 8 p, flags] ++ stampBytes t ++ [status] ++ leBytes 2 len

/-- The body of a record of type 0x0004: tag, port, flags, timestamp, status, length. -/
def tsBody4 (tag : Word) (p : Nat) (flags : Byte) (t : Stamp) (status : Byte) (len : Nat) : List Byte :=
  leBytes 4 tag.toNat ++ [0, 0, 0, 0] ++ [BitVec.ofNat 8 p, flags] ++ stampBytes t ++ [status] ++ leBytes 2 len

end Machine
end Sys2Proof
end

