-- ==== Sys2Proof/Machine/Tables.lean ====
section
/-! DEFINITION. The host images of rules, bindings, patterns and queue contexts (R190, R174, R185, R72), the table window
(R414), and the visible words of the control store (R337, R338, R349, R355). -/

namespace Sys2Proof
namespace Machine

/-! ### Rules, bindings, patterns -/

/-- R190: a rule from its 128 bytes. The reserved bits of the action word (R191) are ignored, and so read 0 (R9). -/
def ruleOfImage (b : List Byte) : Rule :=
  { value := BitVec.ofNat 320 (leNat (slice b 0 40)), mask := BitVec.ofNat 320 (leNat (slice b 40 40)),
    action := BitVec.ofNat 64 (leNat (slice b 80 8)) &&& 0x80FFFFFFF0000000#64 }

/-- The image of a rule as the table window shows it: value bits read as value AND mask (R414). -/
def imageOfRule (r : Rule) : List Byte :=
  leBytes 40 (r.value &&& r.mask).toNat ++ leBytes 40 r.mask.toNat ++ leBytes 8 r.action.toNat ++ List.replicate 40 0

/-- R174: a binding from the first 16 of its 64 bytes; bits [93:48] are reserved (R9). -/
def bindingOfImage (b : List Byte) : QWord := BitVec.ofNat 128 (leNat (slice b 0 16)) &&& 0xFFFFFFFFC0000000_0000FFFFFFFFFFFF#128

/-- R185: a pattern from its 128 bytes; an image of zeros is the empty pattern. Flag bits [7:1] are reserved (R9). -/
def patternOfImage (b : List Byte) : Pattern :=
  if (slice b 0 65 ++ [byteAt b 65 &&& 1] ++ slice b 66 4).all (· == 0) then {}
  else { value := slice b 0 32, mask := slice b 32 32, length := byteAt b 64, flags := byteAt b 65 &&& 1,
         minOff := BitVec.ofNat 16 (leNat (slice b 66 2)), maxOff := BitVec.ofNat 16 (leNat (slice b 68 2)) }

/-- The first 70 bytes of a pattern's image; the rest read 0. -/
def imageOfPattern (p : Pattern) : List Byte :=
  slice p.value 0 32 ++ slice p.mask 0 32 ++ [p.length, p.flags] ++ leBytes 2 p.minOff.toNat ++ leBytes 2 p.maxOff.toNat
    ++ List.replicate 58 0

/-- The bank of the other number holds the rules that are not current (R203: bit 0 of the epoch count names the current
bank). -/
def SliceL.bank (x : SliceL) (b : Bool) : Tab Rule := if b then x.bank1 else x.bank0
def SliceL.current (x : SliceL) : Bool := bitOf x.epochCount 0

/-- R414, R431: the 128 bytes that the table window shows of a table. Codes above 3 name no table and show 0. -/
def SliceL.windowImage (x : SliceL) (table : BitVec 4) (index : Nat) : List Byte :=
  match table.toNat with
  | 0 => imageOfRule (Tab.get {} x.bank0 index)
  | 1 => imageOfRule (Tab.get {} x.bank1 index)
  | 2 => leBytes 16 (Tab.get 0 x.bindings index).toNat ++ List.replicate 112 0
  | 3 => imageOfPattern (Tab.get {} x.patterns index)
  | _ => List.replicate 128 0

/-! ### Queue contexts (R72) -/

/-- The context fields of 256 bits as a queue whose positions are 0. -/
def queueOfCtx (x : BitVec 256) : Option Queue :=
  (QKind.ofCode (fld x 57 3)).map fun k =>
    { kind := k, base := fld x 0 57, size := fld x 60 4, cq := fld x 64 12, vector := fld x 76 11, irqEn := bitOf x 87,
      poll := fld x 88 8, maxOut := fld x 96 16, modCount := fld x 112 8, modTime := fld x 120 8, headWb := fld x 128 57,
      slotSize := fld x 192 4, tsQueue := fld x 196 12, puntBase := fld x 210 45 }

/-! ### Control-store words -/

/-- R349: the visible word: the overlay bank over its page, else the main store. -/
def Cs.word (c : Cs) (n : Nat) : QWord :=
  if c.mapped && n / 8192 == c.page.toNat then Tab.get 0 c.bank (n % 8192) else Tab.get 0 c.store n

/-- The visible word as CSLOAD received it (R351). -/
def Cs.recvWord (c : Cs) (n : Nat) : QWord :=
  if c.mapped && n / 8192 == c.page.toNat then Tab.get 0 c.recvBank (n % 8192) else Tab.get 0 c.recv n

/-- The visible page tag of page k (R337). -/
def Cs.tag (c : Cs) (k : Nat) : QWord := c.word (8192 * k + 8191)
/-- R351: the base release of page 0. -/
def Cs.base (c : Cs) : Byte := fld (c.tag 0) 24 8
/-- R351: the highest patch field among pages 0-6. -/
def Cs.patch (c : Cs) : Byte := BitVec.ofNat 8 (((List.range 7).map fun k => (fld (c.tag k) 16 8).toNat).foldl max 0)
/-- R337: the open-image identifier. -/
def Cs.openId (c : Cs) : BitVec 16 := fld (c.word 0xE008) 0 16

/-- R28, R441: the vendor region holds a loaded base release. -/
def Cs.vendorLoaded (c : Cs) : Bool := c.base != 0

/-- R338: the Postmaster dispatch entry of an opcode, 0x00-0xDF in page 0 and 0xE0-0xFF in page 7. -/
def Cs.dispatch (c : Cs) (op : Byte) : Word :=
  let n := op.toNat
  let w := if n < 0xE0 then n / 4 else 0xE000 + (n - 0xE0) / 4
  fld (c.word w) (32 * (n % 4)) 32

/-- R351: CRC-32 over words `lo .. lo + n - 1` of a view, register in and out. -/
def crcWords (f : Nat → QWord) (lo n : Nat) (r : Word) : Word :=
  (List.range n).foldl (fun r i => crc32From r (leBytes 16 (f (lo + i)).toNat)) r

/-- R351: the received CRC. -/
def Cs.receivedCrc (c : Cs) : Word := ~~~ (crcWords c.recvWord 0 65536 0xFFFFFFFF#32)

/-- `cs.version` (R355). -/
def csVersionWord (c : Cs) : DWord := at' 64 c.crc 32 ||| at' 64 c.verBase 24 ||| at' 64 c.verPatch 16 ||| at' 64 c.verOpen 0

/-- R351: `cs.version` takes what is now visible. -/
def Cs.stamp (c : Cs) : Cs := { c with crc := c.receivedCrc, verBase := c.base, verPatch := c.patch, verOpen := c.openId }

/-- The visible word under which word `n` of the store or of the bank stands, none while it is not visible. -/
def Cs.visibleAt (c : Cs) (ovl : Bool) (n : Nat) : Option Nat :=
  if ovl then (if c.mapped && n < 8192 then some (8192 * c.page.toNat + n) else none)
  else if c.mapped && n / 8192 == c.page.toNat then none else some n

/-- The visible words that have a parity error (R352). -/
def Cs.badWords (c : Cs) : List Nat := c.reloads.filterMap fun r => c.visibleAt r.ovl r.word

/-- R350: the words whose change makes every slice refresh its replica. -/
def sortWord (n : Nat) : Bool :=
  (decide (0xD000 ≤ n) && decide (n ≤ 0xDDFF)) || (decide (0xDF80 ≤ n) && decide (n ≤ 0xDFEF))
    || (decide (0xFDF0 ≤ n) && decide (n ≤ 0xFDFF)) || decide (0xFE00 ≤ n)

/-- R177, R350: a slice fills its replica from the visible sort words. Only words that are listed in the store or the bank
can differ from zero. -/
def Cs.replicaOf (c : Cs) : Tab QWord :=
  let keys := (c.store.map (·.1)) ++ (c.bank.map fun kv => 8192 * c.page.toNat + kv.1)
  (keys.filter sortWord).foldl (fun t n => Tab.put 0 t n (c.word n)) []

/-- R350: a slice fills its replica from the visible control store. Words whose master has a parity error stay unusable until it is reloaded
(R353). -/
def State.fillReplica (s : State) (k : Nat) : State :=
  s.setSliceL k { s.sliceL k with replica := s.cs.replicaOf, badReplica := s.cs.badWords.filter sortWord }

/-- R350: every slice that is on refreshes its replica. -/
def State.refreshReplicas (s : State) : State := s.forEach (allSlices.filter s.sliceOn) fun s k => s.fillReplica k

end Machine
end Sys2Proof
end

