-- ==== Sys2Proof/Machine/Params.lean ====
section
/-! DEFINITION. The parameter map (16): one description per mapped word, the domains of the regions (R376), and the reads and
writes that GET, SET, SETBLK, PGET, PSET, the window, the management target and the monitor share. -/

namespace Sys2Proof
namespace Machine

/-- What the map says of the parameter a word belongs to. The functions act on the state; a description is never part of
it. -/
structure PDesc where
  /-- Address of the parameter's first word, and its words (R10, R269). -/
  base : Nat
  words : Nat := 1
  /-- Its value now. -/
  val : BitVec 96 := 0
  /-- Its RW and W1C bits. -/
  rw : DWord := 0
  w1c : DWord := 0
  /-- Reserved to a specific instruction: SET completes with BAD_OPERAND (R68, R149, R436). -/
  barred : Bool := false
  /-- The range rule of its fields. -/
  valid : DWord → Bool := fun _ => true
  /-- The new value takes effect. -/
  write : DWord → State → State := fun _ s => s
  /-- W1C bits are cleared. -/
  clear : DWord → State → State := fun _ s => s
  /-- Effect of any read (RC) and of a direct read alone (R414). -/
  onRead : State → State := fun s => s
  onDirect : State → State := fun s => s

/-- A read-only word. -/
def ro32 (base : Nat) (v : Word) : PDesc := { base := base, val := v.setWidth 96 }
/-- A read-only 64-bit parameter. -/
def ro64 (base : Nat) (v : DWord) : PDesc := { base := base, words := 2, val := v.setWidth 96 }
/-- A word with RW bits. -/
def rw32 (base : Nat) (v : Word) (rw : Word) (ok : Word → Bool) (write : Word → State → State) : PDesc :=
  { base := base, val := v.setWidth 96, rw := rw.setWidth 64, valid := fun x => ok (x.setWidth 32),
    write := fun x => write (x.setWidth 32) }
/-- A 64-bit parameter with RW bits. -/
def rw64 (base : Nat) (v : DWord) (rw : DWord) (ok : DWord → Bool) (write : DWord → State → State) : PDesc :=
  { base := base, words := 2, val := v.setWidth 96, rw := rw, valid := ok, write := write }
/-- A word or pair whose bits in `w1c` are cleared by writing 1. -/
def w1c64 (base words : Nat) (v w1c : DWord) (clear : DWord → State → State) : PDesc :=
  { base := base, words := words, val := v.setWidth 96, w1c := w1c, clear := clear }
/-- An RWL parameter: GUARDSET alone writes it (R149). -/
def rwl (base words : Nat) (v : DWord) : PDesc := { base := base, words := words, val := v.setWidth 96, barred := true }

/-- No record queue, or a RECORD queue (R163, R235, R277, R303). -/
def State.recordQueueOk (s : State) (v : Word) : Bool := fld v 0 12 == 0 || s.isRecordQueue (fld v 0 12).toNat

/-! ### Region 0x00 -/

def State.setTop (s : State) (u : Unit00) : State := { s with top := u }

/-- `boot.aq_idx` (R440). -/
def State.aqIdx (s : State) : DWord :=
  if s.isOn dHOST then
    at' 64 ((s.queue 1).map (·.tail) |>.getD 0) 32 ||| at' 64 ((s.queue 0).map (·.head) |>.getD 0) 0
  else 0

/-- `pb.fault` of a logical slice (R467). -/
def State.pbFaultWord (s : State) (k : Nat) : Word :=
  let f := Tab.get (0, 0, 0, 0) s.top.pbFault k
  at' 32 f.1 24 ||| at' 32 f.2.1 16 ||| at' 32 f.2.2.1 8 ||| at' 32 f.2.2.2 0

/-- Region 0x00 (R488). -/
def describe00 (s : State) (w : Nat) : Option PDesc :=
  let u := s.top
  if w == 0 then some (ro32 0 Config.idDevice)
  else if w == 1 then some (ro32 1 Config.idRelease)
  else if w == 2 then some (ro32 2 (modeWord u))
  else if w == 8 || w == 9 then
    some (w1c64 8 2 (winLogWord u) (flag 64 true 63) fun _ s => s.setTop { s.top with logValid := false })
  else if w == 0x30 || w == 0x31 then some { ro64 0x30 u.aqBase with barred := true }
  else if w == 0x32 || w == 0x33 then some { ro64 0x32 u.aqHeadWb with barred := true }
  else if w == 0x34 || w == 0x35 then some { ro64 0x34 u.acqBase with barred := true }
  else if w == 0x36 then some { ro32 0x36 (aqCfgWord u) with barred := true }
  else if w == 0x37 || w == 0x38 then some (ro64 0x37 s.aqIdx)
  else if w == 0x40 then some (ro32 0x40 (monWord s.mon))
  else if w == 0x50 then some (ro32 0x50 (spareWord u))
  else if w == 0x51 then
    some (rw32 0x51 (flag 32 u.spareAuto 31) (flag 32 true 31) (fun _ => true)
      fun v s => s.setTop { s.top with spareAuto := bitOf v 31 })
  else if w == 0x60 then
    some (w1c64 0x60 1 (z64 (faultWord u)) (flag 64 true 31) fun _ s => s.setTop { s.top with faultValid := false })
  else if 0x70 ≤ w ∧ w ≤ 0x7F then some (ro32 w (s.pbFaultWord (w - 0x70)))
  else none

/-! ### Region 0x01 -/

def State.setPm (s : State) (p : Pm) : State := { s with pm := p }
def State.setCs (s : State) (c : Cs) : State := { s with cs := c }

/-- Region 0x01. -/
def describe01 (s : State) (w : Nat) : Option PDesc :=
  let b := 0x01000000
  if w == 0 then some (ro32 b (lockstepWord s.pm))
  else if w == 1 then some (ro32 (b + 1) (BitVec.ofNat 32 s.pm.journal.length))
  else if w == 2 then
    some (rw32 (b + 2) (selftestWord s.pm) 0xFFFF0000#32 (fun _ => true)
      fun v s => s.setPm { s.pm with interval := fld v 16 16 })
  else if w == 0x10 || w == 0x11 then some (ro64 (b + 0x10) (csVersionWord s.cs))
  else if w == 0x12 then some (ro32 (b + 0x12) (csMapWord s.cs))
  else if w == 0x14 || w == 0x15 then some (ro64 (b + 0x14) (z64 s.cs.image))
  else if w == 0x16 || w == 0x17 then some (ro64 (b + 0x16) (z64 s.cs.imageOvl))
  else if w == 0x18 then some (ro32 (b + 0x18) (at' 32 s.cs.parityStore 16 ||| at' 32 s.cs.parityReplica 0))
  else if w == 0x19 then
    some (w1c64 (b + 0x19) 1 (z64 (openFaultWord s.cs)) (flag 64 true 31)
      fun _ s => s.setCs { s.cs with faultValid := false })
  else if w == 0x1A then
    some (rw32 (b + 0x1A) (at' 32 s.cs.passes 16 ||| at' 32 s.cs.rate 0) 0xFF#32 (fun v => fld v 0 8 != 0)
      fun v s => s.setCs { s.cs with rate := fld v 0 8 })
  else none

/-! ### Region 0x02 -/

def State.setQs (s : State) (q : Queues) : State := { s with qs := q }

/-- `q.pigeon` in_use: completions held (R96) and those behind a failed entry of a stopped ring (R503). -/
def State.pigeonsUsed (s : State) : Nat :=
  s.qs.held.length + (s.qs.tab.map fun kq => match kq.2 with
    | some x => (x.heldWrites.filter fun e => e.owner.isSome).length | none => 0).sum

/-- Region 0x02. -/
def describe02 (s : State) (w : Nat) : Option PDesc :=
  let b := 0x02000000
  if w == 0 then
    some (ro32 b (at' 32 (BitVec.ofNat 16 s.reservedTotal) 16 ||| at' 32 (BitVec.ofNat 16 s.pigeonsUsed) 0))
  else if w == 1 then
    some (w1c64 (b + 1) 1 (z64 (qFaultWord s.qs)) (flag 64 true 31) fun _ s => s.setQs { s.qs with faultValid := false })
  else if 0x1000 ≤ w ∧ w ≤ 0x8FFF then
    let q := (w - 0x1000) / 8
    some (ro32 (b + w) (match s.queue q with | some x => fld (ctxWord x) (32 * ((w - 0x1000) % 8)) 32 | none => 0))
  else if 0x10000 ≤ w ∧ w ≤ 0x11FFF then
    let q := (w - 0x10000) / 2
    some (ro64 (b + 0x10000 + 2 * q) (match s.queue q with | some x => qIdxWord x | none => 0))
  else none

/-! ### Region 0x03 -/

def State.setDma (s : State) (d : Dma) : State := { s with dma := d }

/-- R324: a channel is idle when it is IDLE with ARM clear. -/
def Chan.isIdle (c : Chan) : Bool := c.st = .idle && !c.armed

/-- `dma.busy` (R331). -/
def State.dmaBusy (s : State) : Word :=
  (List.range 32).foldl (fun v c => v ||| flag 32 (!(s.chan c).isIdle) c) 0

/-- W1C bits of `dma.ch.status` (R333). -/
def clearChan (c : Nat) (v : DWord) (s : State) : State :=
  let x := s.chan c
  let x := if bitOf v 29 && x.st = .halted then { x with st := .idle } else x
  s.setChan c { x with hoEnd := x.hoEnd && !bitOf v 21, hoIdle := x.hoIdle && !bitOf v 20, half := x.half && !bitOf v 17,
                       full := x.full && !bitOf v 16, mismatch := x.mismatch && !bitOf v 15 }

/-- Region 0x03. -/
def describe03 (s : State) (w : Nat) : Option PDesc :=
  let b := 0x03000000
  if w == 0 then
    some (rw32 b (at' 32 s.dma.qshare 16 ||| at' 32 s.dma.qretries 0) 0x00FF0007#32
      (fun v => decide (64 ≤ (fld v 16 8).toNat ∧ (fld v 16 8).toNat ≤ 240))
      fun v s => s.setDma { s.dma with qshare := fld v 16 8, qretries := fld v 0 3 })
  else if w == 1 then some (ro32 (b + 1) s.dmaBusy)
  else if 0x100 ≤ w ∧ w ≤ 0x2FF then
    let c := (w - 0x100) / 16
    let o := (w - 0x100) % 16
    let x := s.chan c
    let cb := b + 0x100 + 16 * c
    let addr (k : Nat) (v : HostAddr) : Option PDesc := some (ro64 (cb + k) (z64 v))
    if o == 0 then
      some { rw32 cb (chCfgWord x) (if c < 28 then 0xC7FF0007#32 else 0) (fun _ => true)
        (fun v s => s.setChan c { s.chan c with irqEnd := bitOf v 31, irqHalt := bitOf v 30, vector := fld v 16 11,
                                                retries := fld v 0 3 }) with barred := decide (28 ≤ c) }
    else if o == 1 then some (w1c64 (cb + 1) 1 (z64 (chStatusWord x)) 0x20338000#64 (clearChan c))
    else if o < 4 then addr 2 x.pc else if o < 6 then addr 4 x.src else if o < 8 then addr 6 x.dst
    else if o < 10 then addr 8 x.endAt else if o < 12 then addr 10 x.shadow else if o < 14 then addr 12 x.cmp
    else if o == 14 then some (ro32 (cb + 14) (flag 32 x.active0 31 ||| at' 32 x.lc0 0))
    else some (ro32 (cb + 15) (flag 32 x.active1 31 ||| at' 32 x.lc1 0))
  else none

/-! ### Region 0x04 -/

/-- `sorter.depth` (R201). -/
def State.depthWord (s : State) : Word :=
  (List.range 8).foldl (fun v j => v ||| at' 32 (Tab.get 0 s.sorter.depth j) (3 * j)) 0

/-- Region 0x04. -/
def describe04 (s : State) (w : Nat) : Option PDesc :=
  let b := 0x04000000
  if w == 0 then
    some (rw32 b s.sorter.seed 0xFFFFFFFF#32 (fun _ => true) fun v s => { s with sorter := { s.sorter with seed := v } })
  else if w == 1 then some (ro32 (b + 1) s.depthWord)
  else none

/-! ### Region 0x05 -/

def State.setReg (s : State) (r : Registry) : State := { s with reg := r }
def State.setStats (s : State) (x : Stats) : State := { s with stats := x }

/-- Region 0x05. -/
def describe05 (s : State) (w : Nat) : Option PDesc :=
  let b := 0x05000000
  let r := s.reg
  if w == 0 then some (ro32 b (at' 32 r.epoch 0))
  else if w == 1 then some (ro32 (b + 1) (snapWord r))
  else if w == 2 || w == 3 then some (ro64 (b + 2) r.epochAt)
  else if w == 4 then
    some (rw32 (b + 4) (at' 32 r.recordQueue 0) 0xFFF#32 (fun v => s.recordQueueOk v && s.reg.phase == .idle)
      fun v s => State.flushGaps 65 (s.setReg { s.reg with recordQueue := fld v 0 12 }))
  else if w == 5 then
    some (rw32 (b + 5) (flag 32 r.learn 31 ||| at' 32 r.limit 0) 0x81FFFFFF#32
      (fun v => decide (1 ≤ (fld v 0 25).toNat ∧ (fld v 0 25).toNat ≤ Config.pairEntries))
      fun v s => s.setReg { s.reg with learn := bitOf v 31, limit := fld v 0 25 })
  else if w == 6 then some (ro32 (b + 6) (at' 32 r.count 0))
  else if w == 7 then
    some (rw32 (b + 7) (at' 32 r.age 0) 0xFFFF#32 (fun _ => true) fun v s => s.setReg { s.reg with age := fld v 0 16 })
  else if w == 8 then
    some (rw32 (b + 8) (at' 32 r.share 0) 0xFF#32 (fun v => decide (16 ≤ (fld v 0 8).toNat ∧ (fld v 0 8).toNat ≤ 224))
      fun v s => s.setReg { s.reg with share := fld v 0 8 })
  else if w == 9 then
    some (ro32 (b + 9) (at' 32 (BitVec.ofNat 17 r.dirtyCount) 15 ||| at' 32 (BitVec.ofNat 13 r.probes.length) 0))
  else if w == 0x10 then
    some (rw32 (b + 0x10) (at' 32 r.window 0) 0xFFFFFF#32 (fun _ => true)
      fun v s => s.setReg { s.reg with window := fld v 0 24 })
  else if 0x20 ≤ w ∧ w ≤ 0x2F then some (ro32 (b + w) (fld (pairImage (s.pairEntry r.window.toNat)) (32 * (w - 0x20)) 32))
  else if w == 0x30 then
    some (rw32 (b + 0x30) (flag 32 s.stats.vecEnable 31 ||| at' 32 s.stats.vector 0) 0x800007FF#32 (fun _ => true)
      fun v s => s.setStats { s.stats with vecEnable := bitOf v 31, vector := fld v 0 11 })
  else if w == 0x31 || w == 0x32 then
    some (w1c64 (b + 0x31) 2 s.stats.cross (BitVec.allOnes 64)
      fun v s => s.setStats { s.stats with cross := s.stats.cross &&& ~~~ v })
  else if w == 0x33 then
    some (w1c64 (b + 0x33) 1 (z64 s.stats.crossSlice) 0xFFFF#64
      fun v s => s.setStats { s.stats with crossSlice := s.stats.crossSlice &&& ~~~ (v.setWidth 16) })
  else if w == 0x40 then some (ro32 (b + 0x40) (at' 32 r.region 30 ||| flag 32 r.unreachable 29 ||| at' 32 r.uncorr 0))
  else none

/-! ### Region 0x06 -/

def State.setTimeUnit (s : State) (t : Time) : State := { s with time := t }

/-- TM_PPS_OUT falls. -/
def State.ppsLow (s : State) : State := if s.time.ppsOut then (s.setTimeUnit { s.time with ppsOut := false }).emit (.pps false) else s

/-- R374: the management target lets go of SCL. -/
def State.releaseScl (s : State) : State :=
  if s.power.sclHeld then { s with power := { s.power with sclHeld := false } }.emit .mgmtReleaseScl else s

/-- R265: TM_PPS_OUT may be driven high: out_en is set, the state is not UNSET, and TIME is on. -/
def State.ppsAllowed (s : State) : Bool := s.isOn dTIME && s.time.outEn && s.time.state != .unset

/-- R265: the output is low where it may not be driven. -/
def State.ppsSettle (s : State) : State := if s.ppsAllowed then s else s.ppsLow

/-- `time.now` (R269). -/
def State.timeNow (s : State) : BitVec 96 :=
  at' 96 (BitVec.ofNat 16 (s.time.sub / 16384 % 65536)) 80 ||| at' 96 s.time.seconds 32 ||| at' 96 s.time.state.code 30
    ||| at' 96 (BitVec.ofNat 30 s.nowNs) 0

/-- R247, R261: a new servo configuration. Setting the source to none while LOCKED enters HOLDOVER; a source change makes the
next offset use τ = 1 s. -/
def setServoCfg (v : Word) (s : State) : State :=
  let t := s.time
  let t' := { t with source := fld v 30 2, lpHold := bitOf v 29, lockN := fld v 24 5, lockNs := fld v 16 8,
                     holdMs := fld v 0 16 }
  let t' := if t'.source = t.source then t' else { t' with lastAt := none }
  s.setTimeUnit (if t'.source = 0 && t.state = .locked then t'.enterHoldover else t')

/-- R264: the first edge after in_en is set is accepted whatever its distance. -/
def setPps (v : Word) (s : State) : State :=
  let t := s.time
  (s.setTimeUnit { t with outEn := bitOf v 31, inEn := bitOf v 30, todEn := bitOf v 29, todSet := bitOf v 28,
                          outWidth := fld v 0 16, lastEdge := if bitOf v 30 && !t.inEn then none else t.lastEdge }).ppsSettle

/-- Region 0x06. -/
def describe06 (s : State) (w : Nat) : Option PDesc :=
  let b := 0x06000000
  let t := s.time
  if w ≤ 2 then some { base := b, words := 3, val := s.timeNow }
  else if w == 3 then some (ro32 (b + 3) (timeStatusWord t))
  else if w == 4 then some (ro32 (b + 4) t.inc)
  else if w == 5 then
    some (rw32 (b + 5) (at' 32 t.kp 16 ||| at' 32 t.ki 0) 0xFFFFFFFF#32 (fun _ => true)
      fun v s => s.setTimeUnit { s.time with kp := fld v 16 16, ki := fld v 0 16 })
  else if w == 6 then
    some (rw32 (b + 6) (servoCfgWord t) 0xFFFFFFFF#32
      (fun v => fld v 30 2 != 3 && fld v 24 5 != 0 && fld v 16 8 != 0 && fld v 0 16 != 0) setServoCfg)
  else if w == 7 || w == 8 then some (ro64 (b + 7) t.integ)
  else if w == 9 || w == 10 then some (ro64 (b + 9) t.offset)
  else if w == 0x0B then some (rw32 (b + 0x0B) (ppsWord t) 0xF000FFFF#32 (fun v => fld v 0 16 != 0) setPps)
  else if w == 0x0C then
    some (rw32 (b + 0x0C) (at' 32 t.inDelay 16 ||| at' 32 t.outAdv 0) 0xFFFFFFFF#32 (fun _ => true)
      fun v s => s.setTimeUnit { s.time with inDelay := fld v 16 16, outAdv := fld v 0 16 })
  else if w == 0x0D then
    some (rw32 (b + 0x0D) (at' 32 t.pipeTsQueue 0) 0xFFF#32 s.recordQueueOk
      fun v s => s.setTimeUnit { s.time with pipeTsQueue := fld v 0 12 })
  else if w == 0x0E then some (ro32 (b + 0x0E) (timeEventsWord t))
  else if w == 0x10 || w == 0x11 then
    some (rw64 (b + 0x10) t.alarm0 (BitVec.allOnes 64) (fun v => decide ((fld v 0 30).toNat < 1000000000))
      fun v s => s.setTimeUnit { s.time with alarm0 := v })
  else if w == 0x12 || w == 0x13 then
    some (rw64 (b + 0x12) t.alarm1 (BitVec.allOnes 64) (fun v => decide ((fld v 0 30).toNat < 1000000000))
      fun v s => s.setTimeUnit { s.time with alarm1 := v })
  else if w == 0x14 then
    some { rw32 (b + 0x14) (alarmWord t) 0xC00007FF#32 (fun _ => true)
      (fun v s => s.setTimeUnit { s.time with armed1 := bitOf v 31, armed0 := bitOf v 30, alarmVector := fld v 0 11 }) with
      w1c := 0x30000000#64
      clear := fun v s => s.setTimeUnit { s.time with fired1 := s.time.fired1 && !bitOf v 29,
                                                      fired0 := s.time.fired0 && !bitOf v 28 } }
  else if w == 0x18 then some (ro32 (b + 0x18) (timeCascWord t))
  else none

/-! ### Region 0x07 -/

def State.setSec (s : State) (x : Sec) : State := { s with sec := x }

/-- The slot of a port's SA (R284). -/
def slotOf (p : Nat) (rx : Bool) (an : BitVec 2) : Nat := 8 * p + (if rx then 4 else 0) + an.toNat

/-- R285. -/
def isXpn (suite : BitVec 4) : Bool := suite == 3 || suite == 4

/-- `macsec.port.sa` (R308). -/
def State.saWord (s : State) (p : Nat) : Word :=
  (List.range 4).foldl (fun v a =>
    let t := s.keySlot (8 * p + a)
    let r := s.keySlot (8 * p + 4 + a)
    v ||| flag 32 (t.installed && t.exhausted) (28 + a) ||| flag 32 (t.installed && t.warned) (24 + a)
      ||| flag 32 r.installed (16 + a) ||| flag 32 t.installed (8 + a)) 0

/-- `macsec.port.suites` (R310). -/
def State.suitesWord (s : State) (p : Nat) : Word :=
  (List.range 8).foldl (fun v i =>
    let k := s.keySlot (8 * p + i)
    v ||| (if k.installed then at' 32 k.suite (4 * i) else 0)) 0

/-- R311. A transmit SA that has sent its last PN shows the PN beyond it modulo 2^64. -/
def KeySlot.pnWord (k : KeySlot) : DWord := if k.installed then BitVec.ofNat 64 k.pn else 0

/-- SAs installed (R305). -/
def State.installedCount (s : State) : Nat := (s.sec.slots.filter fun kv => kv.2.installed).length

/-- A per-port word of region 0x07. -/
def describeSecPort (s : State) (p o : Nat) : Option PDesc :=
  let b := 0x07000100 + 16 * p
  let g := s.guardPort p
  let m := s.secPort p
  if o < 2 then some (rwl b 2 g.duty)
  else if o == 2 then some (rwl (b + 2) 1 (z64 (stormWord g.rxHold g.rxDetect)))
  else if o == 3 then some (rwl (b + 3) 1 (z64 (stormWord g.txHold g.txDetect)))
  else if o == 4 then some (rwl (b + 4) 1 (z64 g.rate))
  else if o == 5 then some (rwl (b + 5) 1 (at' 64 g.burst 16 ||| flag 64 g.floor 0))
  else if o == 6 then some (ro32 (b + 6) (activeWord (s.port p)))
  else if o == 7 then
    some (rw32 (b + 7) (secCfgWord m) 0xE0000001#32
      (fun v => !bitOf v 31 || (let k := s.keySlot (slotOf p false (fld v 29 2)); k.installed && !k.exhausted))
      fun v s => s.setSecPort p { s.secPort p with txEn := bitOf v 31, txAn := fld v 29 2, acceptClear := bitOf v 0 })
  else if o == 8 || o == 9 then
    some (rw64 (b + 8) m.txSci (BitVec.allOnes 64) (fun _ => true) fun v s => s.setSecPort p { s.secPort p with txSci := v })
  else if o == 10 || o == 11 then
    some (rw64 (b + 10) m.rxSci (BitVec.allOnes 64) (fun _ => true) fun v s => s.setSecPort p { s.secPort p with rxSci := v })
  else if o == 12 then some (ro32 (b + 12) (s.saWord p))
  else if o == 13 then
    some (rw32 (b + 13) m.replay 0xFFFFFFFF#32
      (fun v => decide (v.toNat ≤ 2 ^ 30) || (List.range 4).all fun a =>
        let k := s.keySlot (8 * p + 4 + a); !(k.installed && isXpn k.suite))
      fun v s => s.setSecPort p { s.secPort p with replay := v })
  else if o == 14 then some (ro32 (b + 14) (s.suitesWord p))
  else none

/-- Region 0x07. -/
def describe07 (s : State) (w : Nat) : Option PDesc :=
  let b := 0x07000000
  if w == 0 then some (ro32 b (flag 32 s.guards.locked 0))
  else if w == 1 then
    some (rw32 (b + 1) (at' 32 s.guardQueue 0) 0xFFF#32 s.recordQueueOk
      fun v s => ({ s with guardQueue := fld v 0 12 }).flushAllEvents)
  else if w == 2 then
    some (rw32 (b + 2) (at' 32 s.sec.eventQueue 0) 0xFFF#32 s.recordQueueOk
      fun v s => (s.setSec { s.sec with eventQueue := fld v 0 12 }).flushPn)
  else if w == 3 then
    some (rw32 (b + 3) (at' 32 s.sec.xpnW 8 ||| at' 32 s.sec.w 0) 0x3F3F#32
      (fun v => decide (8 ≤ (fld v 8 6).toNat ∧ (fld v 8 6).toNat ≤ 62 ∧ 8 ≤ (fld v 0 6).toNat ∧ (fld v 0 6).toNat ≤ 31))
      fun v s => s.setSec { s.sec with xpnW := fld v 8 6, w := fld v 0 6 })
  else if w == 4 then
    some (ro32 (b + 4) (at' 32 (BitVec.ofNat 10 s.installedCount) 16 ||| at' 32 s.sec.erasures 0))
  else if 0x100 ≤ w ∧ w ≤ 0x4FF then describeSecPort s ((w - 0x100) / 16) ((w - 0x100) % 16)
  else if 0x800 ≤ w ∧ w ≤ 0xFFF then
    let p := (w - 0x800) / 32
    let e := (w - 0x800) % 32 / 2
    some (rwl (b + 0x800 + 32 * p + 2 * e) 2 (z64 (Tab.get 0 (s.guardPort p).allow e)))
  else if 0x1000 ≤ w ∧ w ≤ 0x13FF then
    let p := (w - 0x1000) / 16
    let i := (w - 0x1000) % 16 / 2
    some (ro64 (b + 0x1000 + 16 * p + 2 * i) (s.keySlot (8 * p + i)).pnWord)
  else none

/-! ### Region 0x08 -/

def State.setPower (s : State) (p : Power) : State := { s with power := p }

/-- The low-power total, in units of 0.01 mA (R377), if domains rest as `st` says, the monitor is open as `m` says and
TIME keeps low-power holdover as `hold` says. -/
def lowPowerSum (host reg regCache time hold m : Bool) : Nat :=
  250 + 30 + (if m then 350 else 0) + (if host then 10 + 100 + 160 else 0) + (if reg then 70 else 0)
    + (if regCache then 680 else 0) + (if time then 5 else 0) + (if hold then 200 else 0)

/-- What a domain holds if it goes to rest now: retained, and with caddy 3. -/
def Domain.atRest (d : Domain) : Bool × Bool :=
  match d.st with
  | .off => (false, false)
  | .retention cache => (true, cache)
  | .entering _ r => (r != .off, r == .retention)
  | _ => (d.rest != .off, d.rest == .retention)

/-- R390: the total if the present state entered low-power mode. -/
def State.lowPowerTotal (s : State) : Nat :=
  let h := (s.dom dHOST).atRest
  let r := (s.dom dREG).atRest
  let t := (s.dom dTIME).atRest
  let hold := match (s.dom dTIME).st with | .retention _ => s.time.lowPower | _ => t.1 && s.time.lpHold
  lowPowerSum h.1 r.1 r.2 t.1 hold s.mon.isOpen

/-- The domain is in its rest state. -/
def Domain.resting (x : Domain) : Bool := match x.st with | .off => true | .retention _ => true | _ => false

/-- The regulator's low-power mode: every domain except AON asleep. -/
def State.lowPowerMode (s : State) : Bool := (List.range 24).all fun i => (s.dom (i + 1)).resting

/-- R381: the effective cap. A cap input below 12,000 mW counts as 12,000 mW. -/
def Power.effectiveCap (p : Power) : Nat := min p.soft.toNat (max 12000 p.capIn.toNat)

/-- Votes held on a domain (R397). -/
def State.votesOn (s : State) (d : Nat) : Nat := (s.power.votes.filter fun kv => bitOf kv.2 d).length

/-- R361: the rest states a domain may take. -/
def restAllowed (d : Nat) (r : BitVec 2) : Bool :=
  if d == 0 then false else if d == dHOST then r == 0 else if d == dREG then r == 0 || r == 2 else r == 0 || r == 1

/-- `power.dom` (R397). -/
def State.domWord (s : State) (d : Nat) : Word :=
  let x := s.dom d
  at' 32 (if d == 0 then 2#3 else x.st.code) 29 ||| at' 32 x.rest.code 27 ||| at' 32 (BitVec.ofNat 8 (s.votesOn d)) 16
    ||| at' 32 x.refusedBy 8 ||| at' 32 x.entries 0

/-- Region 0x08. -/
def describe08 (s : State) (w : Nat) : Option PDesc :=
  let b := 0x08000000
  let p := s.power
  if w == 0 then some (ro32 b (at' 32 p.wakeSource 28 ||| at' 32 p.wakeDetail 0))
  else if w == 1 then
    some (w1c64 (b + 1) 1 (flag 64 p.asleepRead 31 ||| flag 64 p.asleepWrite 30 ||| at' 64 p.asleepCount 0) 0xC0000000#64
      fun v s => s.setPower { s.power with asleepRead := s.power.asleepRead && !bitOf v 31,
                                           asleepWrite := s.power.asleepWrite && !bitOf v 30 })
  else if w == 2 then some (ro32 (b + 2) p.asleepAddr)
  else if w == 3 then some (ro32 (b + 3) (at' 32 p.budgetRefused 16 ||| at' 32 (BitVec.ofNat 16 s.lowPowerTotal) 0))
  else if w == 4 then
    some (w1c64 (b + 4) 1 (flag 64 p.brownout 31 ||| flag 64 s.lowPowerMode 30 ||| flag 64 p.corePll 29
      ||| flag 64 p.measStale 28 ||| flag 64 p.capFail 27) 0x80000000#64
      fun _ s => (s.setPower { s.power with brownout := false }).emit .bodClr)
  else if w == 5 then
    some (rw32 (b + 5) p.wakeCfg 0xF9FFFFFE#32 (fun _ => true) fun v s => s.setPower { s.power with wakeCfg := v })
  else if w == 6 || w == 7 then
    some (rw64 (b + 6) p.laneWake (BitVec.allOnes 64) (fun _ => true) fun v s => s.setPower { s.power with laneWake := v })
  else if w == 8 then some (ro32 (b + 8) (at' 32 p.soft 16 ||| at' 32 (BitVec.ofNat 16 p.effectiveCap) 0))
  else if w == 9 then some (ro32 (b + 9) (at' 32 p.estimate 16 ||| at' 32 p.measured 0))
  else if w == 10 then some (ro32 (b + 10) (at' 32 p.gain 0))
  else if w == 11 then some (ro32 (b + 11) (shedWord p))
  else if w == 12 then some (ro32 (b + 12) (hintWord p))
  else if w == 13 then
    some (rw32 (b + 13) (flag 32 p.capVecEnable 31 ||| at' 32 p.capVector 0) 0x800007FF#32 (fun _ => true)
      fun v s => s.setPower { s.power with capVecEnable := bitOf v 31, capVector := fld v 0 11 })
  else if 0x20 ≤ w ∧ w ≤ 0x38 then
    let d := w - 0x20
    some (rw32 (b + w) (s.domWord d) 0x18000000#32 (fun v => restAllowed d (fld v 27 2))
      fun v s => s.setDom d { s.dom d with rest := match (fld v 27 2).toNat with
        | 0 => .retention | 1 => .off | _ => .retentionNoCache })
  else if 0x100 ≤ w ∧ w ≤ 0x1FF then some (ro32 (b + w) (at' 32 (s.votes (w - 0x100)) 0))
  else none

/-! ### Region 0x09 -/

def State.setCasc (s : State) (c : Casc) : State := { s with casc := c }

/-- `twin.status` (R434); last_mirror counts from the last mirror interval of the partner that was applied here, saturating. -/
def State.twinStatus (s : State) : Word :=
  twinWord s.casc (match s.casc.mirrorAt with | some t => satAdd (0#16) ((s.now16 - t) / 65536000) | none => 0)

/-- Region 0x09. -/
def describe09 (s : State) (w : Nat) : Option PDesc :=
  let b := 0x09000000
  if w == 0 then some (ro32 b (cascWord s.casc))
  else if w == 0x10 then some (ro32 (b + 0x10) s.twinStatus)
  else if w == 0x20 then some (ro32 (b + 0x20) (linkWord s.casc))
  else if w == 0x40 then
    some (rw32 (b + 0x40) (at' 32 s.casc.lead 0) 0xFFFF#32 (fun v => decide (2 ≤ (fld v 0 16).toNat))
      fun v s => s.setCasc { s.casc with lead := fld v 0 16 })
  else if w == 0x41 then
    some (rw32 (b + 0x41) s.casc.limit 0xFFFFFFFF#32 (fun _ => true) fun v s => s.setCasc { s.casc with limit := v })
  else none

/-! ### Slice regions -/

/-- R490: the logical slice whose parameters region 0x10 + n shows. While a substitution or a return runs, the new carrier
shows the moving slice too (log entry 22). -/
def State.regionSlice (s : State) (n : Nat) : Option Nat :=
  match s.carried n with
  | some k => some k
  | none => if s.top.spareBusy && (n == 16 || n == s.top.spareLogical.toNat) then some s.top.spareLogical.toNat else none

/-- The lanes a port has locked, by logical lane (R132). -/
def State.lockMap (s : State) (p : Nat) : Byte :=
  let x := s.port p
  (List.range x.width).foldl (fun v i =>
    let l := s.lane (p + i)
    if l.lock then v ||| (1#8 <<< (if ennosMode x.mode then l.logical.toNat else i)) else v) 0

/-- `port.state` (R132). -/
def State.portStateWord (s : State) (p : Nat) : Word :=
  let x := s.port p
  at' 32 (s.lockMap p) 24 ||| at' 32 x.mode 16 ||| flag 32 x.remoteDegrade 9 ||| flag 32 x.degrade 8 ||| at' 32 x.st.code 0

/-- `lane.status` (R135). -/
def State.laneWord (s : State) (l : Nat) : Word :=
  let x := s.lane l
  let (cls, logical) : BitVec 2 × BitVec 3 := match s.portOfLane l with
    | some p => (modeClass (s.port p).mode, if ennosMode (s.port p).mode then x.logical else BitVec.ofNat 3 (l - p))
    | none => (0, 0)
  at' 32 x.amSeq 16 ||| flag 32 x.mismatch 8 ||| flag 32 x.signal 7 ||| flag 32 x.lock 6 ||| at' 32 cls 4
    ||| at' 32 logical 0

/-- R137: switching rx_mode to 0b00 releases every priority. -/
def setFc (p : Nat) (v : Word) (s : State) : State :=
  let x := { s.port p with quanta := fld v 16 16, refresh := fld v 4 12, txMode := fld v 2 2, rxMode := fld v 0 2 }
  s.setPort p (if x.rxMode = 0 then { x with rxPaused := 0, pauseTime := [], pauseFrom := [], pausedAt := [] } else x)

/-- A port-slot word of the slice that region `b` shows. -/
def describePort (b p t o : Nat) (s : State) : Option PDesc :=
  let x := s.port p
  let a := b + 0x100 + 32 * t + o
  if o == 0 then some { ro32 a (at' 32 x.maxfrm 0) with barred := true }
  else if o == 1 then some (ro32 a (s.portStateWord p))
  else if o == 2 then some (ro32 a (at' 32 x.peerPort 8 ||| at' 32 x.peerMode 0))
  else if o == 3 then
    some (rw32 a x.threshold 0xFFFFFFFF#32 (fun _ => true) fun v s => s.setPort p { s.port p with threshold := v })
  else if o == 4 then
    some (rw32 a (fcWord x) 0xFFFFFFFF#32 (fun v => fld v 2 2 != 3 && fld v 0 2 != 3) (setFc p))
  else if o == 5 || o == 6 then
    some (rw64 (b + 0x100 + 32 * t + 5) (z64 x.fcSa) 0xFFFFFFFFFFFF#64 (fun _ => true)
      fun v s => s.setPort p { s.port p with fcSa := v.setWidth 48 })
  else if o == 7 then
    some (rw32 a (preemptWord x) 0xFFFF0007#32
      (fun v => decide (1 ≤ (fld v 16 8).toNat ∧ (fld v 16 8).toNat ≤ 128))
      fun v s => s.setPort p { s.port p with map := fld v 24 8, verifyTime := fld v 16 8, verifyDisable := bitOf v 2,
                                             frag := fld v 0 2 })
  else if o == 8 then some (ro32 a (preemptStatusWord x))
  else if o == 9 then some (ro32 a (pausedWord x))
  else if o == 10 then
    some (rw32 a (at' 32 x.tsRx 16 ||| at' 32 x.tsTx 0) 0xFFFFFFFF#32 (fun _ => true)
      fun v s => s.setPort p { s.port p with tsRx := fld v 16 16, tsTx := fld v 0 16 })
  else none

/-- `slice.id` (R491). -/
def State.sliceIdWord (s : State) (n : Nat) : Word :=
  flag 32 (s.sliceP n).testing 21 ||| flag 32 (s.carried n).isSome 20 ||| at' 32 (BitVec.ofNat 4 ((s.carried n).getD 0)) 16
    ||| at' 32 (BitVec.ofNat 5 n) 0

/-- The epoch that a carried one selects, and whether it selects neither bank (R197). -/
def SliceL.recircEpoch (x : SliceL) (e : BitVec 4) : Word × Bool :=
  if e = fld x.epochCount 0 4 then (x.epochCount, false)
  else if x.draining && e == fld (x.epochCount - 1) 0 4 then (x.epochCount - 1, false)
  else (x.epochCount, true)

/-- The epoch count a frame is classified under: a recirculated one that no engine has taken yet selects it by the one it carries. -/
def SliceL.epochOf (x : SliceL) (f : RxFr) : Word :=
  match f.recirc with | some w => if f.parsed then f.epoch else (x.recircEpoch (fld w 88 4)).1 | none => f.epoch

/-- `sorter.epoch` (R202): the drain count is that of R195, the frames held under the old epoch count and those that were in reception at the
swap. -/
def State.drainCount (s : State) (k : Nat) : Nat :=
  let x := s.sliceL k
  ((s.frames.rx ++ s.frames.recirc).filter fun f => f.slice.toNat == k && !f.handed && x.epochOf f != x.epochCount).length + x.arriving.length

def State.sorterEpochWord (s : State) (k : Nat) : Word :=
  let x := s.sliceL k
  flag 32 x.draining 31 ||| flag 32 x.writing 30 ||| flag 32 (if x.current then x.held0 else x.held1) 29
    ||| at' 32 (BitVec.ofNat 14 (s.drainCount k)) 0

/-- R406: clearing `slice.fault` held lets the slice's ports leave DOWN. -/
def clearSliceFault (n : Nat) (v : DWord) (s : State) : State :=
  let x := s.sliceP n
  s.setSliceP n { x with faultValid := x.faultValid && !bitOf v 31, faultHeld := x.faultHeld && !bitOf v 30 }

/-- The region of physical slice n (R489), whose port, lane and Sorter words are those of logical slice k in state `v`. -/
def describeRegion (s : State) (n k w : Nat) (v : State) : Option PDesc :=
  let b := 0x10000000 + 0x01000000 * n
  let x := s.sliceP n
  if w == 0 then some (ro32 b (s.sliceIdWord n))
  else if 0x100 ≤ w ∧ w < 0x180 then describePort b (4 * k + (w - 0x100) / 32) ((w - 0x100) / 32) ((w - 0x100) % 32) v
  else if 0x200 ≤ w ∧ w < 0x240 then
    let l := 4 * k + (w - 0x200) / 16
    if w % 16 == 0 then
      some (w1c64 (b + w) 1 (z64 (v.laneWord l)) 0x100#64 fun _ s => s.setLane l { s.lane l with mismatch := false })
    else if w % 16 == 1 then
      let y := v.lane l
      some (ro32 (b + w) (flag 32 y.rxValid 31 ||| flag 32 y.txValid 30 ||| at' 32 y.rxCal 15 ||| at' 32 y.txCal 0))
    else none
  else if w == 0x300 then some (ro32 (b + w) (v.sorterEpochWord k))
  else if w == 0x301 then some (ro32 (b + w) (v.sliceL k).epochCount)
  else if w == 0x302 || w == 0x303 then some (ro64 (b + 0x302) (v.sliceL k).epochAt)
  else if 0x400 ≤ w ∧ w < 0x480 then
    let p := 4 * k + (w - 0x400) / 32
    let n := (w - 0x400) % 32
    if n < 24 then
      some { ro32 (b + w) (v.compat p n) with
        onRead := fun s => { s with stats := { s.stats with compat := Tab.put 0 s.stats.compat (24 * p + n) 0 } } }
    else none
  else if w == 0x500 then
    some (rw32 (b + w) (at' 32 x.table 28 ||| at' 32 x.index 0) 0xF0001FFF#32 (fun v => decide ((fld v 28 4).toNat ≤ 3))
      fun v s => s.setSliceP n { s.sliceP n with table := fld v 28 4, index := fld v 0 13 })
  else if 0x520 ≤ w ∧ w ≤ 0x53F then
    let img := (v.sliceL k).windowImage x.table x.index.toNat
    some { ro32 (b + w) (BitVec.ofNat 32 (leNat (slice img (4 * (w - 0x520)) 4))) with
      onDirect := fun s => if w == 0x53F then s.setSliceP n { s.sliceP n with index := (s.sliceP n).index + 1 } else s }
  else if w == 0x600 then some (w1c64 (b + w) 1 (z64 (sliceFaultWord x)) 0xC0000000#64 (clearSliceFault n))
  else none

/-- A parameter of a slice that carries nothing: it reads its reset value, or what has been written to its RW bits since; no port, lane or
logical slice is touched (R16, log entry 22). -/
def PDesc.ofIdle (d : PDesc) (n : Nat) : PDesc :=
  let w := d.base % 0x1000000
  { d with
    onRead := id, clear := fun _ s => s
    write := fun v s => s.setSliceP n { s.sliceP n with idle := Tab.put none (s.sliceP n).idle w (some v) } }

/-- What has been written to an idle slice's parameter. -/
def State.idleVal (s : State) (n : Nat) (d : PDesc) : PDesc :=
  match Tab.get none (s.sliceP n).idle (d.base % 0x1000000) with
  | some v => { d with val := v.setWidth 96 }
  | none => d

/-- The words of a region that belong to the physical slice itself. -/
def ownWord (w : Nat) : Bool := w == 0 || 0x500 ≤ w

/-- The region of physical slice n (R16, R489). -/
def describeSlice (s : State) (n w : Nat) : Option PDesc :=
  match s.regionSlice n with
  | some k => describeRegion s n k w s
  | none => if ownWord w then describeRegion s n 0 w {} else (describeRegion s n 0 w {}).map fun d => s.idleVal n (d.ofIdle n)

/-- The parameter a word address belongs to, none for an unmapped word (R488). -/
def describe (s : State) (a : Nat) : Option PDesc :=
  let w := a % 0x1000000
  match a / 0x1000000 with
  | 0 => describe00 s w | 1 => describe01 s w | 2 => describe02 s w | 3 => describe03 s w | 4 => describe04 s w
  | 5 => describe05 s w | 6 => describe06 s w | 7 => describe07 s w | 8 => describe08 s w | 9 => describe09 s w
  | r => if 0x10 ≤ r ∧ r ≤ 0x20 then describeSlice s (r - 0x10) w else none

/-- R376: the region of a word is on. Addresses outside every region count as on. -/
def State.regionOn (s : State) (a : Nat) : Bool :=
  let w := a % 0x1000000
  match a / 0x1000000 with
  | 1 => s.pmOn | 2 => s.isOn dHOST | 3 => s.isOn dDMA | 4 => s.isOn dSORTC | 5 => s.isOn dREG | 6 => s.isOn dTIME
  | 7 => if (2 ≤ w ∧ w ≤ 4) ∨ (0x100 ≤ w ∧ w ≤ 0x4FF ∧ 7 ≤ w % 16 ∧ w % 16 ≤ 0xE) ∨ 0x1000 ≤ w then s.isOn dHOST else true
  | 9 => s.isOn dHOST
  | r => if 0x10 ≤ r ∧ r ≤ 0x20 then s.isOn (dSLICE (r - 0x10)) else true

/-! ### Reading -/

/-- Word `i` of a value. -/
def wordOf (v : BitVec 96) (i : Nat) : Word := fld v (32 * i) 32

/-- The latch of a path (R494). -/
def State.latchOf (s : State) (p : Path) : Option (Path × Word × Word × Word) := s.dma.latches.find? fun l => l.1 == p

/-- R10, R494: a read of one mapped word on a path, with its side effects. -/
def State.readMapped (s : State) (path : Path) (d : PDesc) (a : Nat) : Word × State :=
  let i := a - d.base
  if d.words = 1 then (wordOf d.val 0, d.onRead s)
  else if i = 0 then
    (wordOf d.val 0,
     { s with dma := { s.dma with latches := (path, BitVec.ofNat 32 d.base, wordOf d.val 1, wordOf d.val 2)
        :: (s.dma.latches.filter fun l => l.1 != path) } })
  else match s.latchOf path with
    | some (_, b, h1, h2) => if b.toNat = d.base then (if i = 1 then h1 else h2, s) else (wordOf d.val i, s)
    | none => (wordOf d.val i, s)

/-- GET, PGET and STATREAD read through the Postmaster: none where the word is unmapped. -/
def State.pmRead (s : State) (a : Nat) : Option (Word × State) :=
  (describe s a).map fun d => s.readMapped .postmaster d a

/-! ### Writing (R68, R493, R495) -/

/-- The bits of a 64-bit image that belong to word `i`. -/
def wordBits (x : DWord) (i : Nat) : Word := fld x (32 * i) 32

/-- The value the parameter would take: word `i` under the mask, with the low word staged before a high one (R495). -/
def PDesc.candidate (d : PDesc) (s : State) (i : Nat) (mask v : Word) : DWord :=
  let old := d.val.setWidth 64
  let m := mask &&& wordBits d.rw i
  let w := (wordBits old i &&& ~~~ m) ||| (v &&& m)
  if d.words = 1 then z64 w
  else if i = 0 then (wordBits old 1 ++ w : BitVec 64)
  else
    let lo := match s.dma.staged.find? fun kv => kv.1 == d.base with | some kv => kv.2 | none => wordBits old 0
    (w ++ lo : BitVec 64)

/-- The static rules of SET (R68, R493, R436, R149): none when they hold. -/
def setCheck (s : State) (a : Nat) (mask v : Word) : Option Status :=
  match describe s a with
  | none => some .badOperand
  | some d =>
    let i := a - d.base
    if d.barred then some .badOperand
    else if mask &&& ~~~ (wordBits d.rw i ||| wordBits d.w1c i) ≠ 0 then some .badOperand
    else if (mask &&& wordBits d.rw i ≠ 0) && !d.valid (d.candidate s i mask v) then some .badOperand
    else if !s.regionOn a then some .targetAsleep
    else none

/-- SET takes effect: W1C bits at once, RW bits of a low word staged, the rest in force. -/
def State.applySet (s : State) (a : Nat) (mask v : Word) : State :=
  match describe s a with
  | none => s
  | some d =>
    let i := a - d.base
    let w1 : DWord := (z64 (mask &&& v &&& wordBits d.w1c i)) <<< (32 * i)
    let cand := d.candidate s i mask v
    let touched := decide (mask &&& wordBits d.rw i ≠ 0)
    let s' := if w1 = 0 then s else d.clear w1 s
    if !touched then s'
    else if d.words = 1 then d.write cand s'
    else if i = 0 then
      { s' with dma := { s'.dma with staged :=
          (d.base, wordBits cand 0) :: (s'.dma.staged.filter fun kv => kv.1 != d.base) } }
    else
      let s' := { s' with dma := { s'.dma with staged := (s'.dma.staged.filter fun kv => kv.1 != d.base) } }
      d.write cand s'

/-- The word in force, without the side effects of a read. -/
def State.peek (s : State) (a : Nat) : Word :=
  match describe s a with | some d => wordOf d.val (a - d.base) | none => 0

/-- R506: the mask of a SETBLK word, none for a word with no RW and no W1C bit. -/
def blockMask (s : State) (a : Nat) : Option Word :=
  match describe s a with
  | some d =>
    let m := wordBits d.rw (a - d.base) ||| wordBits d.w1c (a - d.base)
    if m = 0 then none else some m
  | none => none

end Machine
end Sys2Proof
end

