-- ==== Sys2Proof/Machine/Issue.lean ====
section
/-! DEFINITION. The Postmaster: the checks of R47, the start, the steps and the end of a routine (R43 to R53), its completion
(R45, R94 to R96, R404), and the host reads a routine makes. -/

namespace Sys2Proof
namespace Machine

/-! ### Journal entries -/

/-- The journal entry of an identifier. -/
def State.entry (s : State) (jid : Nat) : Option JEntry := s.pm.journal.find? fun e => e.id == jid

/-- Replaces a journal entry. -/
def State.updEntry (s : State) (jid : Nat) (f : JEntry → JEntry) : State :=
  s.setJournal (updFirst (fun e => e.id == jid) f s.pm.journal)

/-- A journal entry leaves the journal. -/
def State.dropEntry (s : State) (jid : Nat) : State :=
  let s := match s.entry jid with | some e => s.mirrorEntry e true | none => s
  s.setJournal (dropFirst (fun e => e.id == jid) s.pm.journal)

/-- R420: the entry as it now is, to the twin. -/
def State.mirrorJid (s : State) (jid : Nat) : State :=
  match s.entry jid with | some e => s.mirrorEntry e false | none => s

/-- The queue number under which a journal entry was accepted. -/
def JEntry.q (e : JEntry) : Nat := e.queue.toNat

/-- The oldest entry of a queue that has not completed. -/
def State.oldest (s : State) (q : Nat) : Option JEntry :=
  s.pm.journal.find? fun e => e.q == q && e.st != .completed && e.st != .skipped

/-- The entry's routine has begun. -/
def JEntry.started (e : JEntry) : Bool := e.st != .accepted && e.st != .skipped

/-! ### What a step answers -/

/-- The answer of one step of a routine: it completes the instruction; it commits and the routine goes on; it waits
for host data without a commit; or it is being committed and its effects have still to be released (R49). -/
inductive Ran where
  | done (st : Status) (a b : DWord) (s : State)
  | more (r : Routine) (s : State)
  | wait (r : Routine) (s : State)
  | release (r : Routine) (s : State)

/-- Completion with a status that leaves no effect. -/
def Ran.bad (st : Status) (s : State) : Ran := .done st 0 0 s
/-- Completion OK with results. -/
def Ran.ok (a b : DWord) (s : State) : Ran := .done .ok a b s

/-! ### Host data (R312, R320) -/

/-- What has become of the bytes a routine asked for. -/
inductive Fetched where
  | data (bs : List Byte) (s : State)
  | wait (s : State)
  /-- The reads failed after the retries at this address. -/
  | failed (at_ : HostAddr) (s : State)

/-- The bytes `[0, n)` of a read buffer; none while one is missing. -/
def ReadBuf.bytes (r : ReadBuf) : Option (List Byte) :=
  (List.range r.need).mapM fun i => (r.got.find? fun kv => kv.1 == i).map (·.2)

/-- Asks for `n` host bytes at `base` for a routine's step, or takes them once they have come. -/
def State.fetchHost (s : State) (jid : Nat) (base : HostAddr) (n : Nat) (chan : Option Nat := none) : Fetched :=
  match (s.entry jid).bind (·.rd) with
  | none => .wait ((s.updEntry jid fun e => { e with rd := some { base := base, need := n } }).routineRead jid base n chan)
  | some r =>
    match r.failed with
    | some o => .failed (r.base + BitVec.ofNat 57 o) (s.updEntry jid fun e => { e with rd := none })
    | none => match r.bytes with
      | some bs => .data bs (s.updEntry jid fun e => { e with rd := none })
      | none => .wait s

/-! ### The checks of R47 -/

/-- The assigned opcodes (R68). -/
def vendorOpcode (n : Nat) : Bool :=
  n ≤ 7 || (0x10 ≤ n && n ≤ 0x12) || n == 0x18 || (0x20 ≤ n && n ≤ 0x24) || (0x30 ≤ n && n ≤ 0x33)
    || (0x40 ≤ n && n ≤ 0x42) || (0x50 ≤ n && n ≤ 0x52) || (0x60 ≤ n && n ≤ 0x63) || n == 0x70 || n == 0x71
    || (0x80 ≤ n && n ≤ 0x83) || (0x90 ≤ n && n ≤ 0x92) || (0xA0 ≤ n && n ≤ 0xA2)

/-- Queue-administration opcodes (R48, R68). -/
def adminOpcode (n : Nat) : Bool := 0x10 ≤ n && n ≤ 0x12

/-- An open-region opcode. -/
def openOpcode (n : Nat) : Bool := 0xE0 ≤ n && n ≤ 0xFE

/-- Check 1: the opcode has a dispatch entry and is allowed on this queue (R338, R336). -/
def dispatchOk (s : State) (op : Byte) (queue : BitVec 16) : Bool :=
  let n := op.toNat
  let e := s.cs.dispatch op
  let entryOk := bitOf e 31 && (!bitOf e 30 || queue == 0)
  if openOpcode n then entryOk && decide (0xE009 ≤ (fld e 0 16).toNat ∧ (fld e 0 16).toNat ≤ 0xFDEF)
  else vendorOpcode n && (!adminOpcode n || queue == 0) && (!s.pm.fromStore || entryOk)

/-- Extension words an opcode requires (R38, R68). -/
def minExt (op : Byte) (i : Ins) : Nat :=
  match op.toNat with
  | 0x10 => 2 | 0x12 => 2 | 0x50 => 1
  | 0x41 => if fld i.a 0 4 == 0 then 2 else if fld i.a 0 4 == 1 then 1 else 0
  | 0x62 => if fld i.a 0 8 == 5 then 1 else 0
  | _ => 0

/-- Check 2. -/
def extOk (s : State) (op : Byte) (i : Ins) : Bool :=
  let need := if openOpcode op.toNat || s.pm.fromStore then (fld (s.cs.dispatch op) 28 2).toNat else 0
  i.ext != 3 && decide (minExt op i ≤ i.ext.toNat) && decide (need ≤ i.ext.toNat)

/-- Check 3, the table of R26. -/
def permits (op : Byte) (i : Ins) (m : Mode) : Bool :=
  let n := op.toNat
  let cold := m == .cold
  let prov := m == .provision
  let serv := m == .service
  let adopt := m == .adopted
  let maint := m == .maintenance
  let quar := m == .quarantine
  if n == 0x18 then cold || prov || serv || adopt
  else if cold then false
  else if n == 0x01 || n == 0x03 || adminOpcode n then !quar
  else if n == 0x20 || n == 0x22 || n == 0x23 then !quar
  else if n == 0x21 then serv || adopt || maint
  else if n == 0x24 then prov || serv || maint
  else if (0x30 ≤ n && n ≤ 0x33) || n == 0x41 then !quar
  else if n == 0x40 then !prov
  else if n == 0x60 then prov || serv || adopt
  else if n == 0x62 || n == 0x63 then prov
  else if n == 0x90 then prov || maint || (serv && i.target == 1)
  else if n == 0x91 then prov || serv || maint
  else if n == 0xA0 || n == 0xA1 then prov || serv
  else if n == 0xA2 then serv || adopt
  else if openOpcode n then !quar
  else true

/-- R39: the opcode reference gives target 0xFFFF a meaning: every unit, or, of WAITFOR, SKIPIF and SIGNAL, a value of their own fields.
An open routine defines its operands itself. -/
def takesAll (op : Byte) : Bool :=
  let n := op.toNat
  (4 ≤ n && n ≤ 7) || (0x30 ≤ n && n ≤ 0x33) || n == 0x40 || n == 0x42 || n == 0x62 || n == 0x80 || n == 0x81 || openOpcode n

/-- Checks 1 to 3 of R47, the S rule of R61 and R39, in their order; none when they hold. -/
def preCheck (s : State) (op : Byte) (queue : BitVec 16) (i : Ins) : Option Status :=
  if !dispatchOk s op queue then some .badOpcode
  else if !extOk s op i then some .badOperand
  else if !permits op i s.top.mode then some .modeForbids
  else if i.s && !(op == 0x31 || op == 0x40 || op == 0x04) then some .badOperand
  else if i.target == 0xFFFF && !takesAll op then some .badOperand
  else none

/-! ### Completions -/

/-- R93: the completion of a journal entry whose slot is filled. -/
def State.complOf (s : State) (e : JEntry) (d : Done) (held : Bool) : Compl :=
  let slot := match s.queue e.q with | some x => x.slotOf e.idx | none => e.idx.toNat
  { cookie := e.ins.cookie, queue := e.queue, slot := BitVec.ofNat 16 slot, status := d.status, gen := e.ran, a := d.a, b := d.b,
    flags := flag 8 held 1 ||| flag 8 (s.top.mode = .adopted) 2 }

/-- R88: the completion of an INJECT entry whose outcome is known. -/
def State.complOfInj (s : State) (e : Inj) (reason : Byte) (held : Bool) : Compl :=
  let slot := match s.queue e.queue.toNat with | some x => x.slotOf e.idx | none => e.idx.toNat
  { cookie := e.cookie, queue := e.queue.setWidth 16, slot := BitVec.ofNat 16 slot,
    status := if reason = 0 then .ok else .notSent, gen := e.gen,
    a := if reason = 0 then BitVec.ofNat 64 (e.lenMinus1.toNat + 1) else 0, b := z64 reason,
    flags := flag 8 held 1 ||| flag 8 (s.top.mode = .adopted) 2 }

/-- A completion whose write into its ring begins. -/
def State.markPosting (s : State) (src : HeldSrc) : State :=
  match src with
  | .cmd jid => s.updEntry jid fun e => { e with posting := true }
  | .inj iid => s.setInj (updFirst (fun e => e.iid == iid) (fun e => { e with posting := true }) s.qs.inj)
  | .notice _ => s

/-- Writes a completion entry into its ring. -/
def State.writeCompl (s : State) (cq : QId) (src : HeldSrc) (c : Compl) (fire : Bool) : State :=
  (s.markPosting src).writeEntry cq.toNat { body := complBytes c, fire := fire, owner := some src }

/-- R367: the domains whose UNVOTE has now been completed begin entry in the next AON cycle; done where the completion leaves
the journal. -/
def State.releaseDeferred (s : State) (jid : Nat) : State :=
  let (now, later) := s.power.deferred.partition fun d => d.2 == jid
  let s := { s with power := { s.power with deferred := later } }
  s.forEach now fun s d => s.setDom d.1 { s.dom d.1 with leaving := true }

/-- R75: a QDESTROY of the queue has begun and not completed. -/
def State.destroying (s : State) (t : Nat) : Bool :=
  s.pm.journal.any fun e => e.op == 0x11 && e.started && e.st != .completed && e.ins.target.toNat == t

/-- What a completion reports, when it has been written into its ring: the entry leaves the journal or the INJECT list, or the
notice is done. A queue whose QDESTROY a cold reset has ended goes with its notice. -/
def State.written (s : State) (src : HeldSrc) : State :=
  match src with
  | .cmd jid => (s.dropEntry jid).releaseDeferred jid
  | .inj iid =>
    let s := match s.qs.inj.find? fun e => e.iid == iid with | some e => s.mirrorInj e true | none => s
    s.setInj (dropFirst (fun e => e.iid == iid) s.qs.inj)
  | .notice q => match s.queue q.toNat with
    | some x =>
      if x.closing && x.notice.map (·.status) == some .ok && !s.destroying q.toNat then (s.setQueueOpt q.toNat none).mirrorQueue q.toNat
      else s.setQueue q.toNat { x with notice := none }
    | none => s

/-- The entries at the front of a ring that have been answered: they have been written, and what they report is done (R95, R404). -/
def State.settleFront (s : State) (q : Nat) : State :=
  match s.queue q with
  | none => s
  | some x =>
    let s := s.setQueue q { x with inflight := x.inflight.dropWhile fun kv => kv.2.answered }
    s.forEach (x.inflight.takeWhile fun kv => kv.2.answered) fun s kv => match kv.2.owner with | some src => s.written src | none => s

/-- The completion a source stands for now, with the fire demand of I (R45). -/
def State.complFor (s : State) (src : HeldSrc) (held : Bool) : Option (Compl × Bool) :=
  match src with
  | .cmd jid => match s.entry jid with
    | some e => e.slot.map fun d => (s.complOf e d (held || e.replay), e.ins.i)
    | none => none
  | .inj iid => match s.qs.inj.find? (fun e => e.iid == iid) with
    | some e => e.outcome.map fun r => (s.complOfInj e r (held || e.replay), false)
    | none => none
  | .notice q => match s.queue q.toNat with
    | some x => x.notice.map fun c => ({ c with flags := c.flags ||| flag 8 held 1 }, false)
    | none => none

/-- Marks the source as held in a pigeonhole. -/
def State.markHeld (s : State) (src : HeldSrc) : State :=
  match src with
  | .cmd jid => s.updEntry jid fun e => { e with held := true }
  | .inj iid => s.setInj (updFirst (fun e => e.iid == iid) (fun e => { e with held := true }) s.qs.inj)
  | .notice _ => s

/-- R96: a ready completion goes into its ring, or into a pigeonhole when the ring is full, stopped, or has completions
held for it. -/
def State.place (s : State) (cq : QId) (src : HeldSrc) : State :=
  match s.queue cq.toNat, s.complFor src false with
  | some x, some (c, fire) =>
    if x.room = 0 || x.stopped || s.heldFor cq then
      let s := s.markHeld src
      { s with qs := { s.qs with held := s.qs.held ++ [(cq, src)] } }
    else s.writeCompl cq src c fire
  | _, _ => s

/-- Held completions leave in the order in which they were held, into free entries of a running ring (R96); `fuel` bounds
their number. -/
def State.drainHeld : Nat → QId → State → State
  | 0, _, s => s
  | fuel + 1, cq, s =>
    match s.qs.held.find? (fun h => h.1 == cq), s.queue cq.toNat with
    | some (_, src), some x =>
      if x.room = 0 || x.stopped then s
      else
        let s' := { s with qs := { s.qs with held := dropFirst (fun h => h.1 == cq) s.qs.held } }
        match s'.complFor src true with
        | some (c, fire) => State.drainHeld fuel cq (s'.writeCompl cq src c fire)
        | none => State.drainHeld fuel cq s'
    | _, _ => s

/-- R94: the next completion of a submission queue: that of its oldest entry not yet held, if that one is ready. Reports of
ABANDONED_COLD wait for PROVISION (R403). -/
def State.nextReady (s : State) (q : Nat) : Option HeldSrc :=
  match s.pm.journal.find? fun e => e.q == q && !e.held && !e.posting with
  | some e => match e.slot with
    | some d => if e.st = .completed && !e.awaits && !(d.status = .abandonedCold && s.top.mode = .cold) then some (.cmd e.id) else none
    | none => none
  | none => match s.qs.inj.find? fun e => e.queue.toNat == q && !e.held && !e.posting with
    | some e => if e.outcome.isSome && s.top.mode != .cold then some (.inj e.iid) else none
    | none => none

/-- Posts the next ready completion of a submission queue. -/
def State.postNext (s : State) (q : Nat) : State :=
  match s.queue q, s.nextReady q with
  | some x, some src => s.place x.cq src
  | _, _ => s

/-- Posts every ready completion of a queue; `fuel` bounds their number. -/
def State.postAll : Nat → Nat → State → State
  | 0, _, s => s
  | fuel + 1, q, s => if (s.nextReady q).isSome then State.postAll fuel q (s.postNext q) else s

/-- Posts every ready completion of every queue. -/
def State.postEverything (s : State) : State :=
  s.forEach (s.qs.tab.map (·.1)) fun s q => State.postAll (s.outstanding q) q s

/-! ### The end of an instruction -/

/-- A routine ends: R45, R55, R404. A monitor command answers on its line (R446). -/
def State.finish (s : State) (jid : Nat) (st : Status) (a b : DWord) : State :=
  match s.entry jid with
  | none => s
  | some e =>
    let st := if st = .ok && e.rolled then .retriedAfterCheck else st
    let s := if s.pm.burstOf = some jid then { s with pm := { s.pm with burst := 0, burstOf := none } } else s
    if e.queue = 0xFFFF#16 then
      ({ s.dropEntry jid with mon := { s.mon with busy := none } }.emit (.mon (.exec st a b))).releaseDeferred jid
    else if st = .ok && !e.ins.c then (s.dropEntry jid).releaseDeferred jid
    else
      let gen := s.genOf e.q e.gen
      (s.updEntry jid fun e =>
        { e with st := .completed, routine := none, rd := none, slot := some ⟨st, a, b⟩, ran := gen }).mirrorJid jid

/-- The cursor a routine defines (R46, R341): the next entry of PAIRWR, g15 of an open routine. -/
def Routine.cursor? (i : Ins) : Routine → Option (BitVec 48)
  | .pairwr d _ _ => some (BitVec.ofNat 48 ((fld i.b 0 24).toNat + d))
  | .openRun o => some ((o.saved.getD 6 0).setWidth 48)
  | _ => none

/-- The step number of the progress mark: the count of steps, and g14 of an open routine (R341). -/
def Routine.mark (r : Routine) (before : BitVec 16) : BitVec 16 :=
  match r with | .openRun o => (o.saved.getD 5 0).setWidth 16 | _ => before + 1

/-- A step commits and the routine goes on (R49). The cursor of a routine that defines none is a free value (log
entry 24). -/
def State.commitStep (s : State) (jid : Nat) (r : Routine) : State :=
  match s.entry jid with
  | none => s
  | some e =>
    let (cur, s) := match r.cursor? e.ins with
      | some c => (c, s)
      | none => s.takeFree 48
    let burst := if s.pm.burstOf = some jid then s.pm.burst + 1 else 1
    let s := { s with pm := { s.pm with burst := burst, burstOf := some jid } }
    (s.updEntry jid fun e =>
      { e with st := .committed, routine := some r, step := r.mark e.step, cursor := cur, emitted := 0, mism := 0 }).mirrorJid jid

/-- Takes the answer of a step. -/
def State.absorb (jid : Nat) : Ran → State
  | .done st a b s => s.finish jid st a b
  | .more r s => s.commitStep jid r
  | .wait r s =>
    ({ s with pm := { s.pm with burst := if s.pm.burstOf = some jid then s.pm.burst else 0, burstOf := some jid } }).updEntry jid
      fun e => { e with st := .running, routine := some r }
  | .release r s =>
    (({ s with pm := { s.pm with burst := if s.pm.burstOf = some jid then s.pm.burst else 0, burstOf := some jid } }).updEntry jid
      fun e => { e with st := .committing, routine := some r }).mirrorJid jid

/-- R51: the pair returns to its last commit point: what the steps under way have read is dropped. A step found committing runs again
(R52): the data that KEYLOAD and STATREAD hold outside the pair stand (R287, R231). Of an open step, what has been released stands (R344). -/
def JEntry.rollBack (e : JEntry) : JEntry :=
  match e.routine with
  | some (.openRun o) =>
    { e with routine := some (.openRun { saved := o.saved, sub := o.sub, answers := o.answers, released := o.released }), rd := none }
  | _ =>
  if e.st = .running then { e with rd := none } else e

/-- A step of a waiting routine takes a microsecond. -/
def State.microPasses (s : State) : State := { s with pm := { s.pm with micros := s.pm.micros + 1 } }

/-- Every routine returns to its last commit point. -/
def State.rollBackAll (s : State) : State := s.setJournal (s.pm.journal.map JEntry.rollBack)

/-! ### Turns (R43, R44, R46) -/

/-- The pair can run: in ADOPTED the twin, as long as there is one, executes the commands; otherwise both units in lockstep, or the unit that runs
alone, with HOST (R21, R56, R362). -/
def State.pmRuns (s : State) : Bool :=
  s.isOn dHOST && s.top.resetting == .none && !s.pm.testing &&
    ((s.top.mode == .adopted && s.casc.twin == .adopted)
      || (s.top.mode != .adopted && s.pm.fit && match s.pm.alone.toNat with
          | 1 => s.isOn dPMA | 2 => s.isOn dPMB | _ => s.isOn dPMA && s.isOn dPMB))

/-- The routine that has begun and not completed under `burstOf`. -/
def State.holder (s : State) : Option JEntry :=
  match s.pm.burstOf with
  | some j => (s.entry j).filter fun e => e.started && e.st != .completed
  | none => none

/-- R57: background activity that a queue's instructions started and that has not finished. -/
def State.backgroundRuns (s : State) (queue : BitVec 16) : Bool := s.pm.background.any fun b => b.1 == queue

/-- R57: the condition of F: no earlier entry of the queue remains, nor background activity it started. -/
def State.fenceHolds (s : State) (e : JEntry) : Bool :=
  (match s.pm.journal.find? fun x => x.queue == e.queue with | some x => x.id == e.id | none => true)
    && !s.backgroundRuns e.queue

/-- The fence of an entry, if it has one, holds: F, and FENCE itself (R57). -/
def State.fenceMet (s : State) (e : JEntry) : Bool := !(e.ins.f || e.op == 0x04) || s.fenceHolds e

/-- R352: the queue's instruction waits for the reload of a control-store word. -/
def State.reloading (s : State) (q : Nat) : Bool := s.cs.reloads.any fun r => r.waiters.contains q

/-- A queue's consumed entry waits for the Postmaster: its oldest has begun, or could begin now. -/
def State.waits (s : State) (q : Nat) : Bool :=
  match s.oldest q with | some e => (e.started || (!e.awaits && s.fenceMet e)) && !s.reloading q | none => false

/-- The queues other than `but` that wait, in the order of their numbers; the monitor's commands come last (R446). -/
def State.waiting (s : State) (but : Option Nat) : List Nat :=
  (List.map Prod.fst s.qs.tab ++ [0xFFFF]).filter fun q => some q != but && s.waits q

/-- R44: queue 0 if it waits, otherwise the next waiting queue after the one served last. The order of the round is that of the
queue numbers (log entry 53). -/
def State.nextQueue (s : State) (but : Option Nat) : Option Nat :=
  let ws := s.waiting but
  if ws.contains 0 then some 0 else (ws.find? fun q => decide (s.pm.lastQ < q)).or ws.head?

/-- R44: the queue whose turn it is. A routine gives way at a commit point only: to queue 0 at once, to another queue after every 16
steps (log entry 57). -/
def State.scheduled (s : State) : Option Nat :=
  match s.holder with
  | some h =>
    if h.st == .running || h.st == .committing then some h.q
    else if h.q != 0 && s.waits 0 then some 0
    else if s.pm.burst != 0 && s.pm.burst % 16 == 0 then (s.nextQueue (some h.q)).or (some h.q)
    else some h.q
  | none => s.nextQueue none

/-- R44: an entry may take its turn. -/
def State.turn (s : State) (e : JEntry) : Bool := s.scheduled == some e.q

/-- An emission of an entry's step is counted as it is released (R50). -/
def State.countEmission (s : State) (jid : Nat) : State := s.updEntry jid fun e => { e with emitted := e.emitted + 1 }

/-- R46: the routine that yields posts OK_PARTIAL if C is set and its ring has a free entry, once at a commit point (R50). -/
def State.yieldPost (s : State) (h : JEntry) : State :=
  match s.queue h.q with
  | some x => match s.queue x.cq.toNat with
    | some y =>
      if h.ins.c && h.emitted == 0 && decide (0 < y.room) && !y.stopped && !s.heldFor x.cq then
        (s.countEmission h.id).writeEntry x.cq.toNat
          { body := complBytes (s.complOf h ⟨.okPartial, at' 64 h.step 48 ||| at' 64 h.cursor 0, 0⟩ false) }
      else s
    | none => s
  | none => s

/-- The Postmaster turns to an entry. -/
def State.servedNow (s : State) (e : JEntry) : State :=
  { s with pm := { s.pm with burst := 0, burstOf := some e.id, lastQ := if e.q = 0 then s.pm.lastQ else e.q } }

/-- The turn passes to an entry. -/
def State.takeTurn (s : State) (e : JEntry) : State :=
  match s.holder with
  | some h =>
    if h.id = e.id then s
    else (s.yieldPost h).servedNow e
  | none => s.servedNow e

/-- The entry a queue may start now: its oldest that has not completed, if it has not begun, and its turn and its fence
hold. -/
def State.startable (s : State) (q : Nat) : Option JEntry :=
  match s.oldest q with
  | some e => if s.pmRuns && !e.started && !e.awaits && s.turn e && s.fenceMet e && !s.reloading q then some e else none
  | none => none

/-- The entry of a queue whose routine may go on now. -/
def State.resumable (s : State) (q : Nat) : Option JEntry :=
  match s.oldest q with
  | some e => if s.pmRuns && e.started && s.turn e && !s.reloading q then some e else none
  | none => none

/-- Step 0 of an instruction: checks 1 to 3, then its own start. -/
def State.launch (s : State) (e : JEntry) (run : Nat → BitVec 16 → Ins → State → Ran) : State :=
  let gen := s.genOf e.q e.gen
  let s := (s.takeTurn e).updEntry e.id fun e => { e with st := .running, ran := gen }
  -- the monitor's exec runs as queue 0 would (R446)
  match preCheck s e.op (if e.queue = 0xFFFF then 0 else e.queue) e.ins with
  | some st => s.finish e.id st 0 0
  | none => State.absorb e.id (run e.id e.queue e.ins s)

/-- An instruction row: the queue's next entry starts if it is this instruction with these operands; otherwise nothing
happens (log entry 7). -/
def State.begin (s : State) (q : QId) (op : Byte) (sel : Bool) (i : Ins) (run : Nat → BitVec 16 → Ins → State → Ran) : State :=
  match s.startable q.toNat with
  | some e => if e.op = op && e.ins = i && sel then s.launch e run else s
  | none => s

/-- The result of an instruction row: always a next state. -/
def begins (q : QId) (op : Byte) (sel : Bool) (i : Ins) (run : Nat → BitVec 16 → Ins → State → Ran) (s : State) :
    Host.Outcome State Fault Refusal := .next (s.begin q op sel i run)

end Machine
end Sys2Proof
end

