-- ==== Sys2Proof/Machine/Control.lean ====
section
/-! DEFINITION. The control and parameter instructions: NOP, SET, GET, SETBLK, WAITFOR, SKIPIF, SIGNAL (R58 to R60, R68, R506) and
MODE (R26 to R31). -/

namespace Sys2Proof
namespace Machine

/-- NOP. -/
def runNop (_ : Nat) (_ : BitVec 16) (_ : Ins) (s : State) : Ran := .ok 0 0 s

/-- NOP: the queue's next instruction, if it is this one. -/
def execNop (q : QId) (i : Ins) (s : State) : Host.Outcome State Fault Refusal := begins q 0x00 true i runNop s

/-- SET (R68, R493, R495). Result A is the word in force after the write. -/
def runSet (_ : Nat) (_ : BitVec 16) (i : Ins) (s : State) : Ran :=
  let a := i.a.toNat
  let mask := fld i.b 32 32
  let v := fld i.b 0 32
  match setCheck s a mask v with
  | some st => .bad st s
  | none => let s := s.applySet a mask v; .ok (z64 (s.peek a)) 0 s

/-- SET. -/
def execSet (q : QId) (i : Ins) (s : State) : Host.Outcome State Fault Refusal := begins q 0x01 true i runSet s

/-- GET (R68, R10, R229). -/
def runGet (_ : Nat) (_ : BitVec 16) (i : Ins) (s : State) : Ran :=
  let a := i.a.toNat
  let two := bitOf i.target 0
  match describe s a, describe s (a + 1) with
  | none, _ => .bad .badOperand s
  | some d, d2 =>
    if two && d2.isNone then .bad .badOperand s
    else if !s.regionOn a || (two && !s.regionOn (a + 1)) then .bad .targetAsleep s
    else
      let (lo, s) := s.readMapped .postmaster d a
      if two then match describe s (a + 1) with
        | some d2 => let (hi, s) := s.readMapped .postmaster d2 (a + 1); .ok (hi ++ lo : BitVec 64) 0 s
        | none => .ok (z64 lo) 0 s
      else .ok (z64 lo) 0 s

/-- GET. -/
def execGet (q : QId) (i : Ins) (s : State) : Host.Outcome State Fault Refusal := begins q 0x02 true i runGet s

/-! ### SETBLK -/

/-- The words of a host image. -/
def imageWords (bs : List Byte) (n : Nat) : List Word :=
  (List.range n).map fun k => BitVec.ofNat 32 (leNat (slice bs (4 * k) 4))

/-- The first word of a step that fails, with its status (R506). -/
def blockCheck (s : State) (a : Nat) : List Word → Option (Nat × Status)
  | [] => none
  | v :: t =>
    match blockMask s a with
    | none => some (a, .badOperand)
    | some m => match setCheck s a m v with
      | some st => some (a, st)
      | none => blockCheck s (a + 1) t

/-- The words of a step, written in address order. -/
def applyBlock (s : State) (a : Nat) : List Word → State
  | [] => s
  | v :: t => applyBlock (match blockMask s a with | some m => s.applySet a m v | none => s) (a + 1) t

/-- A step of SETBLK: up to 256 words after the `done` already written. -/
def stepSetblk (jid : Nat) (i : Ins) (done : Nat) (s : State) : Ran :=
  let total := i.target.toNat
  let n := min 256 (total - done)
  let base : HostAddr := i.b.setWidth 57 + BitVec.ofNat 57 (4 * done)
  match s.fetchHost jid base (4 * n) with
  | .wait s => .wait (.setblk done) s
  | .failed at_ s => .done .dmaBusError (BitVec.ofNat 64 done) (z64 at_) s
  | .data bs s =>
    let ws := imageWords bs n
    let a := i.a.toNat + done
    match blockCheck s a ws with
    | some (bad, st) => .done st (BitVec.ofNat 64 done) (BitVec.ofNat 64 bad) s
    | none =>
      let s := applyBlock s a ws
      if total ≤ done + n then .ok (BitVec.ofNat 64 total) 0 s else .more (.setblk (done + n)) s

/-- SETBLK: 1 to 4,096 words from a 4-byte aligned image. -/
def runSetblk (jid : Nat) (_ : BitVec 16) (i : Ins) (s : State) : Ran :=
  if i.target = 0 || 4096 < i.target.toNat || !hostAddrOk i.b 4 then .bad .badOperand s
  else if (describe s i.a.toNat).isSome && !s.regionOn i.a.toNat then .bad .targetAsleep s
  else stepSetblk jid i 0 s

/-- SETBLK. -/
def execSetblk (q : QId) (i : Ins) (s : State) : Host.Outcome State Fault Refusal := begins q 0x03 true i runSetblk s

/-! ### WAITFOR and SKIPIF -/

/-- R58: the masked comparison. -/
def testHolds (i : Ins) (v : Word) : Bool :=
  let mask := fld i.b 32 32
  let want := fld i.b 0 32 &&& mask
  let got := v &&& mask
  match (fld i.target 14 2).toNat with
  | 0 => got == want | 1 => got != want | 2 => decide (want.toNat ≤ got.toNat) | _ => decide (got.toNat < want.toNat)

/-- A poll of WAITFOR, whose first poll was at `since` and whose last one read `last` (R58). -/
def stepWaitfor (i : Ins) (since : Nat) (last : Word) (s : State) : Ran :=
  match describe s i.a.toNat with
  | none => .bad .badOperand s
  | some d =>
    if !s.regionOn i.a.toNat then .done .targetAsleep (z64 last) 0 s
    else
      let (v, s) := s.readMapped .postmaster d i.a.toNat
      if testHolds i v then .ok (z64 v) 0 s
      else if 64 * (fld i.target 0 14).toNat ≤ s.pm.micros - since then .done .timeout (z64 v) 0 s
      else .more (.waitfor since v) s.microPasses

/-- WAITFOR. -/
def runWaitfor (_ : Nat) (_ : BitVec 16) (i : Ins) (s : State) : Ran := stepWaitfor i s.pm.micros 0 s

/-- WAITFOR. -/
def execWaitfor (q : QId) (i : Ins) (s : State) : Host.Outcome State Fault Refusal := begins q 0x05 true i runWaitfor s

/-- Entries of a queue accepted after an identifier and not begun. -/
def State.behind (s : State) (q jid : Nat) : List Nat :=
  (s.pm.journal.filter fun e => e.q == q && decide (jid < e.id) && e.st == .accepted).map (·.id)

/-- R59: an entry is journaled as skipped, and leaves the journal; one that the twin has still to retain leaves once it has. -/
def State.skipEntry (s : State) (jid : Nat) : State :=
  let s := (s.updEntry jid fun e => { e with st := .skipped }).mirrorJid jid
  match s.entry jid with
  | some e => if e.awaits then s else s.dropEntry jid
  | none => s

/-- R59: the next `n` entries of the queue are skipped: those already accepted at once, the rest are the pending skip count (log
entry 25). -/
def State.skipNext (s : State) (q jid n : Nat) : State :=
  let now := (s.behind q jid).take n
  let s := s.forEach now State.skipEntry
  match s.queue q with
  | some x => (s.setQueue q { x with skip := BitVec.ofNat 8 (n - now.length) }).mirrorQueue q
  | none => s

/-- SKIPIF (R59). -/
def runSkipif (jid : Nat) (queue : BitVec 16) (i : Ins) (s : State) : Ran :=
  let n := (fld i.target 0 8).toNat
  match describe s i.a.toNat with
  | none => .bad .badOperand s
  | some d =>
    if n = 0 then .bad .badOperand s
    else if !s.regionOn i.a.toNat then .bad .targetAsleep s
    else
      let (v, s) := s.readMapped .postmaster d i.a.toNat
      if testHolds i v then .ok (BitVec.ofNat 64 n) 0 (s.skipNext queue.toNat jid n) else .ok 0 0 s

/-- SKIPIF. -/
def execSkipif (q : QId) (i : Ins) (s : State) : Host.Outcome State Fault Refusal := begins q 0x06 true i runSkipif s

/-! ### SIGNAL -/

/-- R60, R40: a SIGNAL's operands. -/
def signalOk (i : Ins) : Bool :=
  (i.ext == 0 || (hostAddrOk (fld i.e0 0 64) 8)) && (decide (i.target.toNat < 2048) || i.target == 0xFFFF)

/-- R60: the write, then the vector; each is counted as it is released (R50). -/
def State.signal (s : State) (jid : Nat) (i : Ins) : State :=
  let s := if i.ext = 0 then s
    else (s.queueWrite (fld i.e0 0 57) (leBytes 8 i.b.toNat) false .none).countEmission jid
  if i.target = 0xFFFF then s else (s.fireVector i.target.toNat).countEmission jid

/-- R60: a completion of the queue is being posted: its phase byte has not been issued. -/
def State.postingNow (s : State) (q : Nat) : Bool :=
  match s.queue q with
  | none => false
  | some x => match s.queue x.cq.toNat with
    | none => false
    | some y => y.inflight.any fun kv => !kv.2.phased && match kv.2.owner with
        | some (.cmd j) => (s.entry j).any fun e => e.q == q
        | _ => false

/-- A step of SIGNAL. The completions of its queue that are ready are posted first; its emissions are released once every one that is
being posted has been written, so that R4 orders them (R60, log entry 115). Its completion does not wait for the answer to its posted
write: R68 lists no other status for it. -/
def stepSignal (jid : Nat) (queue : BitVec 16) (i : Ins) (s : State) : Ran :=
  let s := State.postAll s.pm.journal.length queue.toNat s
  if s.postingNow queue.toNat then .release .signal s else .ok 0 0 (s.signal jid i)

/-- SIGNAL. -/
def runSignal (jid : Nat) (queue : BitVec 16) (i : Ins) (s : State) : Ran :=
  if signalOk i then stepSignal jid queue i s else .bad .badOperand s

/-- SIGNAL. -/
def execSignal (q : QId) (i : Ins) (s : State) : Host.Outcome State Fault Refusal := begins q 0x07 true i runSignal s

/-! ### MODE -/

/-- R409: every returned queue's generation rises by one. -/
def State.bumpQueues (s : State) : State :=
  s.forEach (s.qs.tab.map (·.1)) fun s q => match s.queue q with
    | some x => (s.setQueue q { x with gen := x.gen + 1 }).mirrorQueue q
    | none => s

/-- R115: every port is in state DOWN. -/
def State.allDown (s : State) : Bool := s.ports.all fun kv => kv.2.st == .down

/-- R28, R29: the mode MODE enters, none where it is refused. -/
def modeTarget (s : State) (queue : BitVec 16) (tgt : Mode) : Option State :=
  match s.top.mode, tgt with
  | .cold, .provision =>
    if queue = 0 && s.top.ready && !s.top.coldBar then some ((s.enterMode .provision 0x01).postEverything) else none
  | .provision, .service =>
    if s.cs.vendorLoaded && s.cs.verified then
      some ({ s.enterMode .service 0x01 with pm := { s.pm with fromStore := true } }).refreshReplicas
    else none
  | .service, .provision =>
    if s.allDown then some { s.enterMode .provision 0x01 with pm := { s.pm with fromStore := false } } else none
  | .adopted, .service =>
    if s.pm.fit then some { (s.enterMode .service 0x06).bumpQueues with casc := { s.casc with twin := .bound } } else none
  | _, _ => none

/-- MODE. A code that names no mode is BAD_OPERAND once the mode check has passed: in COLD and ADOPTED only one target
passes it. -/
def runMode (_ : Nat) (queue : BitVec 16) (i : Ins) (s : State) : Ran :=
  match Mode.ofCode (fld i.a 0 4) with
  | none => .bad (if s.top.mode = .cold || s.top.mode = .adopted then .modeForbids else .badOperand) s
  | some m => match modeTarget s queue m with
    | some s => .ok (z64 (fld (modeWord s.top) 0 16)) 0 s
    | none => .bad .modeForbids s

/-- MODE. -/
def execMode (q : QId) (i : Ins) (s : State) : Host.Outcome State Fault Refusal := begins q 0x18 true i runMode s

end Machine
end Sys2Proof
end

