-- ==== Sys2Proof/Machine/Queues.lean ====
section
/-! DEFINITION. Queues and rings (03): QCREATE, QDESTROY, QMODIFY; doorbells, polls, fetches, acceptance, head write-back,
completions, moderation and interrupt vectors. -/

namespace Sys2Proof
namespace Machine

/-! ### Fetching (R83, R84) -/

/-- The queue engine runs: HOST is on and no reset holds it (R400). -/
def State.engineRuns (s : State) : Bool := s.isOn dHOST && s.top.resetting == .none

/-- An index that is being read or has been read. -/
def Queue.inHand (x : Queue) (j : RIdx) : Bool := x.fetches.any (fun f => f.idx == j) || x.ready.any (fun r => r.1 == j)

/-- Issues the read of one entry. -/
def State.issueFetch (s : State) (q : Nat) (j : RIdx) (second : Bool) : State :=
  match s.queue q with
  | some x =>
    (s.setQueue q { x with fetches := x.fetches ++ [{ idx := j, tail := x.tail, second := second }] }).queueRead (x.entryAddr j) 64
      (.entry (qid q) j)
  | none => s

/-- Reads the entries below the tail among the eight from the consumed head that are not in hand. -/
def State.fetchBelow (s : State) (q : Nat) : State :=
  match s.queue q with
  | some x =>
    if !s.engineRuns || x.stopped || !x.submits then s
    else s.forEach (List.range (min 8 (x.dist x.tail x.head))) fun s k =>
      let j := x.advance x.head k
      match s.queue q with | some y => if y.inHand j then s else s.issueFetch q j false | none => s
  | none => s

/-- After the head has moved: the entry that comes into the window of eight. -/
def State.fetchNext (s : State) (q : Nat) : State :=
  match s.queue q with
  | some x =>
    let j := x.advance x.head 7
    if s.engineRuns && !x.stopped && decide (7 < x.dist x.tail x.head) && !x.inHand j then s.issueFetch q j false else s
  | none => s

/-! ### Contexts (R72 to R75) -/

/-- A COMPLETION queue. -/
def State.isCompletion (s : State) (q : Nat) : Bool :=
  match s.queue q with | some x => x.kind == .completion | none => false

/-- The fields a kind does not use are reserved or 0: reserved ones are ignored (R9) and held as 0. -/
def Queue.clean (x : Queue) : Queue :=
  let sub := x.submits
  { x with headWb := if sub then x.headWb else 0, slotSize := if x.kind = .punt then x.slotSize else 0,
           puntBase := if x.kind = .punt then x.puntBase else 0, tsQueue := if x.kind = .inject then x.tsQueue else 0,
           cq := if x.kind = .completion then 0 else x.cq }

/-- R72, R73: ranges, alignment and bindings of a context for target `t`. -/
def State.ctxOk (s : State) (t : Nat) (x : Queue) : Bool :=
  let sub := x.submits
  x.kind != .admin && x.base.toNat % 4096 == 0 && decide (x.size.toNat ≤ 12)
    && (if sub then decide (1 ≤ x.maxOut.toNat ∧ x.maxOut.toNat ≤ 32768) && x.headWb != 0 && x.headWb.toNat % 8 == 0
            && x.modCount == 0 && x.modTime == 0
        else x.maxOut == 0 && x.modCount != 0)
    && (x.kind != .punt || decide (x.slotSize.toNat ≤ 6))
    && (x.kind == .completion || s.isCompletion x.cq.toNat)
    && (x.kind != .inject || x.tsQueue == 0 || s.isRecordQueue x.tsQueue.toNat)
    && decide (s.reservedTotal - ((s.queue t).map (·.maxOut.toNat) |>.getD 0) + x.maxOut.toNat ≤ Config.pigeonholes)

/-- The context in extension words 0 and 1. -/
def ctxOf (i : Ins) : Option Queue := (queueOfCtx (i.e1 ++ i.e0 : BitVec 256)).map Queue.clean

/-- QCREATE (R73). -/
def runQcreate (_ : Nat) (_ : BitVec 16) (i : Ins) (s : State) : Ran :=
  let t := i.target.toNat
  match ctxOf i with
  | none => .bad .badOperand s
  | some x =>
    if t = 0 || 4096 ≤ t || (s.queue t).isSome || !s.ctxOk t x then .bad .badOperand s
    else .ok 0 0 ((s.setQueue t x).mirrorQueue t)

/-- QCREATE. -/
def execQcreate (q : QId) (i : Ins) (s : State) : Host.Outcome State Fault Refusal := begins q 0x10 true i runQcreate s

/-- R74: the fields QMODIFY may not change agree. -/
def sameFixed (x y : Queue) : Bool :=
  x.kind == y.kind && x.base == y.base && x.size == y.size && x.cq == y.cq && x.headWb == y.headWb
    && x.slotSize == y.slotSize && x.tsQueue == y.tsQueue && x.puntBase == y.puntBase

/-- QMODIFY (R74). Result A is the placement generation. -/
def runQmodify (_ : Nat) (_ : BitVec 16) (i : Ins) (s : State) : Ran :=
  let t := i.target.toNat
  match s.queue t, ctxOf i with
  | some x, some y =>
    if t ≤ 1 || x.closing || !s.ctxOk t y || !sameFixed x y then .bad .badOperand s
    else
      -- with poll 0 an entry beyond the tail is not accepted (R84)
      let ready := if y.poll = 0 then x.ready.filter fun r => decide (x.dist r.1 x.head < x.dist x.tail x.head) else x.ready
      .ok (z64 x.gen) 0 ((s.setQueue t { x with poll := y.poll, vector := y.vector, irqEn := y.irqEn, ready := ready,
                                                modCount := y.modCount, modTime := y.modTime, maxOut := y.maxOut }).mirrorQueue t)
  | _, _ => .bad .badOperand s

/-- QMODIFY. -/
def execQmodify (q : QId) (i : Ins) (s : State) : Host.Outcome State Fault Refusal := begins q 0x12 true i runQmodify s

/-- R75: a queue that another names: a COMPLETION queue with one bound to it, a RECORD queue with a producer. -/
def State.named (s : State) (t : Nat) (x : Queue) : Bool :=
  match x.kind with
  | .completion => s.qs.tab.any fun kv => match kv.2 with
      | some y => y.kind != .completion && y.cq.toNat == t | none => false
  | .record => s.reg.recordQueue.toNat == t || s.guardQueue.toNat == t || s.sec.eventQueue.toNat == t
      || s.time.pipeTsQueue.toNat == t
      || s.qs.tab.any fun kv => match kv.2 with | some y => y.kind == .inject && y.tsQueue.toNat == t | none => false
  | _ => false

/-- R75: QDESTROY reports unstarted entries of a queue (A[0] = 1). -/
def State.reporting (s : State) (t : Nat) : Bool :=
  s.pm.journal.any fun e => e.op == 0x11 && e.started && e.st != .completed && e.ins.target.toNat == t && bitOf e.ins.a 0

/-- R75: entries that QDESTROY has reported: a submission queue's consumed head has moved past them. -/
def Queue.reported (x : Queue) (head0 : Nat) : Nat := if x.submits then x.dist x.head (BitVec.ofNat 17 head0) else 0

/-- R75: the notice of a destroyed queue. Its cookie is a free value (log entry 26). A PUNT or RECORD queue has no consumed head: that its
notice gives the stored host head in ring index and result B is the model's choice (log entry 116). -/
def noticeOf (t : Nat) (x : Queue) (count : Nat) (cookie : DWord) : Compl :=
  { cookie := cookie, queue := BitVec.ofNat 16 t, slot := BitVec.ofNat 16 (x.slotOf x.head), flags := 0x08, gen := x.gen,
    a := BitVec.ofNat 64 count, b := z64 x.head }

/-- R75: something that QDESTROY waits for is left: an entry to report, accepted work without its final completion, a notice, an entry
or a punt being written. -/
def State.unfinished (s : State) (t : Nat) (x : Queue) (report : Bool) : Bool :=
  (report && x.submits && !x.stopped && x.head != x.tail) || s.outstanding t != 0 || x.notice.isSome
    || !x.inflight.isEmpty || !x.heldWrites.isEmpty || (s.frames.rx.any fun f => f.punting.map (·.1.toNat) == some t)

/-- A step of QDESTROY, from the consumed head at its start; `posted` holds the count once the notice has been posted (R75). The queue
ends, and with it its reservation, when the notice has been written (R404). -/
def stepQdestroy (i : Ins) (head0 : Nat) (posted : Option Nat) (s : State) : Ran :=
  let t := i.target.toNat
  match s.queue t with
  | none => .bad .badOperand s
  | some x => match posted with
    | some count =>
      if x.notice.isSome then .more (.qdestroy head0 posted) s.microPasses
      else .ok (BitVec.ofNat 64 count) 0 ((s.setQueueOpt t none).mirrorQueue t)
    | none =>
      let count := x.reported head0
      if s.unfinished t x (bitOf i.a 0) then .more (.qdestroy head0 none) s.microPasses
      else if x.kind = .completion then .ok (BitVec.ofNat 64 count) 0 ((s.setQueueOpt t none).mirrorQueue t)
      else
        let (cookie, s) := s.takeFree 64
        let s := s.setQueue t { x with notice := some (noticeOf t x count cookie) }
        .more (.qdestroy head0 (some count)) (s.place x.cq (.notice (qid t))).microPasses

/-- QDESTROY (R75). -/
def runQdestroy (_ : Nat) (_ : BitVec 16) (i : Ins) (s : State) : Ran :=
  let t := i.target.toNat
  match s.queue t with
  | none => .bad .badOperand s
  | some x =>
    if t ≤ 1 || x.closing || s.named t x then .bad .badOperand s
    else
      let s := s.setQueue t { x with closing := true, skip := 0, stopped := x.stopped && !x.submits }
      stepQdestroy i x.head.toNat none (if bitOf i.a 0 then s.fetchBelow t else s)

/-- QDESTROY. -/
def execQdestroy (q : QId) (i : Ins) (s : State) : Host.Outcome State Fault Refusal := begins q 0x11 true i runQdestroy s

/-! ### Doorbells (R78 to R80) -/

/-- R79: why a doorbell is ignored, none when it is accepted. A host head that lies more than N from the stored one is at once beyond the
last written entry (reason 0x4) and behind the stored head (0x5); that 0x5 is recorded is the model's choice (log entry 61). -/
def Queue.doorbellFault (x : Queue) (j : RIdx) : Option (BitVec 4) :=
  if 2 * x.n ≤ j.toNat then some 1
  else if x.submits then
    if x.n < x.dist j x.head then some 3 else if x.dist j x.head < x.dist x.tail x.head then some 5 else none
  else if x.n < x.dist j x.head then some 5 else if x.dist x.tail x.head < x.dist j x.head then some 4 else none

/-- R503: the first held entry of a stopped ring is written once more. -/
def State.retryHeld (s : State) (q : Nat) : State :=
  match s.queue q with
  | some x => match x.heldWrites with
    | e :: t => if x.stopped && !x.retrying then
        (s.setQueue q { x with heldWrites := t, retrying := true }).writeEntry q e else s
    | [] => s
  | none => s

/-- What a moved host head lets Ennos do: held entries and completions leave, records and gaps are generated (R96, R92,
R155, R224, R292). -/
def State.ringFreed (s : State) (q : Nat) : State :=
  let s := s.retryHeld q
  let s := State.drainHeld s.qs.held.length (qid q) s
  (State.flushGaps 65 s).flushPn.flushAllEvents

/-- A doorbell write (R78 to R80). -/
def State.doorbellWrite (s : State) (q : Nat) (j : RIdx) : State :=
  match s.queue q with
  | none => s.queueFault 2 (qid q)
  | some x => match x.doorbellFault j with
    | some r => s.queueFault r (qid q)
    | none =>
      let s := s.setDoorbell q j
      if x.submits then ((s.setQueue q { x with tail := j }).mirrorQueue q).fetchBelow q
      else ((s.setQueue q { x with head := j }).mirrorQueue q).ringFreed q

/-- QUEUE_DOORBELL. -/
def execQueueDoorbell (q : QId) (w : Word) (s : State) : Host.Outcome State Fault Refusal :=
  .next (s.doorbellWrite q.toNat (fld w 0 17))

/-- R84: a poll of an idle queue reads up to 8 entries from the consumed head. -/
def State.poll (s : State) (q : Nat) : State :=
  match s.queue q with
  | some x =>
    if s.engineRuns && x.submits && x.poll != 0 && !x.stopped && !x.closing && x.fetches.isEmpty && x.ready.isEmpty
        && s.usPassed x.poll.toNat x.polledAt then
      (s.setQueue q { x with polledAt := s.clock }).forEach (List.range 8) fun s k => s.issueFetch q (x.advance x.head k) false
    else s
  | none => s

/-- QUEUE_POLL. -/
def execQueuePoll (q : QId) (s : State) : Host.Outcome State Fault Refusal := .next (s.poll q.toNat)

/-- R83: what becomes of the data of a fetch. -/
def State.fetched (s : State) (q : Nat) (f : Fetch) (data : BitVec 512) : State :=
  match s.queue q with
  | none => s
  | some x =>
    let x := { x with fetches := dropFirst (fun g => g == f) x.fetches }
    let k := x.dist f.idx x.head
    let below := decide (k < x.dist f.tail x.head)
    -- a doorbell that came while the read was under way covers the entry: it is read again
    let again := if k < x.dist x.tail x.head then (s.setQueue q x).issueFetch q f.idx false else s.setQueue q x
    -- a read of an entry that has been accepted meanwhile is of no use
    if x.n ≤ k || x.inHand f.idx then s.setQueue q x
    else if bitOf data 511 != x.phase f.idx then (if below then s.setQueue q x else again)
    else if k < x.dist f.tail x.head && x.dist f.tail x.head ≤ x.n then
      s.setQueue q { x with ready := x.ready ++ [(f.idx, data)] }
    else if x.poll = 0 then again
    else if f.second then s.setQueue q { x with ready := x.ready ++ [(f.idx, data)] }
    else (s.setQueue q x).issueFetch q f.idx true

/-- ENTRY_FETCH: data for a read of index `idx`: one under way, or a speculative prefetch of up to 8 entries beyond the
tail (R83). -/
def execEntryFetch (q : QId) (idx : RIdx) (data : BitVec 512) (s : State) : Host.Outcome State Fault Refusal :=
  .next (match s.queue q.toNat with
    | some x =>
      match x.fetches.find? fun f => f.idx == idx with
      | some f =>
        let mine (r : Req) : Bool := r.owner == .entry q idx
        ({ s with dma := { s.dma with reqs := dropFirst mine s.dma.reqs, backlog := dropFirst mine s.dma.backlog } }).fetched
          q.toNat f data
      | none =>
        if s.engineRuns && x.submits && !x.stopped && decide (x.dist idx x.tail < 8) && !x.inHand idx
          && decide (idx.toNat < 2 * x.n) then
          s.fetched q.toNat { idx := idx, tail := x.tail } data
        else s
    | none => s)

/-! ### Acceptance (R41, R59, R75, R81, R84, R95) -/

/-- The consumed head passes the entry at the head; the stored tail never lags it (R84). -/
def Queue.pass (x : Queue) : Queue :=
  let h := x.advance x.head 1
  { x with head := h, tail := if x.head = x.tail then h else x.tail, wbOwed := true,
           ready := dropFirst (fun r => r.1 == x.head) x.ready }

/-- The entry at the consumed head, once it has been read and is usable. -/
def Queue.front (x : Queue) : Option (BitVec 512) := (x.ready.find? fun r => r.1 == x.head).map (·.2)

/-- Intake is open: not stopped, and not closed by a QDESTROY that leaves entries untouched. -/
def State.intake (s : State) (q : Nat) (x : Queue) : Bool :=
  s.engineRuns && !x.stopped && decide (s.outstanding q < x.maxOut.toNat)
    && (!x.closing || (s.reporting q && x.head != x.tail))

/-- R41: a journaled entry has been accepted: the consumed head passes it. A skipped entry leaves the journal with that (R59). -/
def State.retain (s : State) (e : JEntry) : State :=
  let s := s.updEntry e.id fun e => { e with awaits := false }
  let s := if e.st = .skipped then s.dropEntry e.id else s
  match s.queue e.q with
  | some x => ((s.setQueue e.q x.pass).mirrorQueue e.q).fetchNext e.q
  | none => s

/-- The journal entry that the entry at a queue's head becomes: skipped while a skip count is pending (R59), reported unstarted while
QDESTROY closes the queue (R75). -/
def Queue.journaled (x : Queue) (q id : Nat) (d : BitVec 512) : JEntry :=
  let (op, i) := insOfEntry d
  let e : JEntry := { id := id, queue := BitVec.ofNat 16 q, op := op, ins := i, raw := d, idx := x.head, gen := x.gen, ran := x.gen }
  if x.closing then { e with st := .completed, slot := some ⟨.abandonedCold, 0, 2⟩ }
  else if x.skip != 0 then { e with st := .skipped } else e

/-- R41: an entry of the queue is journaled here and has still to be retained by the twin. -/
def State.awaitsTwin (s : State) (q : Nat) : Bool := s.pm.journal.any fun e => e.q == q && e.awaits

/-- COMMAND_ACCEPT: the entry at the head of a command queue is journaled. A bound instance mirrors it to its twin, and it is accepted once
the twin has retained it (R41, R420). -/
def State.accept (s : State) (q : Nat) : State :=
  match s.queue q with
  | none => s
  | some x =>
    if !(x.kind == .admin || x.kind == .cmd) || !s.intake q x || Config.journalSize ≤ s.pm.journal.length
        || !(s.pmOn || s.top.mode == .adopted) || !s.twinReach || s.awaitsTwin q then s
    else match x.front with
      | none => s
      | some d =>
        let (id, s) := s.takeId
        let e := x.journaled q id d
        let s := if e.st = .skipped then s.setQueue q { x with skip := x.skip - 1 } else s
        if s.mirrors then (((s.setJournal (s.pm.journal ++ [{ e with awaits := true }])).mirrorQueue q).mirrorEntry e false)
        else (s.setJournal (s.pm.journal ++ [e])).retain e

/-- A flit that carries the journal entry of a queue and index. -/
def carriesEntry (q : BitVec 16) (idx : RIdx) (f : Flit) : Bool :=
  match f.payload with | .journal q' i _ _ _ _ _ _ _ => q'.setWidth 16 == q && i == idx | _ => false

/-- R41, R420: the entries that the twin has now retained, or that need no twin any more, are accepted (log entry 117). -/
def State.retainHeld (s : State) : State :=
  s.forEach (s.pm.journal.filter (·.awaits)) fun s e =>
    if s.mirrors && (s.casc.a.unacked ++ s.casc.b.unacked).any (carriesEntry e.queue e.idx) then s else s.retain e

/-- COMMAND_ACCEPT. -/
def execCommandAccept (q : QId) (s : State) : Host.Outcome State Fault Refusal := .next (s.accept q.toNat)

/-! ### Head write-back, completions, moderation -/

/-- HEAD_WRITEBACK (R81). -/
def State.headWrite (s : State) (q : Nat) : State :=
  match s.queue q with
  | some x =>
    if s.engineRuns && x.submits && x.wbOwed then
      (s.setQueue q { x with wbOwed := false }).queueWrite x.headWb
        (leBytes 8 (at' 64 x.gen 32 ||| at' 64 x.head 0).toNat) false (.headWb (qid q))
    else s
  | none => s

/-- HEAD_WRITEBACK. -/
def execHeadWriteback (q : QId) (s : State) : Host.Outcome State Fault Refusal := .next (s.headWrite q.toNat)

/-- COMPLETION_POST: the next ready completion of a submission queue is written or held (R45, R94, R96). -/
def execCompletionPost (q : QId) (s : State) : Host.Outcome State Fault Refusal :=
  .next (if s.engineRuns then s.postNext q.toNat else s)

/-- R98: mod_time has passed since the first unsignalled entry. -/
def State.modTimeout (s : State) (q : Nat) : State :=
  match s.queue q with
  | some x =>
    if !x.submits && x.irqEn && x.modTime != 0 && decide (0 < x.unsignalled) && s.usPassed x.modTime.toNat x.firstAt then
      s.fireVector x.vector.toNat
    else s
  | none => s

/-- MODERATION_TIMEOUT. -/
def execModerationTimeout (q : QId) (s : State) : Host.Outcome State Fault Refusal := .next (s.modTimeout q.toNat)

/-! ### Vectors -/

/-- R496: a clear takes effect before a fire of the same cycle. -/
def State.clearPending (s : State) (v : Nat) : State := s.setVector v { s.vector v with pending := false, due := false }

/-- VECTOR_PENDING_CLEAR. -/
def execVectorPendingClear (v : BitVec 11) (firesToo : Bool) (s : State) : Host.Outcome State Fault Refusal :=
  let s := s.clearPending v.toNat
  .next (if firesToo then s.fireVector v.toNat else s)

/-- R98: an unmasked vector sends its held or failed message. -/
def State.unmask (s : State) (v : Nat) : State :=
  let x := s.vector v
  let s := s.setVector v { x with mask := false }
  if x.mask && x.due && !x.pin then s.sendMessage v else s

/-- VECTOR_UNMASK. -/
def execVectorUnmask (v : BitVec 11) (s : State) : Host.Outcome State Fault Refusal := .next (s.unmask v.toNat)

end Machine
end Sys2Proof
end

