-- ==== Sys2Proof/Machine/Macsec.lean ====
section
/-! DEFINITION. MACsec (09): KEYLOAD and KEYRETIRE, packet numbers, encapsulation and receive validation. -/

namespace Sys2Proof
namespace Machine

/-! ### Suites and packet numbers (R285, R290 to R292) -/

/-- The last packet number of a suite. -/
def lastPn (suite : BitVec 4) : Nat := if isXpn suite then 2 ^ 64 - 1 else 2 ^ 32 - 1

/-- The suite has a 256-bit key. -/
def wideKey (suite : BitVec 4) : Bool := suite == 2 || suite == 4

/-- The key bytes of a slot. -/
def KeySlot.keyBytes (k : KeySlot) : List Byte := slice (beBytes 32 k.key.toNat) 0 (if wideKey k.suite then 32 else 16)

/-- R291: the mark is kept at least 4,096 PNs ahead; how far beyond is a free value (log entry 27). -/
def State.raiseMark (s : State) (n : Nat) : State :=
  let k := s.keySlot n
  if k.pn + 4096 ≤ k.highWater then s
  else let (v, s) := s.takeFree 64; s.setKeySlot n { s.keySlot n with highWater := k.pn + 4096 + v.toNat }

/-- R292: the warning of a transmit SA after its next PN has moved. -/
def State.pnWarn (s : State) (n : Nat) : State :=
  let k := s.keySlot n
  let w := if isXpn k.suite then s.sec.xpnW.toNat else s.sec.w.toNat
  if k.warned || k.pn + 2 ^ w < lastPn k.suite + 1 then s
  else (s.setKeySlot n { k with warned := true }).pnRecord n 1 k.pn

/-- R292: the exhaustion of a transmit SA that has sent its last PN: the port has no transmit SA in use any more. -/
def State.pnExhaust (s : State) (n : Nat) : State :=
  let k := s.keySlot n
  let last := lastPn k.suite
  if k.exhausted || k.pn ≤ last then s
  else
    let s := s.setKeySlot n { k with exhausted := true }
    let p := n / 8
    let m := s.secPort p
    (if m.txEn && m.txAn.toNat == n % 8 then s.setSecPort p { m with txEn := false } else s).pnRecord n 2 (last + 1)

/-- R292: the events of a transmit SA after its next PN has moved. -/
def State.pnEvents (s : State) (n : Nat) : State := (s.pnWarn n).pnExhaust n

/-- R290: the next PN of a transmit SA is taken at a frame's start. -/
def State.takePn (s : State) (n : Nat) : Nat × State :=
  let k := s.keySlot n
  (k.pn, ((s.setKeySlot n { k with pn := k.pn + 1 }).pnEvents n).raiseMark n)

/-- R291: an SA resumes at its high-water mark. -/
def State.resumeSa (s : State) (n : Nat) : State :=
  let k := s.keySlot n
  if !k.installed || k.exhausted || 4 ≤ n % 8 then s
  else
    let last := lastPn k.suite
    let skipped := min k.highWater (last + 1) - k.pn
    let s := s.countSec (n / 8) 3 skipped
    ((s.setKeySlot n { k with pn := min k.highWater (last + 1) }).pnEvents n).raiseMark n

/-- R291: every transmit SA of some ports resumes. -/
def State.resumePorts (s : State) (ps : List Nat) : State :=
  s.forEach (s.sec.slots.map (·.1)) fun s n => if ps.contains (n / 8) then s.resumeSa n else s

/-! ### KEYLOAD and KEYRETIRE (R286 to R289) -/

/-- The slot a KEYLOAD or KEYRETIRE names. -/
def keySlotOf (i : Ins) : Nat := slotOf i.target.toNat (bitOf i.a 2) (fld i.a 0 2)

/-- The scratch slot of a command is empty again. -/
def State.clearScratch (s : State) (queue : BitVec 16) (jid : Nat) : State :=
  match s.entry jid with
  | some e => s.setSec { s.sec with scratch := s.sec.scratch.filter fun x =>
      !(x.queue == queue && x.slot.toNat == e.idx.toNat % 65536) }
  | none => s

/-- What a key buffer installs (R286). -/
def slotOfBuffer (suite : BitVec 4) (b : List Byte) : KeySlot :=
  let key := if wideKey suite then slice b 0 32 else slice b 0 16
  let x := isXpn suite
  let pn := max 1 (leNat (slice b 48 8))
  { installed := true, suite := suite, key := BitVec.ofNat 256 (beNat (slice key 0 32)), hash := Gcm.subkey key,
    salt := if x then BitVec.ofNat 96 (beNat (slice b 32 12)) else 0,
    ssci := if x then BitVec.ofNat 32 (beNat (slice b 44 4)) else 0, pn := pn, nextPn := pn }

/-- KEYLOAD's install step (R287 step 2, R288). -/
def installKey (jid : Nat) (queue : BitVec 16) (i : Ins) (s : State) : Ran :=
  let n := keySlotOf i
  let suite := fld i.a 4 4
  let tagged := (s.entry jid).map fun e => BitVec.ofNat 16 e.idx.toNat
  let data := match s.sec.scratch.find? fun x => x.queue == queue && some x.slot == tagged with
    | some x => x.data | none => []
  let s' := s.clearScratch queue jid
  if !isXpn suite && 2 ^ 32 ≤ leNat (slice data 48 8) then .bad .pnExhausted s'
  else if (s.keySlot n).installed then .bad .badOperand s'
  else .ok 0 0 ((s'.setKeySlot n (slotOfBuffer suite data)).raiseMark n)

/-- The key-load scratch slot of a command is filled (R287). -/
def State.hasScratch (s : State) (jid : Nat) (queue : BitVec 16) : Bool :=
  match s.entry jid with
  | some e => s.sec.scratch.any fun x => x.queue == queue && x.slot == BitVec.ofNat 16 e.idx.toNat
  | none => false

/-- The 64 zero bytes are written over the buffer. -/
def State.zeroBuffer (s : State) (jid : Nat) (buf : HostAddr) : State :=
  (s.updEntry jid fun e => { e with rd := some { base := buf, need := 1 } }).queueWrite buf (List.replicate 64 0) false
    (.hostWrite jid)

/-- A step of KEYLOAD: 0 the read, which a filled scratch slot makes needless, 1 the zero write that follows it, 2 the
install. -/
def stepKeyload (jid : Nat) (queue : BitVec 16) (i : Ins) (phase : Nat) (s : State) : Ran :=
  let buf : HostAddr := i.b.setWidth 57
  match phase with
  | 0 =>
    if s.hasScratch jid queue then .release (.keyload 1) (s.zeroBuffer jid buf)
    else match s.fetchHost jid buf 64 with
    | .wait s => .wait (.keyload 0) s
    | .failed at_ s => .done .dmaBusError 0 (z64 at_) s
    | .data bs s =>
      let slot := match s.entry jid with | some e => BitVec.ofNat 16 e.idx.toNat | none => 0
      let s := s.setSec { s.sec with scratch := s.sec.scratch ++ [{ queue := queue, slot := slot, data := bs }] }
      .release (.keyload 1) (s.zeroBuffer jid buf)
  | 1 => match (s.entry jid).bind (·.rd) with
    | some r =>
      if r.failed.isSome then .done .dmaBusError 0 (z64 buf) (s.clearScratch queue jid)
      else if r.bytes.isSome then .more (.keyload 2) (s.updEntry jid fun e => { e with rd := none })
      else .release (.keyload 1) s
    | none => .release (.keyload 1) s
  | _ => installKey jid queue i s

/-- KEYLOAD. -/
def runKeyload (jid : Nat) (queue : BitVec 16) (i : Ins) (s : State) : Ran :=
  let suite := (fld i.a 4 4).toNat
  if !targetBelow i 64 || suite = 0 || 4 < suite || !hostAddrOk i.b 64 || (s.keySlot (keySlotOf i)).installed then
    .bad .badOperand s
  else stepKeyload jid queue i 0 s

/-- KEYLOAD. -/
def execKeyload (q : QId) (i : Ins) (s : State) : Host.Outcome State Fault Refusal := begins q 0x60 true i runKeyload s

/-- A frame on a port's wire, whole or in part, was started under a transmit AN (R289). -/
def Port.wireUses (x : Port) (an : Nat) : Bool :=
  (match x.wireE with | some f => f.an.map (·.toNat) == some an | none => false)
    || (match x.wireP with | some f => f.an.map (·.toNat) == some an | none => false)

/-- R289: the slots being retired of a port are zeroized once no frame on its wire uses them. -/
def State.zeroRetired (s : State) (p : Nat) : State :=
  s.forEach (List.range 4) fun s an =>
    if (s.keySlot (8 * p + an)).retiring && !(s.port p).wireUses an then s.setKeySlot (8 * p + an) {} else s

/-- A commit point of KEYRETIRE: the slot is zeroized once no frame on the wire uses it. -/
def stepKeyretire (n : Nat) (s : State) : Ran :=
  if n % 8 < 4 && (s.port (n / 8)).wireUses (n % 8) then .more (.keyretire n) s.microPasses
  else if (s.keySlot n).installed && !(s.keySlot n).retiring then .ok 0 0 s
  else .ok 0 0 (s.setKeySlot n {})

/-- KEYRETIRE (R289). -/
def runKeyretire (_ : Nat) (_ : BitVec 16) (i : Ins) (s : State) : Ran :=
  if !targetBelow i 64 then .bad .badOperand s
  else
    let n := keySlotOf i
    let p := i.target.toNat
    let k := s.keySlot n
    if !k.installed then .ok 0 0 s
    else
      let s := s.setKeySlot n { k with installed := false, retiring := true }
      let m := s.secPort p
      let s := if !bitOf i.a 2 && m.txEn && m.txAn == fld i.a 0 2 then s.setSecPort p { m with txEn := false } else s
      stepKeyretire n s

/-- KEYRETIRE. -/
def execKeyretire (q : QId) (i : Ins) (s : State) : Host.Outcome State Fault Refusal := begins q 0x61 true i runKeyretire s

/-! ### Encapsulation (R293 to R295) -/

/-- The IV of a suite for a PN (802.1AE). -/
def KeySlot.iv (k : KeySlot) (sci : DWord) (pn : Nat) : List Byte :=
  if isXpn k.suite then Gcm.xorBytes (beBytes 12 k.salt.toNat) (beBytes 4 k.ssci.toNat ++ beBytes 8 pn)
  else leBytes 8 sci.toNat ++ beBytes 4 pn

/-- R294: the SecTAG. -/
def secTag (an : BitVec 2) (pn : Nat) (sci : DWord) : List Byte :=
  [0x88, 0xE5, 0x2C ||| an.setWidth 8, 0] ++ beBytes 4 (pn % 2 ^ 32) ++ leBytes 8 sci.toNat

/-- R294: the encapsulated frame, before the FCS. -/
def encapsulate (k : KeySlot) (sci : DWord) (an : BitVec 2) (pn : Nat) (frame : List Byte) : List Byte :=
  let tag := secTag an pn sci
  let (ct, icv) := Gcm.protect k.keyBytes k.hash (k.iv sci pn) (frame.take 12 ++ tag) (frame.drop 12)
  frame.take 12 ++ tag ++ ct ++ icv

/-- R295: bytes 12-13 hold 0x888E. -/
def isEapol (frame : List Byte) : Bool := byteAt frame 12 == 0x88 && byteAt frame 13 == 0x8E

/-! ### Validation (R296, R297) -/

/-- What validation answers: the plaintext and whether it was protected, or the counter word of the drop. -/
inductive Checked where
  | pass (frame : List Byte) (macsec : Bool) (s : State)
  | drop (word : Nat)

/-- 802.1AE: the full PN of an XPN frame, from the lowest acceptable PN; its upper half has 32 bits. -/
def recoverPn (k : KeySlot) (low : Nat) : Nat :=
  if isXpn k.suite then
    let hi := k.pn / 2 ^ 32
    let bump := 2 ^ 31 ≤ k.pn % 2 ^ 32 && low < 2 ^ 31
    (if bump then (hi + 1) % 2 ^ 32 else hi) * 2 ^ 32 + low
  else low

/-- Validation of a frame with a SecTAG, of `wire` bytes under R6. -/
def validateTagged (s : State) (p : Nat) (f : List Byte) (wire : Nat) : Checked :=
  let m := s.secPort p
  let tci := byteAt f 14
  let sc := bitOf tci 5
  let es := bitOf tci 6
  let hdr := if sc then 28 else 20
  let sl := (byteAt f 15).toNat % 64
  let data := f.length - hdr - 16
  if bitOf tci 7 || (es && sc) || bitOf tci 3 != bitOf tci 2 || f.length < 15 || f.length < hdr + 16
      || (sl != 0 && sl != data) then .drop 0x0D
  else
    let rx := leBytes 8 m.rxSci.toNat
    let sci := if sc then slice f 20 8 else if es then slice f 6 6 ++ [0, 1] else rx
    let an := tci.toNat % 4
    let n := 8 * p + 4 + an
    let k := s.keySlot n
    let pn := recoverPn k (beNat (slice f 16 4))
    if sci != rx then .drop 0x0E
    else if !k.installed then .drop 0x0F
    else if pn < k.pn then .drop 0x10
    else
      let head := f.take hdr
      let ct := slice f hdr data
      let icv := slice f (hdr + data) 16
      let plain := if bitOf tci 3 then Gcm.validate k.keyBytes k.hash (k.iv m.rxSci pn) head ct icv
        else (Gcm.validate k.keyBytes k.hash (k.iv m.rxSci pn) (head ++ ct) [] icv).map fun _ => ct
      match plain with
      | none => .drop 0x11
      | some pt =>
        let next := max k.nextPn (pn + 1)
        let window := if isXpn k.suite then min m.replay.toNat (2 ^ 30) else m.replay.toNat
        let s := s.setKeySlot n { k with nextPn := next, pn := max k.pn (next - window) }
        let s := ((s.countSec p 0x08 1).countSec p 0x09 wire).countSec p (0x12 + an) 1
        .pass (f.take 12 ++ pt) true s

/-- R296: a received frame that has passed items 1 to 7 of R120. -/
def validateRx (s : State) (p : Nat) (f : List Byte) (wire : Nat) : Checked :=
  if byteAt f 12 == 0x88 && byteAt f 13 == 0xE5 then validateTagged s p f wire
  else if isEapol f then .pass f false (s.countSec p 0x0B 1)
  else if (s.secPort p).acceptClear then .pass f false (s.countSec p 0x0A 1)
  else .drop 0x0C

/-! ### Erasing (R299, R300) -/

/-- All scratch and all slots become zero, and every tx_en 0. -/
def State.eraseKeys (s : State) : State :=
  let s := s.setSec { s.sec with scratch := [], slots := [] }
  s.forEach (s.sec.ports.map (·.1)) fun s p => s.setSecPort p { s.secPort p with txEn := false }

end Machine
end Sys2Proof
end

