-- ==== Sys2Proof/Machine/Pcs.lean ====
section
/-! DEFINITION. The transmit path from the MAC to the lanes (04 R101, R102, R105 to R111): 66B blocks, the scrambler, 256B/257B
transcoding, codeword pairs, alignment markers, RS(544,514), symbol interleaving and lane transfers; and the fields of a marker
that a lane receives. Where R105 and R106 name a function of IEEE 802.3 or 802.3br without repeating it, the function is the
standard's (PRESUMED, log entry 107). -/

namespace Sys2Proof

/-! ### The fields of a marker (R110, R112) -/

/-- Marker bytes 0 to 7. -/
def markerPattern : List Byte := [0x9B, 0x5E, 0x2C, 0xE1, 0x64, 0xA1, 0xD3, 0x1E]

/-- Byte `n` of a marker as received. -/
def Marker.byte (m : Marker) (n : Nat) : Byte := fld m.block (1 + 8 * n) 8
def Marker.mode (m : Marker) : Byte := m.byte 8
def Marker.lane (m : Marker) : BitVec 3 := fld (m.byte 9) 0 3
def Marker.port (m : Marker) : PortId := fld (m.byte 10) 0 6
def Marker.seq (m : Marker) : Byte := m.byte 11
def Marker.degraded (m : Marker) : Bool := bitOf (m.byte 12) 0

/-- R112: a candidate: at most two of bytes 0-7 and 16-23 differ from what they are expected to be. -/
def Marker.isCandidate (m : Marker) : Bool :=
  decide (((List.range 8).countP fun i => m.byte i != markerPattern.getD i 0)
    + ((List.range 8).countP fun i => m.byte (16 + i) != ~~~ markerPattern.getD i 0) ≤ 2)

/-- R112: a good marker: bytes 0-7 exact, bytes 16-31 the complement of bytes 0-15. -/
def Marker.isGood (m : Marker) : Bool :=
  ((List.range 8).all fun i => m.byte i == markerPattern.getD i 0)
    && ((List.range 16).all fun i => m.byte (16 + i) == ~~~ m.byte i)

namespace Machine

/-! ### 66B blocks (R106 step 1)

The 2-bit sync header stands in bits 1:0, payload byte 0 in bits 9:2; bit 0 is sent first. -/

/-- A 66B block: a control block, whose byte 0 is its type, or a data block. -/
def block66 (control : Bool) (payload : List Byte) : BitVec 66 :=
  (BitVec.ofNat 66 (leNat (payload.take 8)) <<< 2) ||| (if control then 1 else 2)

/-- Eight idle characters. -/
def idle66 : BitVec 66 := block66 true [0x1E]

/-- Eight error characters: the error control block of R117. -/
def error66 : BitVec 66 :=
  block66 true [0x1E] ||| ((List.range 8).foldl (fun b i => b ||| at' 66 0x1E#7 (10 + 7 * i)) 0)

/-- A local fault or remote fault ordered set (R115). -/
def fault66 (remote : Bool) : BitVec 66 := block66 true [0x4B, 0, 0, if remote then 2 else 1]

/-- A start block: the start character and the seven bytes before the frame. -/
def start66 (pre : List Byte) : BitVec 66 := block66 true (0x78 :: pre)

/-- A terminate block after the last bytes of a frame, fewer than eight. -/
def term66 (rest : List Byte) : BitVec 66 :=
  block66 true ((([0x87, 0x99, 0xAA, 0xB4, 0xCC, 0xD2, 0xE1, 0xFF] : List Byte).getD rest.length 0xFF) :: rest)

/-- The data blocks of some bytes and the bytes left over; `fuel` bounds their number. -/
def data66 : Nat → List Byte → List (BitVec 66) × List Byte
  | 0, bs => ([], bs)
  | fuel + 1, bs =>
    if bs.length < 8 then ([], bs)
    else let r := data66 fuel (bs.drop 8); (block66 false (bs.take 8) :: r.1, r.2)

/-- The blocks of a frame or fragment that ends with a terminate. -/
def packet66 (pre body : List Byte) : List (BitVec 66) :=
  let r := data66 body.length body
  start66 pre :: r.1 ++ [term66 r.2]

/-- The blocks of a frame that is cut: its whole blocks, then an error control block (R117). -/
def cutPacket66 (pre body : List Byte) : List (BitVec 66) := start66 pre :: (data66 body.length body).1 ++ [error66]

/-- R111, R128: the whole idle blocks after a packet of `len` bytes, preamble included, and the deficit after them: the fewest that keep
the average gap at 12 bytes. The terminate block itself gives 8 − (len mod 8) bytes of the gap. -/
def gapAfter (deficit len : Nat) : Nat × Nat :=
  let g := 8 - len % 8
  if deficit + 12 ≤ g + 7 then (0, deficit + 12 - g)
  else if deficit + 4 ≤ g + 7 then (1, deficit + 4 - g)
  else (2, deficit + 4 - (g + 8))

/-! ### Preambles (R126 step 5, 802.3br) -/

/-- SMD-S0 to SMD-S3, and the codes of fragment counts 0 to 3. -/
def smdStart (n : BitVec 2) : Byte := ([0xE6, 0x4C, 0x7F, 0xB3] : List Byte).getD n.toNat 0
/-- SMD-C0 to SMD-C3. -/
def smdCont (n : BitVec 2) : Byte := ([0x61, 0x52, 0x9E, 0x2A] : List Byte).getD n.toNat 0
/-- The seven bytes between the start character and an express frame: preamble and SFD, which 802.3br calls SMD-E. -/
def preExpress : List Byte := List.replicate 6 0x55 ++ [0xD5]
/-- Those of the first fragment of a preemptable frame. -/
def preStart (n : BitVec 2) : List Byte := List.replicate 6 0x55 ++ [smdStart n]
/-- Those of a continuation. -/
def preCont (n count : BitVec 2) : List Byte := List.replicate 5 0x55 ++ [smdCont n, smdStart count]
/-- SMD-V of a verify and SMD-R of a respond mPacket. -/
def preVerify (respond : Bool) : List Byte := List.replicate 6 0x55 ++ [if respond then 0x19 else 0x07]
/-- The mCRC of a fragment over the frame's bytes up to its end. -/
def mcrc (frame : List Byte) : List Byte := leBytes 4 (crc32 frame ^^^ 0x0000FFFF#32).toNat

/-! ### Scrambling and transcoding (R106 steps 1 and 2) -/

/-- The 802.3 scrambler over `n` payload bits from bit `i` of a block on: the block so far and the register. -/
def scrambleBits : Nat → Nat → BitVec 58 → BitVec 66 → BitVec 66 × BitVec 58
  | 0, _, r, b => (b, r)
  | n + 1, i, r, b =>
    let o := bitOf b i ^^ bitOf r 38 ^^ bitOf r 57
    scrambleBits n (i + 1) ((r <<< 1) ||| flag 58 o 0) (setBit b i o)

/-- A block with its payload scrambled; the sync header passes. -/
def scramble66 (r : BitVec 58) (b : BitVec 66) : BitVec 66 × BitVec 58 := scrambleBits 64 2 r b

/-- Blocks scrambled in order. -/
def scrambleAll (r : BitVec 58) : List (BitVec 66) → List (BitVec 66) × BitVec 58
  | [] => ([], r)
  | b :: t => let x := scramble66 r b; let y := scrambleAll x.2 t; (x.1 :: y.1, y.2)

/-- A control block. -/
def isControl66 (b : BitVec 66) : Bool := bitOf b 0

/-- The payloads of a group of blocks in order, the second type nibble of the first control block left out (`cut`: none has been left
out yet), as a number and its bits. -/
def groupBits (cut : Bool) : List (BitVec 66) → Nat × Nat
  | [] => (0, 0)
  | b :: t =>
    if cut && isControl66 b then
      let r := groupBits false t
      ((fld b 2 4).toNat + 16 * (fld b 10 56).toNat + 2 ^ 60 * r.1, 60 + r.2)
    else let r := groupBits cut t; ((fld b 2 64).toNat + 2 ^ 64 * r.1, 64 + r.2)

/-- Four 66B blocks as one 257-bit block (R106 step 2). -/
def transcode (g : List (BitVec 66)) : BitVec 257 :=
  if g.all fun b => !isControl66 b then 1 ||| BitVec.ofNat 257 (2 * (groupBits false g).1)
  else
    let heads := ((List.range 4).map fun i => if isControl66 (g.getD i idle66) then 0 else 2 ^ (i + 1)).sum
    let x := BitVec.ofNat 257 (heads + 32 * (groupBits true g).1)
    x ^^^ at' 257 (fld x 8 5) 0

/-- Groups of four. -/
def transcodeAll : Nat → List (BitVec 66) → List (BitVec 257)
  | 0, _ => []
  | n + 1, l => transcode (l.take 4) :: transcodeAll n (l.drop 4)

/-! ### Alignment markers (R109, R110) -/

/-- The alignment marker of a lane. -/
def markerBlock (mode : Byte) (lane : BitVec 3) (port : PortId) (seq : Byte) (degraded : Bool) : BitVec 257 :=
  let half := markerPattern ++ [mode, lane.setWidth 8, port.setWidth 8, seq, flag 8 degraded 0, 0, 0, 0]
  BitVec.ofNat 257 (2 * leNat (half ++ half.map fun b => ~~~ b))

/-! ### RS(544,514) (R105, R106 step 5, R108)

Symbols are numbers below 1,024: the polynomials over GF(2) modulo x^10 + x^3 + 1. -/

/-- Multiplication by x. -/
def gfTwice (a : Nat) : Nat := if 512 ≤ a then (2 * a) ^^^ 0x409 else 2 * a

/-- The product of two symbols, by the lowest `n` bits of the second. -/
def gfMulBits : Nat → Nat → Nat → Nat
  | 0, _, _ => 0
  | n + 1, a, b => (if b % 2 = 1 then a else 0) ^^^ gfMulBits n (gfTwice a) (b / 2)

/-- The product of two symbols. -/
def gfMul (a b : Nat) : Nat := if a = 0 then 0 else gfMulBits 10 a b

/-- The product of a polynomial, highest power first, and x + r. -/
def gfTimes (g : List Nat) (r : Nat) : List Nat :=
  (g ++ [0]).zipWith (fun a b => a ^^^ b) (0 :: g.map (gfMul r))

/-- The generator polynomial: its roots are the powers 0 to 29 of x; highest power first, the leading 1 left out. -/
def rsGenerator : List Nat :=
  (((List.range 30).foldl (fun (s : List Nat × Nat) _ => (gfTimes s.1 s.2, gfTwice s.2)) ([1], 1)).1).drop 1

/-- One message symbol through the division by the generator. -/
def rsStep (g reg : List Nat) (m : Nat) : List Nat :=
  let f := m ^^^ reg.headD 0
  (reg.drop 1 ++ [0]).zipWith (fun r c => r ^^^ gfMul c f) g

/-- The 30 parity symbols of a message, symbol 514 first. -/
def rsParity (msg : List Nat) : List Nat := msg.foldl (rsStep rsGenerator) (List.replicate 30 0)

/-! ### Codeword pairs and lane transfers (R102, R107, R108) -/

/-- The 544 symbols of the codeword whose message is 20 blocks. -/
def codewordOf (blocks : List (BitVec 257)) : List Nat :=
  let n := ((blocks.take 20).zipIdx.map fun bi => bi.1.toNat <<< (257 * bi.2)).sum
  let msg := (List.range 514).map fun s => (n >>> (10 * s)) % 1024
  msg ++ rsParity msg

/-- The symbols of two codewords, one by one in turn. -/
def interleave : List Nat → List Nat → List Nat
  | [], _ => []
  | a :: t, bs => a :: bs.headD 0 :: interleave t (bs.drop 1)

/-- The 34 transfers of a codeword pair: 32 symbols each, the first in the lowest bits. -/
def transfersOf (blocks : List (BitVec 257)) : List (BitVec 320) :=
  let pos := interleave (codewordOf (blocks.take 20)) (codewordOf (blocks.drop 20))
  (List.range 34).map fun t =>
    BitVec.ofNat 320 ((((pos.drop (32 * t)).take 32).zipIdx.map fun vi => vi.1 <<< (10 * vi.2)).sum)

/-! ### The lanes of a port -/

/-- What a port sends where no frame is to be sent (R115). -/
def PortSt.filler : PortSt → BitVec 66
  | .training | .deskew | .localFault => fault66 true
  | .quarantined => fault66 false
  | _ => idle66

/-- Idle blocks of what waits are deleted, as many as are owed for markers (R111). -/
def deleteIdles : Nat → List (BitVec 66) → List (BitVec 66) × Nat
  | owed, [] => ([], owed)
  | 0, l => (l, 0)
  | owed + 1, b :: t =>
    if b = idle66 then deleteIdles owed t else let r := deleteIdles (owed + 1) t; (b :: r.1, r.2)

/-- The next `n` blocks of a port; `filler` where nothing waits. -/
def Pcs.take (c : Pcs) (n : Nat) (filler : BitVec 66) : List (BitVec 66) × Pcs :=
  let l := c.fifo.take n
  (l ++ List.replicate (n - l.length) filler, { c with fifo := c.fifo.drop n })

/-- The next codeword pair of a port, for logical lane k mod w (R107 to R111). -/
def Pcs.pair (c : Pcs) (x : Port) (p : Nat) : List (BitVec 320) × Pcs :=
  let w := max 1 x.width
  let i := c.k % w
  let j := c.k / w
  if !ennosMode x.mode then
    let (bs, c') := c.take 160 x.st.filler
    ((List.range 34).map fun t => Config.ieeeTransfer x.mode.toNat i c.k t bs, { c' with k := c.k + 1 })
  else
    let marks := j % 4096 = 0
    let (fifo, owed) := if marks then deleteIdles (c.owed + 4) c.fifo else (c.fifo, c.owed)
    let (bs, c') := { c with fifo := fifo, owed := if fifo.isEmpty then 0 else owed }.take (if marks then 156 else 160) x.st.filler
    let (sc, r) := scrambleAll c'.scrambler bs
    let blocks := (if marks then [markerBlock x.mode (BitVec.ofNat 3 i) (BitVec.ofNat 6 p) (BitVec.ofNat 8 (j / 4096)) x.degrade]
      else []) ++ transcodeAll (if marks then 39 else 40) sc
    (transfersOf blocks, { c' with scrambler := r, k := c.k + 1 })

/-- The codeword pair, and the block of it, in which the last waiting block will stand, and whether the pair carries a marker; `fuel` bounds the
pairs. -/
def Pcs.locate (w : Nat) : Nat → Pcs → Nat × Nat × Bool
  | 0, c => (c.k, 0, false)
  | fuel + 1, c =>
    let marks := decide (c.k / w % 4096 = 0)
    let (fifo, owed) := if marks then deleteIdles (c.owed + 4) c.fifo else (c.fifo, c.owed)
    let room := if marks then 156 else 160
    if fifo.length ≤ room then (c.k, fifo.length - 1, marks)
    else Pcs.locate w fuel { c with fifo := fifo.drop room, owed := owed, k := c.k + 1 }

/-- Where the first bit of the destination address of a packet will leave that follows what waits (R252): the logical lane, the transfers of
each lane that leave before the one that carries it, and the first bit of its FEC symbol in that transfer (R108). -/
def Pcs.point (c : Pcs) (w : Nat) : Nat × Nat × Nat :=
  let (k, m, marks) := Pcs.locate w (c.fifo.length + 2) { c with fifo := c.fifo ++ [start66 preExpress, block66 false []] }
  let g := m / 4 + (if marks then 1 else 0)
  let symbol := (257 * (g % 20) + 1 + 64 * (m % 4)) / 10
  let place := 2 * symbol + g / 20
  (k % w, (c.lanes.headD []).length + 34 * (k / w - c.k / w) + place / 32, 10 * (place % 32))

/-- One codeword pair for each of `n` lanes: all lanes begin theirs in the same cycle (R109). -/
def Pcs.pairs (x : Port) (p : Nat) : Nat → Pcs → List (List (BitVec 320)) × Pcs
  | 0, c => ([], c)
  | n + 1, c => let (t, c) := c.pair x p; let (ts, c) := Pcs.pairs x p n c; (t :: ts, c)

/-- Lane cycles from one valid transfer to the next (R101). -/
def strobeEvery (mode : Byte) : Nat := match (modeClass mode).toNat with | 3 => 1 | 2 => 2 | _ => 4

/-- The lanes of a port carry a transfer each. -/
def State.laneBeat (s : State) (p : Nat) : State :=
  let x := s.port p
  let (lanes, c) := if x.pcs.lanes.all (·.isEmpty) then Pcs.pairs x p x.width x.pcs else (x.pcs.lanes, x.pcs)
  (s.setPort p { x with pcs := { c with lanes := lanes.map (·.drop 1) } }).forEach lanes.zipIdx fun s t =>
    match t.1 with
    | b :: _ => s.emit (.lane (BitVec.ofNat 6 (p + t.2)) b)
    | [] => s

/-- Every slice that carries the port is on. -/
def State.portOn (s : State) (p : Nat) : Bool := (s.slicesOfPort p).all s.sliceOn

/-- The PCS of a port runs: it is configured, its slices are on, and it is not DOWN. -/
def State.pcsRuns (s : State) (p : Nat) : Bool :=
  (s.port p).configured && s.portOn p && (s.port p).st != .down && s.top.resetting == .none

/-- One lane cycle: of the ports whose PCS runs, those whose strobe stands in it. Every other lane's strobe is low (R101). -/
def State.laneCycle (s : State) : State :=
  let n := (s.frames.laneCycle + 1) % 4
  ({ s with frames := { s.frames with laneCycle := n } }).forEach (s.configuredPorts.filter fun p => s.pcsRuns p) fun s p =>
    if n % strobeEvery (s.port p).mode = (s.port p).pcs.strobe % strobeEvery (s.port p).mode then s.laneBeat p else s

/-- `n` lane cycles. -/
def State.laneCycles : Nat → State → State
  | 0, s => s
  | n + 1, s => State.laneCycles n s.laneCycle

/-- 1.25 ns of the lane clock, 425/256 of its cycles at 1.328125 GHz (R101). -/
def State.laneTime (s : State) : State :=
  let u := s.frames.lanePart + 425
  State.laneCycles (u / 256) { s with frames := { s.frames with lanePart := u % 256 } }

/-- Some blocks wait for the lanes of a port. -/
def State.toLanes (s : State) (p : Nat) (f : Pcs → Pcs) : State := s.setPort p { s.port p with pcs := f (s.port p).pcs }

/-- A packet waits for the lanes, with the gap after it (R128). -/
def Pcs.send (pre body : List Byte) (c : Pcs) : Pcs :=
  let (gap, d) := gapAfter c.deficit (8 + body.length)
  { c with fifo := c.fifo ++ packet66 pre body ++ List.replicate gap idle66, deficit := d }

/-- A cut packet waits for the lanes. -/
def Pcs.sendCut (pre body : List Byte) (c : Pcs) : Pcs := { c with fifo := c.fifo ++ cutPacket66 pre body, deficit := 0 }

/-- The PCS at PORTUP: codeword pairs are numbered from 0, the strobe stands in the present cycle. The scrambler may begin anywhere: a
free value. -/
def State.startPcs (s : State) (p : Nat) : State :=
  let (r, s) := s.takeFree 58
  s.setPort p { s.port p with pcs := { scrambler := r, strobe := s.frames.laneCycle } }

end Machine
end Sys2Proof
end

