-- ==== Sys2Proof/Machine/Transmit.lean ====
section
/-! DEFINITION. The transmit path of a port (04 R116 to R128, 05 R143 to R145, R152 to R154, 08 R252 to R259, 15 R461, R462):
staging cells, INJECT entries and their buffers, the checks at a frame's start, timestamps, and the end of a frame. -/

namespace Sys2Proof
namespace Machine

/-! ### Timestamp points (R249, R253) -/

/-- The stamp of a moment given in units of 2^-16 ns; UNSET with zero time while TIME is not on (R249). -/
def State.stampOf (s : State) (t : Int) : Stamp :=
  if s.isOn dTIME then
    ⟨BitVec.ofNat 48 (t.toNat / 65536000000000), t.toNat % 65536000000000, s.time.state, s.time.powerup⟩
  else ⟨0, 0, .unset, s.time.powerup⟩

/-- b × UI in units of 2^-16 ns (R253): 1 / 425, 1 / 212.5 or 1 / 106.25 ns a bit. The manual does not say how it is rounded
(log entry 21). -/
def bitTime (cls : BitVec 2) (b : Nat) : Int :=
  match cls.toNat with
  | 3 => freeDiv (65536 * b) 425
  | 2 => freeDiv (131072 * b) 425
  | _ => freeDiv (262144 * b) 425

/-- A record's stamp for a frame that has no timestamp point: zero time (R257). -/
def State.noStamp (s : State) : Stamp := { state := s.stampNow.state, powerup := s.time.powerup }

/-! ### Cells (R118, R121, R462) -/

/-- Transmit cells of a port. -/
def Port.txCap (x : Port) : Nat := 192 * x.width

/-- Cells in use: staging, the wire, and buffers being read. -/
def State.txUsed (s : State) (p : Nat) : Nat :=
  let x := s.port p
  let wire (o : Option TxFr) : Nat := match o with | some f => f.cells | none => 0
  (x.tx.map (·.cells)).sum + wire x.wireE + wire x.wireP
    + ((s.qs.inj.filter fun e => e.port.toNat == p && e.fetching && e.outcome.isNone).map (·.cells)).sum

/-- R118: cells of a frame of `n` bytes given: padded, encapsulated where it is to be, and with its FCS. That the 4 bytes of the FCS
count is the model's choice: R6 counts them in a length, R118 names the padded and encapsulated one (log entry 109). -/
def State.txCells (s : State) (p n : Nat) (plain : Bool) : Nat :=
  cellsOf (max 60 n + (if (s.secPort p).txEn && !plain then 32 else 0) + 4)

/-- PB_TX_RDY of a port (R462). -/
def State.txReady (s : State) (p : Nat) : Bool :=
  (s.port p).configured && decide (s.txUsed p + 136 ≤ (s.port p).txCap)

/-! ### Outcomes (R23, R88, R256, R257, R402) -/

/-- An INJECT entry by its identifier. -/
def State.injEntry (s : State) (iid : Nat) : Option Inj := s.qs.inj.find? fun e => e.iid == iid

/-- Replaces an INJECT entry. -/
def State.updInj (s : State) (iid : Nat) (f : Inj → Inj) : State := s.setInj (updFirst (fun e => e.iid == iid) f s.qs.inj)

/-- The record of type 0x0003 of an injected frame, into the entry reserved at consumption. -/
def State.injRecord (s : State) (e : Inj) (flags : Byte) (t : Stamp) (status : Byte) (len : Nat) : State :=
  match s.queue e.queue.toNat with
  | some x =>
    if e.wantTs then
      s.genReserved x.tsQueue.toNat 3 s.casc.self (s.port e.port.toNat).gen (tsBody3 e.cookie e.port.toNat flags t status len)
    else s
  | none => s

/-- An injected frame is reported NOT_SENT, once: its record first, then its outcome. -/
def State.notSent (s : State) (iid : Nat) (reason : Byte) : State :=
  match s.injEntry iid with
  | some e =>
    if e.outcome.isSome then s
    else (s.injRecord e 0 s.noStamp 0x30 0).updInj iid fun e =>
      { e with outcome := some reason, cut := e.cut || reason == 6, cells := 0, gen := s.genOf e.queue.toNat e.gen }
  | none => s

/-- The record of type 0x0004 of a pipeline frame, into the entry that was reserved for it, on the queue it was reserved on (R92, R257). -/
def State.pipeRecord (s : State) (p : Nat) (src : TxSrc) (flags : Byte) (t : Stamp) (status : Byte) (len : Nat) : State :=
  match src with
  | .pipe w (some q) => s.genReserved q.toNat 4 s.casc.self (s.port p).gen (tsBody4 (fld w 77 32) p flags t status len)
  | _ => s

/-- A frame ends unsent: native word `word`, and for an injected frame the NOT_SENT reason. -/
def State.unsent (s : State) (p : Nat) (src : TxSrc) (reason : Byte) (word : Nat) : State :=
  let s := s.event p word
  match src with
  | .inject iid => s.notSent iid reason
  | .pipe _ _ => s.pipeRecord p src 0 s.noStamp 0x30 0

/-! ### Buffers of injected frames (R125) -/

/-- The reads of one buffer. -/
def State.readBuffer (s : State) (e : Inj) (cells : Nat) : State :=
  let s := s.updInj e.iid fun e => { e with fetching := true, cells := cells }
  (splitRange e.length.toNat e.buffer.toNat e.length.toNat).foldl
    (fun s an => s.queueRead (BitVec.ofNat 57 an.1) an.2 (.inject e.iid)) s

/-- Entries of a port whose buffer has not been asked for, in the order of acceptance. -/
def State.unread (s : State) (p : Nat) : List Inj :=
  s.qs.inj.filter fun e => e.port.toNat == p && !e.fetching && e.outcome.isNone

/-- Injected frames are read only into free cells, in order. Whether MACsec will encapsulate a frame shows only in its bytes (R295); until
they have come it holds the cells of an encapsulated frame. -/
def State.readWhile (p : Nat) : List Inj → State → State
  | [], s => s
  | e :: t, s =>
    let c := s.txCells p e.length.toNat false
    if s.txUsed p + c ≤ (s.port p).txCap then State.readWhile p t (s.readBuffer e c) else s

/-- Starts the reads that free cells allow. -/
def State.startReads (s : State) (p : Nat) : State := if s.isOn dHOST then State.readWhile p (s.unread p) s else s

/-! ### INJECT_CONSUME (R87, R88, R152 check 1) -/

/-- The fields of an INJECT entry. -/
def injOfEntry (d : BitVec 512) : Inj :=
  { buffer := fld d 0 57, length := fld d 64 14, port := fld d 80 6, preempt := bitOf d 88, wantTs := bitOf d 89,
    oneStep := bitOf d 90, prio := fld d 96 3, ptpOffset := fld d 112 16, cookie := fld d 384 64 }

/-- R152 check 1. -/
def State.injValid (s : State) (x : Queue) (e : Inj) : Bool :=
  (s.port e.port.toNat).configured && decide (14 ≤ e.length.toNat ∧ e.length.toNat ≤ 16380)
    && !(e.wantTs && x.tsQueue == 0)

/-- An entry enters the list of accepted injected frames. -/
def State.addInj (s : State) (e : Inj) : State := s.setInj (s.qs.inj ++ [e])

/-- The entry at the head of an INJECT queue is consumed (R88), or reported by QDESTROY (R75). -/
def State.consume (s : State) (q : Nat) : State :=
  match s.queue q with
  | none => s
  | some x =>
    if x.kind != .inject || !s.intake q x || !s.twinReach then s
    else match x.front with
      | none => s
      | some d =>
        let e := injOfEntry d
        let wants := e.wantTs && x.tsQueue != 0
        if x.closing then
          let (id, s) := s.takeId
          let e := { e with iid := id, queue := qid q, idx := x.head, gen := x.gen, wantTs := false, outcome := some 7 }
          ((((s.addInj e).mirrorInj e false).setQueue q x.pass).mirrorQueue q).fetchNext q
        else if wants && !s.recordRoom x.tsQueue.toNat then s
        else
          let (id, s) := s.takeId
          let s := if wants then s.reserveRecord x.tsQueue.toNat else s
          let x := (s.queue q).getD x
          let e := { e with iid := id, queue := qid q, idx := x.head, gen := x.gen, wantTs := wants }
          let s := (((s.addInj e).mirrorInj e false).setQueue q x.pass).mirrorQueue q
          let s := s.fetchNext q
          let p := e.port.toNat
          if !s.injValid x (injOfEntry d) then s.unsent p (.inject id) 8 0x068
          else if (s.port p).txStopped then
            let s := s.unsent p (.inject id) 5 0x060
            s.setPort p { s.port p with stopRefused := (s.port p).stopRefused + 1 }
          else s.startReads p

/-- INJECT_CONSUME. -/
def execInjectConsume (q : QId) (s : State) : Host.Outcome State Fault Refusal := .next (s.consume q.toNat)

/-! ### INJECT_FETCH -/

/-- R116, R507: an injected frame whose bytes have come enters staging, or is reported when the port is down. -/
def State.stage (s : State) (e : Inj) (frame : List Byte) : State :=
  let p := e.port.toNat
  let x := s.port p
  if x.st != .up || x.txStopped then
    let s := s.unsent p (.inject e.iid) 5 0x060
    let y := s.port p
    (s.setPort p { y with stopRefused := if y.txStopped then y.stopRefused + 1 else y.stopRefused }).startReads p
  else
    let s := s.updInj e.iid fun e => { e with cells := 0 }
    let f : TxFr := { fid := e.iid, port := e.port, bytes := frame, src := .inject e.iid, prio := e.prio,
                      preempt := e.preempt && x.preemptEn, cells := s.txCells p frame.length (isEapol frame) }
    s.setPort p { x with tx := x.tx ++ [f] }

/-- The reads of a frame's buffer are over. -/
def State.injReadsEnd (s : State) (iid : Nat) : State :=
  { s with dma := { s.dma with reqs := s.dma.reqs.filter fun r => r.owner != .inject iid,
                               backlog := s.dma.backlog.filter fun r => r.owner != .inject iid } }

/-- A buffer that cannot be read has no reason of its own in R88: the reason is a free value other than 0 (log entry 28). -/
def State.injUnreadable (s : State) (e : Inj) : State :=
  let (v, s) := (s.injReadsEnd e.iid).takeFree 8
  (s.notSent e.iid (if v = 0 then 1 else v)).startReads e.port.toNat

/-- The buffer read of the oldest injected frame of a queue that waits for its bytes completes. -/
def State.injectFetched (s : State) (q : Nat) (ok : Bool) (frame : List Byte) : State :=
  match s.qs.inj.find? fun e => e.queue.toNat == q && e.fetching && e.outcome.isNone && e.cells != 0 with
  | none => s
  | some e =>
    if !ok then s.injUnreadable e
    else if frame.length = e.length.toNat then (s.injReadsEnd e.iid).stage e frame
    else s

/-- INJECT_FETCH. -/
def execInjectFetch (q : QId) (ok : Bool) (frame : List Byte) (s : State) : Host.Outcome State Fault Refusal :=
  .next (if s.isOn dHOST && s.top.resetting == .none then s.injectFetched q.toNat ok frame else s)

/-! ### PIPELINE_TX_FRAME (R461, R462, R116) -/

/-- A count of `pb.fault` rises (R467). -/
def State.pbFault (s : State) (k : Nat) (f : Byte × Byte × Byte × Byte → Byte × Byte × Byte × Byte) : State :=
  s.setTop { s.top with pbFault := Tab.put (0, 0, 0, 0) s.top.pbFault k (f (Tab.get (0, 0, 0, 0) s.top.pbFault k)) }
def State.pbMisroute (s : State) (k : Nat) : State := s.pbFault k fun f => (satInc f.1, f.2)
def State.pbLength (s : State) (k : Nat) : State := s.pbFault k fun f => (f.1, satInc f.2.1, f.2.2)
def State.pbCredit (s : State) (k : Nat) : State := s.pbFault k fun f => (f.1, f.2.1, satInc f.2.2.1, f.2.2.2)
def State.pbLost (s : State) (k : Nat) : State := s.pbFault k fun f => (f.1, f.2.1, f.2.2.1, satInc f.2.2.2)

/-- R257: the reservation for a pipeline frame's timestamp record: the queue on which an entry is reserved. -/
def State.pipeReserve (s : State) (w : QWord) : Option QId × State :=
  let q := s.time.pipeTsQueue
  if !bitOf w 124 then (none, s)
  else if q != 0 && s.recordRoom q.toNat then (some q, s.reserveRecord q.toNat)
  else (none, s.setTimeUnit { s.time with tsMissed := satInc s.time.tsMissed })

/-- R104: frames of a port go in the order of their first segments; of two that cross in the same core cycle, the even slice's goes
first. -/
def insertTx (l : List TxFr) (f : TxFr) (tie : Bool) : List TxFr :=
  match l.getLast?, f.slice with
  | some g, some k => if tie && k.toNat % 2 == 0 && g.slice == some (k + 1) then l.dropLast ++ [f, g] else l ++ [f]
  | _, _ => l ++ [f]

/-- A transmit frame crosses the bus of logical slice k. -/
def State.pipeTx (s : State) (k p : Nat) (w : QWord) (frame : List Byte) (tie : Bool) : State :=
  let x := s.port p
  let n := (fld w 12 14).toNat
  if s.pbReset || !s.sliceOn k then s
  else if !x.configured || !(s.slicesOfPort p).contains k then s.pbMisroute k
  else if n != frame.length || n < 14 || 16380 < n then s.pbLength k
  else
    let c := s.txCells p n false
    let down := x.st != .up || x.txStopped
    if !down && x.txCap < s.txUsed p + c then s.pbCredit k
    else
      let (r, s) := s.pipeReserve w
      if down then s.unsent p (.pipe w r) 5 0x060
      else
        let prio : Prio := fld w 125 3
        let (id, s) := s.takeId
        let f : TxFr := { fid := id, port := BitVec.ofNat 6 p, slice := some (BitVec.ofNat 4 k), bytes := frame, src := .pipe w r,
                          prio := prio, preempt := x.preemptEn && bitOf x.map prio.toNat, cells := c }
        s.setPort p { s.port p with tx := insertTx (s.port p).tx f tie }

/-- PIPELINE_TX_FRAME. -/
def execPipelineTxFrame (k : BitVec 4) (p : PortId) (word : QWord) (frame : BusFrame) (s : State) :
    Host.Outcome State Fault Refusal := .next (s.pipeTx k.toNat p.toNat word frame.bytes frame.tie)

/-! ### One-step PTP and transparent clocking (R258, R259) -/

/-- The one's-complement sum of 16-bit words in network order, as a residue modulo 65,535. -/
def onesSum (bs : List Byte) : Nat := ((List.range ((bs.length + 1) / 2)).map fun i => beNat (slice bs (2 * i) 2)).sum % 65535

/-- R258: messageLength of the PTP message at an offset. -/
def ptpLength (f : List Byte) (o : Nat) : Nat := beNat (slice f (o + 2) 2)

/-- R258: an even messageLength whose compensation word lies before the FCS. -/
def ptpOk (f : List Byte) (o : Nat) : Bool :=
  ptpLength f o % 2 == 0 && decide (o + ptpLength f o + 2 ≤ f.length)

/-- Rewrites the compensation word after the message has changed from `old` to `new`. A word congruent to 0 can be written
as 0x0000 or 0xFFFF: a free choice (log entry 29). -/
def State.compensate (s : State) (old new : List Byte) (o : Nat) : List Byte × State :=
  let n := ptpLength old o
  let v := (onesSum (slice old o (n + 2)) + 65535 - onesSum (slice new o n)) % 65535
  let (b, s) := s.takeFree 1
  (overlay new (o + n) (beBytes 2 (if v = 0 && b = 1 then 65535 else v)), s)

/-- Adds an amount of 2^-16 ns to correctionField. -/
def addCorrection (f : List Byte) (o : Nat) (d : Int) : List Byte :=
  overlay f (o + 8) (beBytes 8 (BitVec.ofInt 64 ((BitVec.ofNat 64 (beNat (slice f (o + 8) 8))).toInt + d)).toNat)

/-- R258: the one-step update. -/
def State.oneStep (s : State) (f : List Byte) (o : Nat) (t : Stamp) : List Byte × State :=
  let g := overlay f (o + 34) (beBytes 6 t.seconds.toNat ++ beBytes 4 (t.sub / 65536))
  s.compensate f (addCorrection g o (t.sub % 65536)) o

/-- R255: the seconds of an ingress timestamp against a later one, from its low 3 bits. -/
def recoverSeconds (low : BitVec 3) (ns : Nat) (t : Stamp) : Int :=
  let sec : Int := t.seconds.toNat
  let s0 := sec - (sec - low.toNat) % 8
  if s0 = sec && t.sub < ns * 65536 then s0 - 8 else s0

/-- R259: the residence time of a pipeline frame, none where the update is skipped. -/
def State.residence (s : State) (w : QWord) (t : Stamp) : Option Int :=
  let ns := (fld w 26 30).toNat
  let d := (t.seconds.toNat : Int) * 65536000000000 + t.sub - (recoverSeconds (fld w 56 3) ns t * 65536000000000 + ns * 65536)
  if d < 0 || 4 * 65536000000000 ≤ d || t.state = .unset || fld w 75 2 = 0 || fld w 59 16 ≠ s.time.powerup then none else some d

/-! ### Sent pause and PFC (R139 to R141, R150) -/

/-- The priorities of a mask. -/
def priosOf (m : Byte) : List Nat := (List.range 8).filter fun i => bitOf m i

/-- The duty ceiling of a priority, in 1/256 (R147). -/
def GuardPort.ceiling (g : GuardPort) (i : Nat) : Byte := fld g.duty (8 * i) 8

/-- The priorities whose ceiling lets no pause be asserted at all (R150: a sum of 0 reaches a ceiling of 0). -/
def GuardPort.barred (g : GuardPort) : Byte := (List.range 8).foldl (fun m i => if g.ceiling i = 0 then setBit m i true else m) 0

/-- The priorities that a guard holds: Ennos ignores their XOFF lines (R150, R151). -/
def State.guarded (s : State) (p : Nat) : Byte := (s.port p).dutyClipped ||| (s.port p).stormTx ||| (s.guardPort p).barred

/-- The XOFF lines Ennos takes into account: those of a configured port that no guard holds (R466, R150). -/
def State.lines (s : State) (p : Nat) : Byte := if (s.port p).configured then (s.port p).xoff &&& ~~~ (s.guarded p) else 0

/-- The priorities pause is to be asserted for (R139). In mode 0b01 one frame pauses every priority, so none is asserted while
a guard holds one (log entry 35). -/
def State.wanted (s : State) (p : Nat) : Byte :=
  match (s.port p).txMode.toNat with
  | 1 => if s.lines p != 0 && s.guarded p == 0 then 0xFF else 0
  | 2 => s.lines p
  | _ => 0

/-- R150: 100 ms and 100 µs in periods of `State.clock`. -/
def dutyWindow : Nat := 80000000
def dutyUnit : Nat := 80000

/-- The asserted priorities become those of a mask: spans of assertion begin and end (R150). Spans older than the window go. -/
def Port.setAsserted (x : Port) (m : Byte) (now : Nat) : Port :=
  (List.range 8).foldl (fun x i =>
    if bitOf m i then
      (if bitOf x.asserted i then x else { x with asserted := setBit x.asserted i true, assertedAt := Tab.put 0 x.assertedAt i now })
    else if bitOf x.asserted i then
      { x with asserted := setBit x.asserted i false, assertedAt := Tab.put 0 x.assertedAt i 0,
               spans := Tab.put [] x.spans i ((Tab.get 0 x.assertedAt i, now)
                 :: (Tab.get [] x.spans i).filter fun ab => decide (now ≤ ab.2 + dutyWindow + dutyUnit)) }
    else x) x

/-- R150: the time for which pause was asserted in the last 1,000 units of 100 µs, in periods of `State.clock`. -/
def Port.dutySum (x : Port) (i now : Nat) : Nat :=
  let lo := now / dutyUnit * dutyUnit - dutyWindow
  let l := Tab.get [] x.spans i ++ (if bitOf x.asserted i then [(Tab.get 0 x.assertedAt i, now)] else [])
  (l.map fun ab => min ab.2 now - max ab.1 lo).sum

/-- A time in quanta of 512 bit times at the payload rate has passed since `from'` (R137). -/
def Port.quantaPassed (x : Port) (quanta from' now : Nat) : Bool :=
  decide (quanta * 2048 ≤ (now - from') * 5 * modeRate x.mode)

/-- R140: a generated frame, with its FCS. -/
def macFrame (sa : BitVec 48) (opcode : Nat) (body : List Byte) : List Byte :=
  let f := slice ([0x01, 0x80, 0xC2, 0, 0, 0x01] ++ leBytes 6 sa.toNat ++ [0x88, 0x08] ++ beBytes 2 opcode ++ body) 0 60
  f ++ leBytes 4 (crc32 f).toNat

/-- The body of a PFC frame: the enabled priorities, and the time of each. -/
def pfcBody (enabled asserted : Byte) (quanta : BitVec 16) : List Byte :=
  [0, enabled] ++ ((List.range 8).map fun i => if bitOf asserted i then beBytes 2 quanta.toNat else [0, 0]).flatten

/-- A generated frame leaves: to the lanes as an express frame (R140). -/
def State.sendControl (s : State) (p : Nat) (frame : List Byte) : State :=
  (s.toLanes p (Pcs.send preExpress frame)).emit (.macControl (BitVec.ofNat 6 p) frame)

/-- The port after the frame that asserts the priorities of `want` has left. -/
def Port.tell (x : Port) (want : Byte) (now : Nat) : Port :=
  let y := (x.setAsserted want now)
  (priosOf want).foldl (fun y i => { y with toldAt := Tab.put 0 y.toldAt i now, toldTime := Tab.put 0 y.toldTime i x.quanta })
    { y with told := want, ctlDue := false }

/-- The frame due is built and sent: it asserts what is wanted and releases what the last one asserted (R140). With nothing to say
there is none. -/
def State.buildPause (s : State) (p : Nat) : State :=
  let x := s.port p
  let want := s.wanted p
  let all := want ||| x.told
  if x.st != .up || x.txMode = 0 || all = 0 then s.setPort p { x with ctlDue := false }
  else
    let s := s.setPort p (x.tell want s.clock)
    if x.txMode = 1 then
      (s.event p 0x082).sendControl p (macFrame x.fcSa 0x0001 (beBytes 2 (if want = 0 then 0 else x.quanta.toNat)))
    else
      let s := (s.event p 0x083).forEach (priosOf want) fun s i => s.event p (0x090 + i)
      s.sendControl p (macFrame x.fcSa 0x0101 (pfcBody all want x.quanta))

/-- The wire of a port is free. -/
def Port.wireFree (x : Port) : Bool := x.wireE.isNone && (x.wireP.isNone || x.suspended)

/-- A trigger of R139: on an idle link the frame goes now; otherwise it goes at the next preemption point or at the end of the frame
on the wire (R141), and triggers until then merge into it (R140). -/
def State.sendPause (s : State) (p : Nat) : State :=
  let x := s.port p
  if x.st != .up || x.txMode = 0 then s
  else if x.wireFree then s.buildPause p
  else s.setPort p { x with ctlDue := true }

/-- The frame due, if one is, at a preemption point or a frame's end. -/
def State.pauseDue (s : State) (p : Nat) : State := if (s.port p).ctlDue then s.buildPause p else s

/-! ### TX_FRAME_START (R125 to R127, R138, R143, R145, R152, R153) -/

/-- The partner pauses a priority for a time in quanta from now on; a time of 0 releases it (R137). -/
def Port.setPaused (x : Port) (i : Nat) (t : BitVec 16) (now : Nat) : Port :=
  { x with rxPaused := setBit x.rxPaused i (t != 0), pauseTime := Tab.put 0 x.pauseTime i t,
           pauseFrom := Tab.put 0 x.pauseFrom i (if t = 0 then 0 else now),
           pausedAt := Tab.put 0 x.pausedAt i (if t = 0 then 0 else if bitOf x.rxPaused i then Tab.get 0 x.pausedAt i else now) }

/-- A priority that may not start now (R138, R151). -/
def Port.holds (x : Port) (i : Prio) : Bool := bitOf x.rxPaused i.toNat && !bitOf x.rxIgnored i.toNat

/-- Preemption is active (R142). -/
def Port.active (x : Port) : Bool := x.preemptEn && x.st == .up && (x.verify == .succeeded || x.verify == .noVerify)

/-- The oldest complete frame of a MAC whose priority is not paused; with preemption inactive the frames of both MACs share
one order (R142). -/
def Port.nextTx (x : Port) (pre : Bool) : Option TxFr :=
  x.tx.find? fun f => (!x.active || f.preempt == pre) && !x.holds f.prio

/-- R154: protection is required. -/
def State.protects (s : State) (p : Nat) : Bool := (s.port p).protect || (s.guardPort p).floor

/-- R152 check 3. -/
def State.allowed (s : State) (p : Nat) (sa : List Byte) : Bool :=
  (s.guardPort p).allow.any fun kv => bitOf kv.2 48 && fld kv.2 0 48 == BitVec.ofNat 48 (leNat sa)

/-- The fill rate in Mb/s: the set rate, at most 1/8 of the payload rate (R153). -/
def State.fillRate (s : State) (p : Nat) : Nat := min (s.guardPort p).rate.toNat (modeRate (s.port p).mode * 125)

/-- The bucket holds `len` bytes. `spent` counts units of 1/6400 byte, what 1 Mb/s fills in 1.25 ns. A rate of 0 refuses every
frame (R147). -/
def State.ratePasses (s : State) (p len : Nat) : Bool :=
  let g := s.guardPort p
  g.rate != 0 && decide ((s.port p).spent + len * 6400 ≤ g.burst.toNat * 1024 * 6400)

/-- `n` periods of 1.25 ns fill the buckets. -/
def State.fillBuckets (s : State) (n : Nat) : State :=
  s.forEach (s.ports.map (·.1)) fun s p => s.setPort p { s.port p with spent := (s.port p).spent - n * s.fillRate p }

/-- The frame is an injected frame of the uncontrolled port (R295). -/
def TxFr.uncontrolled (f : TxFr) : Bool := match f.src with | .inject _ => isEapol f.bytes | .pipe _ _ => false
def TxFr.injected (f : TxFr) : Bool := match f.src with | .inject _ => true | .pipe _ _ => false

/-- R126 step 1. -/
def padTo60 (f : List Byte) : List Byte := f ++ List.replicate (60 - f.length) 0

/-- The first failing check of R152 (2 is the port's state), with the reason and the native counter. A one-step message that cannot be
updated (R258, reason 0x08) has no place in R152's order; that it comes after the length and before the rate is the model's choice (log
entry 31). That an injected frame of EtherType 0x888E leaves a protected port in MAINTENANCE, where note (a) of R26 says that nothing is
transmitted, is the model's choice too: R295 sends it whatever the policy (log entry 110). -/
def State.startCheck (s : State) (p : Nat) (f : TxFr) : Option (Byte × Nat) :=
  let sa := (s.secPort p).txEn
  let plain := max 60 f.bytes.length + 4
  let len := plain + (if sa && !f.uncontrolled then 32 else 0)
  let most := (s.port p).maxfrm.toNat
  let badStep := match f.src with
    | .inject iid => match s.injEntry iid with
      | some e => e.oneStep && !ptpOk (padTo60 f.bytes) e.ptpOffset.toNat
      | none => false
    | .pipe _ _ => false
  if (s.port p).st != .up then some (5, 0x060)
  else if f.injected && !s.allowed p (slice f.bytes 6 6) then some (1, 0x065)
  else if !f.uncontrolled && s.protects p && !sa then some (3, if f.injected then 0x067 else 0x064)
  else if most < len then some (if plain ≤ most then (4, 0x062) else (8, 0x063))
  else if badStep then some (8, 0x068)
  else if f.injected && !s.ratePasses p len then some (2, 0x066)
  else none

/-- R155: a refusal waits for its report, unless no queue is named. -/
def State.noteRefusal (s : State) (p : Nat) (reason : Byte) : State :=
  let x := s.port p
  if s.guardQueue = 0 then s
  else match reason.toNat with
    | 1 => s.setPort p { x with refused5 := x.refused5 + 1 }
    | 2 => s.setPort p { x with refused6 := x.refused6 + 1 }
    | 3 => s.setPort p { x with refused8 := x.refused8 + 1 }
    | _ => s

/-- A frame leaves transmit staging. -/
def State.dropTx (s : State) (p fid : Nat) : State :=
  s.setPort p { s.port p with tx := dropFirst (fun f => f.fid == fid) (s.port p).tx }

/-- A staged frame is discarded for a reason; it does not block the frames behind it. -/
def State.refuseTx (s : State) (p : Nat) (f : TxFr) (reason : Byte) (word : Nat) : State :=
  ((((s.dropTx p f.fid).noteRefusal p reason).unsent p f.src reason word)).startReads p

/-- Every staged frame of a port is discarded: the port is down (R24, R116). -/
def State.flushTx (s : State) (p : Nat) : State :=
  s.forEach (s.port p).tx fun s f => s.refuseTx p f 5 0x060

/-- The logical lane, the transfers that leave before, and the bit of the timestamp point of a frame that starts now. In the modes whose PCS
the standard alone defines they are free values (log entries 30 and 107). -/
def State.txPoint (s : State) (p : Nat) : (Nat × Nat × Nat) × State :=
  let x := s.port p
  let w := max 1 x.width
  if ennosMode x.mode then (x.pcs.point w, s)
  else
    let (l, s) := s.takeFree 3
    let (b, s) := s.takeFree 16
    ((l.toNat % w, 0, b.toNat % 320), s)

/-- The transmit stamp of a frame that starts now (R252, R253): the transfer that carries its point leaves once those before it have left. -/
def State.txStamp (s : State) (p : Nat) : Stamp × Bool × State :=
  let x := s.port p
  let ((l, n, b), s) := s.txPoint p
  let ln := s.lane (p + l)
  (s.stampOf (s.now16 + bitTime (modeClass x.mode) (320 * n) + bitTime (modeClass x.mode) b + ln.txCal.toInt * 256 + x.tsTx.toInt * 256),
    ln.txValid, s)

/-- The PTP update of a frame (R258, R259): the bytes, and whether it was written or skipped. An odd messageLength or a
compensation word beyond the frame skips a correction update (log entry 31). -/
def State.ptpUpdate (s : State) (f : TxFr) (bytes : List Byte) (t : Stamp) : List Byte × Bool × Bool × State :=
  match f.src with
  | .inject iid => match s.injEntry iid with
    | some e => if e.oneStep then let (g, s) := s.oneStep bytes e.ptpOffset.toNat t; (g, true, false, s) else (bytes, false, false, s)
    | none => (bytes, false, false, s)
  | .pipe w _ =>
    let o := (fld w 109 14).toNat
    if !bitOf w 123 then (bytes, false, false, s)
    else match (if ptpOk bytes o then s.residence w t else none) with
      | some d => let (g, s) := s.compensate bytes (addCorrection bytes o d) o; (g, true, false, s)
      | none => (bytes, false, true, s.setTimeUnit { s.time with tcSkipped := satInc s.time.tcSkipped })

/-- MACsec at a frame's start (R290, R293, R294): the bytes before the FCS, and the AN used. -/
def State.secure (s : State) (p : Nat) (f : TxFr) (bytes : List Byte) : List Byte × Option (BitVec 2) × State :=
  let m := s.secPort p
  if m.txEn && !f.uncontrolled then
    let n := 8 * p + m.txAn.toNat
    let k := s.keySlot n
    let (pn, s) := s.takePn n
    let g := encapsulate k m.txSci m.txAn pn bytes
    (g, some m.txAn, ((s.countSec p 0 1).countSec p 1 (g.length + 4)).countSec p (4 + m.txAn.toNat) 1)
  else (bytes, none, s.countSec p 2 1)

/-- A frame starts on the wire (R126). -/
def State.startTx (s : State) (p : Nat) (pre : Bool) (f : TxFr) : State :=
  let x := s.port p
  let smd := x.active && pre
  let s := s.dropTx p f.fid
  let (t, cal, s) := s.txStamp p
  let (b1, upd, skp, s) := s.ptpUpdate f (padTo60 f.bytes) t
  let (b2, an, s) := s.secure p f b1
  let wire := b2 ++ leBytes 4 (crc32 b2).toNat
  let s := if f.injected then s.setPort p { s.port p with spent := (s.port p).spent + wire.length * 6400 } else s
  let g := { f with wire := wire, an := an, stamp := t, cal := cal, smd := smd, smdNo := x.smdNext, frag := x.frag, updated := upd,
                    skipped := skp }
  let s := match f.src with
    | .inject iid => match s.injEntry iid with
      | some _ => s.updInj iid fun e => { e with started := true }
      | none => s
    | .pipe _ _ => s
  let y := s.port p
  (s.setPort p (if smd then { y with wireP := some g, smdNext := y.smdNext + 1 } else { y with wireE := some g })).emit
    (.txStart (BitVec.ofNat 6 p) wire smd)

/-- A flit that carries the start of an injected frame. -/
def carriesStart (e : Inj) (f : Flit) : Bool :=
  match f.payload with | .injWord q idx _ _ started _ _ _ => q == e.queue && idx == e.idx && started | _ => false

/-- R420: an injected frame of a bound instance starts once its partner holds the frame's start; until then the partner is told
(log entry 117). -/
def State.startHeld (s : State) (p : Nat) (pre : Bool) (f : TxFr) : State :=
  match f.src with
  | .inject iid => match s.injEntry iid with
    | some e =>
      if !s.mirrors then s.startTx p pre f
      else if !e.announced then (s.updInj iid fun e => { e with announced := true }).mirrorInj { e with started := true } false
      else if (s.casc.a.unacked ++ s.casc.b.unacked).any (carriesStart e) then s
      else s.startTx p pre f
    | none => s.startTx p pre f
  | .pipe _ _ => s.startTx p pre f

/-- The oldest frames that fail a check leave; the first that passes starts; `fuel` bounds their number. -/
def State.tryStart : Nat → Nat → Bool → State → State
  | 0, _, _, s => s
  | fuel + 1, p, pre, s =>
    match (s.port p).nextTx pre with
    | none => s
    | some f => if f.injected && !s.twinReach then s else match s.startCheck p f with
      | some (r, w) => State.tryStart fuel p pre (s.refuseTx p f r w)
      | none => s.startHeld p pre f

/-- A MAC starts its next frame, or the preemptable MAC continues a suspended one (R145). An express frame that may start goes
before a preemptable one (802.3br). -/
def State.txStart (s : State) (p : Nat) (pre : Bool) : State :=
  let x := s.port p
  let n := x.tx.length
  if x.st != .up || !x.wireFree || s.top.resetting != .none then s
  else if !pre then State.tryStart n p false s
  else if !x.active || (x.nextTx false).isSome then s
  else match x.wireP with
    | some f =>
      if x.holds f.prio then s
      else (s.setPort p { x with suspended := false, wireP := some { f with conts := f.conts + 1 } }).emit
        (.txResume (BitVec.ofNat 6 p))
    | none => State.tryStart n p true s

/-- TX_FRAME_START. -/
def execTxFrameStart (p : PortId) (preempt : Bool) (s : State) : Host.Outcome State Fault Refusal :=
  .next (s.txStart p.toNat preempt)

/-! ### Frames to the lanes (R126 step 5) -/

/-- The bytes before the fragment of a frame that is on the wire. -/
def TxFr.pre (f : TxFr) : List Byte :=
  if !f.smd then preExpress
  else if f.conts = 0 then preStart f.smdNo else preCont f.smdNo (BitVec.ofNat 2 f.conts)

/-- The last fragment of a frame, or the whole of it. -/
def State.sendLast (s : State) (p : Nat) (f : TxFr) : State := s.toLanes p (Pcs.send f.pre (f.wire.drop f.sent))

/-- The fragment of a frame that ends at offset `b`, with its mCRC. -/
def State.sendFragment (s : State) (p : Nat) (f : TxFr) (b : Nat) : State :=
  s.toLanes p (Pcs.send f.pre ((f.wire.take b).drop f.sent ++ mcrc (f.wire.take b)))

/-- A frame cut on the wire: the bytes of it that have left, a number the manual leaves to the moment (a free value), then an error
control block (R117). -/
def State.sendCut (s : State) (p : Nat) (f : TxFr) : State :=
  let (n, s) := s.takeFree 14
  let left := f.wire.drop f.sent
  s.toLanes p (Pcs.sendCut f.pre (left.take (n.toNat % (left.length + 1))))

/-! ### PREEMPT (R143, R144) -/

/-- R144: a preemption point of the frame on the wire. -/
def TxFr.preemptPoint (f : TxFr) (b : Nat) : Bool :=
  b % 8 == 0 && decide (f.sent < b) && decide (64 * (1 + f.frag.toNat) ≤ b - f.sent + 4) && decide (b + 64 ≤ f.wire.length)

/-- A preemptable frame ends its fragment at offset `b`: an express frame is ready, its priority is paused, or a frame Ennos
generated waits. -/
def State.preemptAt (s : State) (p b : Nat) : State :=
  let x := s.port p
  match x.wireP with
  | some f =>
    if x.active && !x.suspended && x.wireE.isNone && f.preemptPoint b
        && ((x.nextTx false).isSome || x.holds f.prio || x.ctlDue) then
      let s := s.sendFragment p f b
      (((s.setPort p { s.port p with wireP := some { f with sent := b }, suspended := true }).event p 0x085).emit
        (.txFragment (BitVec.ofNat 6 p) b)).pauseDue p
    else s
  | none => s

/-- PREEMPT. -/
def execPreempt (p : PortId) (offset : Nat) (s : State) : Host.Outcome State Fault Refusal := .next (s.preemptAt p.toNat offset)

/-! ### TX_FRAME_END (R25, R128, R256, R402) -/

/-- The counts of a sent frame. -/
def State.countSent (s : State) (p : Nat) (f : TxFr) : State :=
  let n := f.wire.length
  let s := (s.event p 0x040).count p 0x041 n
  let s := if f.injected then (s.event p 0x042).count p 0x043 n else s
  ((s.event p (0x044 + castOf f.wire)).event p (if f.smd then 0x048 else 0x047)).event p (0x050 + lenBand n)

/-- The record and the outcome of a sent frame. -/
def State.reportSent (s : State) (p : Nat) (f : TxFr) : State :=
  let n := f.wire.length
  let flags := flag 8 f.cal 0 ||| flag 8 f.updated 1 ||| flag 8 f.smd 2
  match f.src with
  | .inject iid => match s.injEntry iid with
    | some e =>
      let s := (s.injRecord e flags f.stamp 0 n).updInj iid fun e =>
        { e with sent := true, lenMinus1 := BitVec.ofNat 14 (n - 1), outcome := some 0, gen := s.genOf e.queue.toNat e.gen }
      s.mirrorInj { e with sent := true, lenMinus1 := BitVec.ofNat 14 (n - 1) } false
    | none => s
  | .pipe _ _ => s.pipeRecord p f.src (flags ||| flag 8 f.skipped 3) f.stamp 0 n

/-- The last FCS byte of the frame on the wire of a MAC leaves. -/
def State.txEnd (s : State) (p : Nat) (pre : Bool) : State :=
  let x := s.port p
  let go (f : TxFr) (x : Port) : State :=
    ((((((s.setPort p x).sendLast p f).zeroRetired p).countSent p f).reportSent p f).emit (.txEnd (BitVec.ofNat 6 p))).pauseDue p
      |>.startReads p
  if pre then match x.wireP with
    | some f => if x.suspended || x.wireE.isSome then s else go f { x with wireP := none }
    | none => s
  else match x.wireE with
    | some f => go f { x with wireE := none }
    | none => s

/-- TX_FRAME_END. -/
def execTxFrameEnd (p : PortId) (preempt : Bool) (s : State) : Host.Outcome State Fault Refusal := .next (s.txEnd p.toNat preempt)

/-! ### Cuts (R117, R145) -/

/-- The frames on the wire, and a remainder that waits, end unsent with reason 0x06. -/
def State.cutWire (s : State) (p : Nat) : State :=
  let x := s.port p
  let one (s : State) (o : Option TxFr) (cut : Bool) : State := match o with
    | some f => ((if cut then s.sendCut p f else s).unsent p f.src 6 0x061).emit (.txCut (BitVec.ofNat 6 p))
    | none => s
  one (one ((s.setPort p { x with wireE := none, wireP := none, suspended := false, ctlDue := false }).zeroRetired p) x.wireE true)
    x.wireP (!x.suspended)

end Machine
end Sys2Proof
end

