-- ==== Sys2Proof/Machine/Ports.lean ====
section
/-! DEFINITION. Ports and lanes (04, 05): PORTCFG, PORTUP and PORTDOWN (R68, R507), lane lock and deskew (R112 to R114), link
state (R115 to R117), FEC events and degradation (R129, R130), lane calibration (R254) and the verify exchange (R142). -/

namespace Sys2Proof
namespace Machine

/-! ### Link state (R115 to R117) -/

/-- The verify state of a port that is not UP (R142). -/
def Port.restVerify (x : Port) : Port :=
  { x with verify := if x.preemptEn then .initial else .disabled, attempts := 0 }

/-- A port leaves UP: the frame on the wire is cut, pause is no longer asserted, verification starts again. A frame in reception ends
(R120, R507). -/
def State.leaveUp (s : State) (p : Nat) : State :=
  let s := (s.event p 0x0C6).cutWire p
  s.setPort p { (s.port p).restVerify.setAsserted 0 s.clock with told := 0, endE := true, endP := true }

/-- A verify or respond mPacket: 60 bytes of zeros and their mCRC (R142, 802.3br). -/
def State.sendVerify (s : State) (p : Nat) (respond : Bool) : State :=
  let body := List.replicate 60 0
  (s.toLanes p (Pcs.send (preVerify respond) (body ++ mcrc body))).emit
    (if respond then .respond (BitVec.ofNat 6 p) else .verify (BitVec.ofNat 6 p))

/-- Verification starts (R142). -/
def State.startVerify (s : State) (p : Nat) : State :=
  let x := s.port p
  if !x.preemptEn then s
  else if x.verifyDisable then s.setPort p { x with verify := .noVerify, attempts := 0 }
  else (s.setPort p { x with verify := .verifying, attempts := 1, verifyAt := s.clock }).sendVerify p false

/-- A port reaches UP: verification starts, and pause is asserted for the lines that are high (R139: while the line is high; log
entry 111). -/
def State.enterUp (s : State) (p : Nat) : State :=
  let s := s.setPort p { s.port p with endE := false, endP := false }
  let s := s.startVerify p
  if s.wanted p = 0 then s else s.sendPause p

/-- A port leaves UP: what was in reception on it ends without acceptance, and no longer holds a drain (R195, R507). -/
def State.dropArriving (s : State) (p : Nat) : State :=
  s.forEach (s.slicesOfPort p) fun s k =>
    if (s.sliceL k).arriving.any (·.1 == p) then
      s.setSliceL k { s.sliceL k with arriving := (s.sliceL k).arriving.filter fun a => a.1 != p } else s

/-- The port's state changes, with the events of R129. A port that is down holds no frame in transmit staging (R116). -/
def State.setLink (s : State) (p : Nat) (st : PortSt) : State :=
  let x := s.port p
  if x.st = st then s
  else
    let s := if x.st = .up then (s.leaveUp p).dropArriving p else s
    let s := s.setPort p { s.port p with st := st }
    let s := if st = .training || st = .deskew then s else s.endBackground 3 p
    match st with
    | .up => s.enterUp p
    | .localFault => (s.event p 0x0C4).flushTx p
    | .remoteFault => (s.event p 0x0C5).flushTx p
    | _ => s.flushTx p

/-- The slice that takes the next frame of a port (R104), and the port after it. -/
def Port.deal (x : Port) (p : Nat) (pre : Bool) : Nat × Port :=
  if x.width != 8 then (p / 4, x)
  else if pre then (p / 4 + (if x.turnP then 1 else 0), { x with turnP := !x.turnP })
  else (p / 4 + (if x.turnE then 1 else 0), { x with turnE := !x.turnE })

/-- The lanes of a port. -/
def State.lanesOf (s : State) (p : Nat) : List Nat := (List.range (s.port p).width).map (p + ·)

/-- The logical lane under which a physical lane of a port counts (R135). -/
def State.logicalOf (s : State) (p l : Nat) : Nat :=
  if ennosMode (s.port p).mode then (s.lane l).logical.toNat else l - p

/-- A lane without lock. Its calibration is void until the first measurement after the next lock (R254). -/
def Lane.unlocked (x : Lane) : Lane :=
  { x with lock := false, cand := none, mark := none, badMarkers := 0, badCodewords := 0, rxValid := false, txValid := false,
           rxCal := 0, txCal := 0 }

/-- The lanes of a port are reset: no lock, no candidate. -/
def State.resetLanes (s : State) (p : Nat) : State := s.forEach (s.lanesOf p) fun s l => s.setLane l (s.lane l).unlocked

/-- Lanes lose their lock with their slice's PCS state (R399). That is none of R114's losses and counts none (R129); the ports
that counted on them train again, an 8-lane port of the other slice among them. -/
def State.dropLocks (s : State) (ls : List Nat) : State :=
  s.forEach ls fun s l =>
    let t := s.setLane l (s.lane l).unlocked
    match s.portOfLane l with
    | some p => (match (s.port p).st with
        | .up | .localFault | .remoteFault | .deskew => t.setLink p .training
        | _ => t)
    | none => t

/-- A lane loses lock (R114); its port leaves UP at once. What the peer's logical lane 0 reported ends with that lane's lock (R133). -/
def State.loseLock (s : State) (l : Nat) : State :=
  match s.portOfLane l with
  | none => s.setLane l (s.lane l).unlocked
  | some p =>
    let first := s.logicalOf p l = 0
    let s := (s.event p (0x0D8 + s.logicalOf p l)).setLane l (s.lane l).unlocked
    let x := { s.port p with localIn := false, remoteIn := false }
    let s := s.setPort p (if first then { x with peerPort := 0, peerMode := 0 } else x)
    match (s.port p).st with
    | .up | .localFault | .remoteFault | .deskew => s.setLink p .training
    | _ => s

/-- The state a deskewed port takes (R115). With both kinds of ordered set present LOCAL_FAULT comes first: R115 does not say which,
the choice is the model's (log entry 112). -/
def Port.linkState (x : Port) : PortSt := if x.localIn then .localFault else if x.remoteIn then .remoteFault else .up


/-! ### PORTCFG, PORTUP, PORTDOWN -/

/-- R68: the lanes p to p + w − 1 are free of other ports. -/
def State.lanesFree (s : State) (p w : Nat) : Bool :=
  allPorts.all fun q => q == p || !(s.port q).configured || decide (q + (s.port q).width ≤ p) || decide (p + w ≤ q)

/-- PORTCFG's operands. -/
def State.portcfgOk (s : State) (i : Ins) : Bool :=
  let p := i.target.toNat
  let mode : Byte := fld i.a 0 8
  let maxfrm := (fld i.b 0 15).toNat
  let w := (modeWidth mode).getD 1
  decide (p < 64) && (mode == 0 || (modeWidth mode).isSome) && (maxfrm == 0 || decide (64 ≤ maxfrm ∧ maxfrm ≤ 16384))
    && (s.port p).st == .down && p % w == 0 && s.lanesFree p w

/-- The slices a port of width w at p needs. -/
def slicesAt (p w : Nat) : List Nat := if w == 8 then [p / 4, p / 4 + 1] else [p / 4]

/-- PORTCFG (R68, R103, R131). -/
def runPortcfg (_ : Nat) (_ : BitVec 16) (i : Ins) (s : State) : Ran :=
  let p := i.target.toNat
  let mode : Byte := fld i.a 0 8
  if !s.portcfgOk i then .bad .badOperand s
  else if !(slicesAt p ((modeWidth mode).getD 1)).all s.sliceOn then .bad .targetAsleep s
  else
    let s := s.resetLanes p
    let x := s.port p
    let y : Port := { x with
      mode := mode, preemptEn := bitOf i.a 8, protect := bitOf i.a 9, memberGuard := bitOf i.a 10,
      maxfrm := if fld i.b 0 15 = 0 then x.maxfrm else fld i.b 0 15,
      thresholdNow := x.threshold, corrected := 0, degrade := false, remoteDegrade := false, peerPort := 0, peerMode := 0, localIn := false, remoteIn := false }
    .ok (z64 mode) 0 (s.setPort p y.restVerify)

/-- PORTCFG. -/
def execPortcfg (q : QId) (i : Ins) (s : State) : Host.Outcome State Fault Refusal := begins q 0x20 true i runPortcfg s

/-- R507: a target that names a configured port whose slices are on. -/
def State.portCheck (s : State) (i : Ins) : Option Status :=
  let p := i.target.toNat
  if 64 ≤ p || !(s.port p).configured then some .badOperand
  else if !s.portOn p then some .targetAsleep else none

/-- R507: a port in DOWN starts training, and its lanes begin to transmit (R101, R107). A port that a slice fault holds in DOWN stays
there (R406, log entry 32). -/
def State.enablePort (s : State) (p : Nat) : State :=
  let x := s.port p
  if x.st = .down && !s.portHeld p then ((s.setPort p { x with turnE := false, turnP := false }).startPcs p).setLink p .training
  else s

/-- A step of PORTUP, one microsecond after the last (R507). -/
def stepPortup (i : Ins) (since : Nat) (s : State) : Ran :=
  let waited := s.pm.micros - since
  if (s.port i.target.toNat).st = .up then .ok (BitVec.ofNat 64 waited) 0 s
  else if i.a.toNat ≤ waited + 1 then .done .timeout (z64 i.a) 0 s
  else .more (.portup since) s.microPasses

/-- PORTUP (R507). -/
def runPortup (_ : Nat) (queue : BitVec 16) (i : Ins) (s : State) : Ran :=
  let p := i.target.toNat
  match s.portCheck i with
  | some st => .bad st s
  | none =>
    if (s.port p).st = .quarantined then .bad .badOperand s
    else if (s.port p).st = .up then .ok 0 0 s
    else
      let t := s.enablePort p
      let began := (s.port p).st == .down && (t.port p).st == .training
      if i.a = 0 then .ok 0 0 (if began then t.beginBackground queue 3 p else t)
      else .more (.portup t.pm.micros) t

/-- PORTUP. -/
def execPortup (q : QId) (i : Ins) (s : State) : Host.Outcome State Fault Refusal := begins q 0x21 true i runPortup s

/-- Injected frames among some transmit frames. -/
def injectedIn (l : List TxFr) : Nat := (l.filter (·.injected)).length

/-- The frames on the wire of a port, and the remainder that waits. -/
def Port.onWire (x : Port) : List TxFr := x.wireE.toList ++ x.wireP.toList

/-- Step 1 of PORTDOWN: the transmit intake stops; injected frames not yet in staging are reported (R507). -/
def State.stopIntake (s : State) (p : Nat) : State :=
  let waiting := s.qs.inj.filter fun e => e.port.toNat == p && e.outcome.isNone && (!e.fetching || e.cells != 0)
  let s := s.setPort p { s.port p with txStopped := true, stopRefused := waiting.length }
  s.forEach waiting fun s e => s.unsent p (.inject e.iid) 5 0x060

/-- A step of PORTDOWN: 1 empties transmit staging and cuts the wire if asked, 2 waits for the frame on the wire and takes the
lanes to idle. A remainder that waits never completes on its own and is cut with the port (R145). -/
def stepPortdown (i : Ins) (phase reported : Nat) (s : State) : Ran :=
  let p := i.target.toNat
  let x := s.port p
  if phase = 1 then
    let n := reported + injectedIn x.tx + (if bitOf i.a 0 then injectedIn x.onWire else 0)
    let s := s.flushTx p
    .more (.portdown 2 n) (if bitOf i.a 0 then s.cutWire p else s)
  else if !x.wireFree then .wait (.portdown 2 reported) s
  else
    let n := reported + injectedIn x.onWire + x.stopRefused
    let s := (s.setLink p .down).resetLanes p
    .ok (BitVec.ofNat 64 n) 0 (s.setPort p { s.port p with txStopped := false, stopRefused := 0, localIn := false,
                                                           remoteIn := false })

/-- PORTDOWN (R507). A port in QUARANTINED leaves that state only with the mode (R115): BAD_OPERAND (log entry 33). -/
def runPortdown (_ : Nat) (_ : BitVec 16) (i : Ins) (s : State) : Ran :=
  let p := i.target.toNat
  match s.portCheck i with
  | some st => .bad st s
  | none =>
    if (s.port p).st = .quarantined then .bad .badOperand s
    else if (s.port p).st = .down then .ok 0 0 s
    else .more (.portdown 1 0) (s.stopIntake p)

/-- PORTDOWN. -/
def execPortdown (q : QId) (i : Ins) (s : State) : Host.Outcome State Fault Refusal := begins q 0x22 true i runPortdown s

/-! ### Lanes (R112 to R114, R129) -/

/-- LANE_SIGNAL_DETECT: a lane's PMA signal detect changes. -/
def State.signalDetect (s : State) (l : Nat) (high : Bool) : State :=
  let x := s.lane l
  let s := s.setLane l { x with signal := high }
  match s.portOfLane l with
  | none => s
  | some p =>
    if !x.signal || high || !s.portOn p then s
    else
      let s := s.event p (0x0E0 + s.logicalOf p l)
      if x.lock then s.loseLock l else s

/-- LANE_SIGNAL_DETECT. -/
def execLaneSignalDetect (l : PortId) (high : Bool) (s : State) : Host.Outcome State Fault Refusal :=
  .next (s.signalDetect l.toNat high)

/-- R132, R133: what a marker of an Ennos lane mode reports of the link partner. -/
def Port.peerSays (x : Port) (logical : BitVec 3) (m : Marker) : Port :=
  let y := { x with remoteDegrade := m.degraded }
  if logical = 0 then { y with peerPort := m.port, peerMode := m.mode } else y

/-- A marker passes R112's test for a lane without lock; in an 802.3 mode, the standard's (R105). -/
def candidateOf (mode : Byte) (m : Marker) : Bool := if ennosMode mode then m.isCandidate else m.ieeeGood

/-- A marker is good (R112); in an 802.3 mode, by the standard's test (R105). -/
def goodMarker (mode : Byte) (m : Marker) : Bool := if ennosMode mode then m.isGood else m.ieeeGood

/-- The two candidates of R112 agree: the same lane and consecutive am_seq; 802.3 markers carry no am_seq (R105). -/
def followsMarker (m : Marker) (mode : Byte) (lane : BitVec 3) (seq : Byte) : Bool :=
  !ennosMode mode || (m.lane == lane && m.seq == seq + 1)

/-- A good marker since which the lane has not been deskewed, and the am_seq it carried (R113, R135). -/
def Lane.marked (x : Lane) (mode : Byte) (m : Marker) : Lane :=
  if !goodMarker mode m then x
  else if ennosMode mode then { x with amSeq := m.seq, mark := some (m.seq, m.arrival) }
  else { x with mark := some (0, m.arrival) }

/-- A lane gains lock with a marker (R112). -/
def State.gainLock (s : State) (p l : Nat) (m : Marker) : State :=
  let mode := (s.port p).mode
  let x := (s.lane l).unlocked
  let logical := if ennosMode mode then m.lane else BitVec.ofNat 3 (l - p)
  let s := s.setLane l (Lane.marked { x with lock := true, logical := logical } mode m)
  if ennosMode mode then s.setPort p ((s.port p).peerSays logical m) else s

/-- A marker candidate of a lane without lock (R112). How many candidates a lane follows at a time is the model's choice: one, and an
accepted candidate off its period takes its place (log entry 113). -/
def State.candidate (s : State) (p l : Nat) (m : Marker) : State :=
  let x := s.lane l
  let mode := (s.port p).mode
  if !candidateOf mode m then s.setLane l { x with cand := if m.onPeriod then none else x.cand }
  else if ennosMode mode && m.mode != mode then s.setLane l { x with mismatch := true, cand := none }
  else match x.cand with
    | some (_, lane, seq) =>
      if m.onPeriod && followsMarker m mode lane seq then s.gainLock p l m
      else s.setLane l { x with cand := some (mode, m.lane, m.seq) }
    | none => s.setLane l { x with cand := some (mode, m.lane, m.seq) }

/-- A marker slot of a locked lane (R112, R114, R132, R133). -/
def State.lockedMarker (s : State) (p l : Nat) (m : Marker) : State :=
  let x := s.lane l
  let mode := (s.port p).mode
  if goodMarker mode m then
    let s := s.setLane l (Lane.marked { x with badMarkers := 0 } mode m)
    if ennosMode mode then s.setPort p ((s.port p).peerSays x.logical m) else s
  else
    let s := (s.event p (0x0D0 + s.logicalOf p l)).setLane l { x with badMarkers := x.badMarkers + 1 }
    if 3 ≤ x.badMarkers + 1 then s.loseLock l else s

/-- R113: every lane of a port names a logical lane of its own. -/
def State.lanesDistinct (s : State) (p : Nat) : Bool :=
  !ennosMode (s.port p).mode || ((s.lanesOf p).map fun l => (s.lane l).logical.toNat).Nodup

/-- R113: 409.6 ns, in ps. -/
def maxSkew : Nat := 409600

/-- R113: the deskew attempt by the last good markers of every lane: none while they do not yet all carry one am_seq; otherwise whether
their skew is within the limit and their logical lanes are distinct. -/
def State.deskewed (s : State) (p : Nat) : Option Bool :=
  let marks := (s.lanesOf p).filterMap fun l => (s.lane l).mark
  if marks.length != (s.port p).width then none
  else if !s.lanesDistinct p then some false
  else match marks with
    | [] => none
    | (seq, at0) :: t =>
      if !t.all fun m => m.1 == seq then none
      else some ((t.map (·.2)).foldl max at0 - (t.map (·.2)).foldl min at0 ≤ maxSkew)

/-- Training and deskew: once every lane is locked the port is in DESKEW. The attempt is made on the good markers that follow; a failed
one is counted, and the port tries again at the next markers (R113, R115, log entry 34). -/
def State.deskewStep (s : State) (p : Nat) : State :=
  let x := s.port p
  let all := (s.lanesOf p).all fun l => (s.lane l).lock
  if x.st = .training && all then
    (s.forEach (s.lanesOf p) fun s l => s.setLane l { s.lane l with mark := none }).setLink p .deskew
  else if x.st = .deskew && all then
    match s.deskewed p with
    | some true => s.setLink p x.linkState
    | some false => (s.event p 0x0C2).setLink p .training
    | none => s
  else s

/-- ALIGNMENT_MARKER: a marker slot on a lane. -/
def State.marker (s : State) (l : Nat) (m : Marker) : State :=
  match s.portOfLane l with
  | none => s
  | some p =>
    if !s.pcsRuns p || !(s.lane l).signal then s
    else ((if (s.lane l).lock then s.lockedMarker p l m else s.candidate p l m)).deskewStep p

/-- ALIGNMENT_MARKER. -/
def execAlignmentMarker (l : PortId) (m : Marker) (s : State) : Host.Outcome State Fault Refusal := .next (s.marker l.toNat m)

/-- FEC_CODEWORD_DECODE: a codeword of a locked lane (R114, R129). Its 20 blocks carry 80 66B blocks (R107). -/
def State.codeword (s : State) (l corrected badBlocks : Nat) (bad : Bool) : State :=
  match s.portOfLane l with
  | none => s
  | some p =>
    let x := s.lane l
    if !s.pcsRuns p || !x.lock then s
    else
    let s := s.count p 0x0C3 (min badBlocks 80)
    if bad then
      let s := (s.event p 0x0C1).setLane l { x with badCodewords := x.badCodewords + 1 }
      if 16 ≤ x.badCodewords + 1 then s.loseLock l else s
    else
      let s := s.setLane l { x with badCodewords := 0 }
      let n := min corrected 15
      if n = 0 then s
      else
        let s := (s.event p 0x0C0).count p (0x0C8 + s.logicalOf p l) n
        s.setPort p { s.port p with corrected := (s.port p).corrected + n }

/-- FEC_CODEWORD_DECODE. -/
def execFecCodewordDecode (l : PortId) (corrected badBlocks : Nat) (uncorrectable : Bool) (s : State) :
    Host.Outcome State Fault Refusal := .next (s.codeword l.toNat corrected badBlocks uncorrectable)

/-- FEC_DEGRADE_INTERVAL (R130): the end of a 1 ms interval. The threshold that SET has written since it began applies to the next
(R134). -/
def State.degradeInterval (s : State) (p : Nat) : State :=
  let x := s.port p
  if !s.pcsRuns p then s
  else
    let excess := decide (x.thresholdNow.toNat < x.corrected) && x.thresholdNow != 0xFFFFFFFF
    let s := s.setPort p { x with degrade := excess, corrected := 0, thresholdNow := x.threshold }
    if excess then s.event p 0x0C7 else s

/-- FEC_DEGRADE_INTERVAL. -/
def execFecDegradeInterval (p : PortId) (s : State) : Host.Outcome State Fault Refusal := .next (s.degradeInterval p.toNat)

/-- FAULT_ORDERED_SET: fault ordered sets of one kind start or clear (R115, R129). They are seen only on a deskewed port. -/
def State.faultSets (s : State) (p : Nat) (remote present : Bool) : State :=
  let x := s.port p
  if !s.pcsRuns p then s
  else match x.st with
    | .up | .localFault | .remoteFault | .deskew =>
      let y := if remote then { x with remoteIn := present } else { x with localIn := present }
      let s := s.setPort p y
      if x.st = .deskew then s else s.setLink p y.linkState
    | _ => s

/-- FAULT_ORDERED_SET. -/
def execFaultOrderedSet (p : PortId) (remote : Bool) (present : Bool) (s : State) : Host.Outcome State Fault Refusal :=
  .next (s.faultSets p.toNat remote present)

/-- LANE_CALIBRATION: Postmark measures a locked lane (R254, R282). -/
def State.calibrate (s : State) (l : Nat) (rx tx : BitVec 15) : State :=
  if s.isOn dTIME && (s.lane l).lock && s.sliceOn (l / 4) then
    s.setLane l { s.lane l with rxValid := true, txValid := true, rxCal := rx, txCal := tx }
  else s

/-- LANE_CALIBRATION. -/
def execLaneCalibration (l : PortId) (rx tx : BitVec 15) (s : State) : Host.Outcome State Fault Refusal :=
  .next (s.calibrate l.toNat rx tx)

/-! ### Verification (R142, R160) -/

/-- VERIFY_RECEIVE: a verify mPacket is answered whenever preemption is enabled. -/
def execVerifyReceive (p : PortId) (s : State) : Host.Outcome State Fault Refusal :=
  .next (if (s.port p.toNat).preemptEn && (s.port p.toNat).st == .up then s.sendVerify p.toNat true else s)

/-- RESPOND_RECEIVE. -/
def execRespondReceive (p : PortId) (s : State) : Host.Outcome State Fault Refusal :=
  let x := s.port p.toNat
  .next (if x.verify = .verifying then s.setPort p.toNat { x with verify := .succeeded } else s)

/-- VERIFY_TIMER: verify_time has passed since the last verify mPacket, by the block's clock. -/
def State.verifyTimer (s : State) (p : Nat) : State :=
  let x := s.port p
  if x.verify ≠ .verifying || !s.msPassed x.verifyTime.toNat x.verifyAt then s
  else if x.attempts.toNat < 3 then
    (s.setPort p { x with attempts := x.attempts + 1, verifyAt := s.clock }).sendVerify p false
  else (s.setPort p { x with verify := .failed }).event p 0x087

/-- VERIFY_TIMER. -/
def execVerifyTimer (p : PortId) (s : State) : Host.Outcome State Fault Refusal := .next (s.verifyTimer p.toNat)

end Machine
end Sys2Proof
end

