-- ==== Sys2Proof/Machine/Guards.lean ====
section
/-! DEFINITION. Sent pause and PFC (R139 to R141), the franking guards (R147 to R155) with GUARDSET and GUARDLOCK, and the
expiry of received pause (R137). -/

namespace Sys2Proof
namespace Machine

/-! ### XOFF lines, refresh and the end of pause times -/

/-- XOFF_CHANGE: a line rises or falls. Lines of ports that are not configured are ignored, and all while the slice's clock
is stopped (R466): the level stands on the pin and is taken later. -/
def State.xoffChange (s : State) (p i : Nat) (high : Bool) : State :=
  let x := s.port p
  if bitOf x.xoff i == high then s
  else
    let s := s.setPort p { x with xoff := setBit x.xoff i high }
    if !x.configured || !s.portOn p || bitOf (s.guarded p) i then s else s.sendPause p

/-- XOFF_CHANGE. -/
def execXoffChange (p : PortId) (i : Prio) (high : Bool) (s : State) : Host.Outcome State Fault Refusal :=
  .next (s.xoffChange p.toNat i.toNat high)

/-- R157: the refresh interval in use, in quanta. -/
def Port.refreshInterval (x : Port) : Nat := max 1 (min (x.refresh.toNat * 16) (x.quanta.toNat / 2))

/-- PFC_REFRESH: the refresh interval of a priority whose line is still high has run out since the last byte of the frame that last
asserted it (R139, R157). -/
def State.pfcRefresh (s : State) (p i : Nat) : State :=
  let x := s.port p
  if bitOf (s.lines p) i && bitOf (s.wanted p) i && x.quantaPassed x.refreshInterval (Tab.get 0 x.toldAt i) s.clock then s.sendPause p
  else s

/-- PFC_REFRESH. -/
def execPfcRefresh (p : PortId) (i : Prio) (s : State) : Host.Outcome State Fault Refusal := .next (s.pfcRefresh p.toNat i.toNat)

/-- SENT_PAUSE_EXPIRE: the time of the last frame that asserted the priority has run out (R150). -/
def State.sentExpires (s : State) (p i : Nat) : State :=
  let x := s.port p
  if bitOf x.asserted i && x.quantaPassed (Tab.get 0 x.toldTime i).toNat (Tab.get 0 x.toldAt i) s.clock then
    s.setPort p (x.setAsserted (setBit x.asserted i false) s.clock)
  else s

/-- SENT_PAUSE_EXPIRE. -/
def execSentPauseExpire (p : PortId) (i : Prio) (s : State) : Host.Outcome State Fault Refusal :=
  .next (s.sentExpires p.toNat i.toNat)

/-- PAUSE_EXPIRE: a priority's received pause time has run out (R137). -/
def State.pauseExpires (s : State) (p i : Nat) : State :=
  let x := s.port p
  if x.quantaPassed (Tab.get 0 x.pauseTime i).toNat (Tab.get 0 x.pauseFrom i) s.clock then s.setPort p (x.setPaused i 0 s.clock) else s

/-- PAUSE_EXPIRE. -/
def execPauseExpire (p : PortId) (i : Prio) (s : State) : Host.Outcome State Fault Refusal :=
  .next (s.pauseExpires p.toNat i.toNat)

/-! ### Duty ceiling and watchdogs (R150, R151) -/

/-- R150: the sum of a priority's duty reaches its ceiling. -/
def State.dutyReached (s : State) (p i : Nat) : Bool :=
  decide (((s.guardPort p).ceiling i).toNat * dutyWindow ≤ 256 * (s.port p).dutySum i s.clock)

/-- R150: the sum has fallen to 7/8 of the limit. -/
def State.dutyFallen (s : State) (p i : Nat) : Bool :=
  decide (8 * (256 * (s.port p).dutySum i s.clock) ≤ 7 * (((s.guardPort p).ceiling i).toNat * dutyWindow))

/-- DUTY_CLIP: the duty sum of a priority that is asserted, or whose line asks for it, reaches its ceiling. -/
def State.dutyClip (s : State) (p i : Nat) : State :=
  let x := s.port p
  if !bitOf (x.asserted ||| x.xoff) i || bitOf x.dutyClipped i || !s.dutyReached p i then s
  else
    let s := (s.setPort p { x with dutyClipped := setBit x.dutyClipped i true }).event p (0x098 + i)
    (if bitOf x.asserted i then s.sendPause p else s).guardEvent p 2 (BitVec.ofNat 8 i) 1 1

/-- DUTY_CLIP. -/
def execDutyClip (p : PortId) (i : Prio) (s : State) : Host.Outcome State Fault Refusal := .next (s.dutyClip p.toNat i.toNat)

/-- A guard lets a priority go: pause is asserted again for every line that now counts (R139, R150, R151). -/
def State.honourLine (s : State) (p : Nat) : State :=
  if s.wanted p &&& ~~~ (s.port p).asserted = 0 then s else s.sendPause p

/-- DUTY_RELEASE. -/
def State.dutyRelease (s : State) (p i : Nat) : State :=
  let x := s.port p
  if !bitOf x.dutyClipped i || !s.dutyFallen p i then s
  else (((s.setPort p { x with dutyClipped := setBit x.dutyClipped i false }).guardEvent p 2 (BitVec.ofNat 8 i) 2 1)).honourLine p

/-- DUTY_RELEASE. -/
def execDutyRelease (p : PortId) (i : Prio) (s : State) : Host.Outcome State Fault Refusal := .next (s.dutyRelease p.toNat i.toNat)

/-- STORM_WATCHDOG_RX: the partner has held a priority paused for the detect time. -/
def State.stormRx (s : State) (p i : Nat) : State :=
  let x := s.port p
  if !bitOf x.rxPaused i || bitOf x.rxIgnored i || !s.msPassed (s.guardPort p).rxDetect.toNat (Tab.get 0 x.pausedAt i) then s
  else
    ((s.setPort p { x with rxIgnored := setBit x.rxIgnored i true, stormRxAt := Tab.put 0 x.stormRxAt i s.clock }).event p
      (0x0A0 + i)).guardEvent p 3 (BitVec.ofNat 8 i) 1 1

/-- STORM_WATCHDOG_RX. -/
def execStormWatchdogRx (p : PortId) (i : Prio) (s : State) : Host.Outcome State Fault Refusal := .next (s.stormRx p.toNat i.toNat)

/-- Ennos has asserted a priority without a break for the detect time, and its watchdog does not hold yet. -/
def State.stormTxDue (s : State) (p i : Nat) : Bool :=
  bitOf (s.port p).asserted i && !bitOf (s.port p).stormTx i
    && s.msPassed (s.guardPort p).txDetect.toNat (Tab.get 0 (s.port p).assertedAt i)

/-- The sent-pause watchdog of a priority engages. -/
def State.stormTxEngages (s : State) (p i : Nat) : State :=
  let x := s.port p
  ((s.setPort p { x with stormTx := setBit x.stormTx i true, stormTxAt := Tab.put 0 x.stormTxAt i s.clock }).event p
    (0x0A8 + i)).guardEvent p 4 (BitVec.ofNat 8 i) 1 1

/-- STORM_WATCHDOG_TX. In pause mode 0b01 one frame asserts every priority, so the watchdogs of all that it has asserted for as long fire
together (log entry 35). -/
def State.stormTxFires (s : State) (p i : Nat) : State :=
  if !s.stormTxDue p i then s
  else
    let due := if (s.port p).txMode = 1 then (List.range 8).filter fun j => s.stormTxDue p j else [i]
    (s.forEach due fun s j => s.stormTxEngages p j).sendPause p

/-- STORM_WATCHDOG_TX. -/
def execStormWatchdogTx (p : PortId) (i : Prio) (s : State) : Host.Outcome State Fault Refusal :=
  .next (s.stormTxFires p.toNat i.toNat)

/-- STORM_HOLD_EXPIRE: the hold time of the sent-pause (`sent`) or the received-pause watchdog has passed. -/
def State.stormRelease (s : State) (p i : Nat) (sent : Bool) : State :=
  let x := s.port p
  if sent then
    if !bitOf x.stormTx i || !s.msPassed (s.guardPort p).txHold.toNat (Tab.get 0 x.stormTxAt i) then s
    else ((s.setPort p { x with stormTx := setBit x.stormTx i false }).guardEvent p 4 (BitVec.ofNat 8 i) 2 1).honourLine p
  else if !bitOf x.rxIgnored i || !s.msPassed (s.guardPort p).rxHold.toNat (Tab.get 0 x.stormRxAt i) then s
  else
    (s.setPort p { x with rxIgnored := setBit x.rxIgnored i false, pausedAt := Tab.put 0 x.pausedAt i s.clock }).guardEvent p 3
      (BitVec.ofNat 8 i) 2 1

/-- STORM_HOLD_EXPIRE. -/
def execStormHoldExpire (p : PortId) (i : Prio) (sent : Bool) (s : State) : Host.Outcome State Fault Refusal :=
  .next (s.stormRelease p.toNat i.toNat sent)

/-- The guard may report its refusals: none has been reported in the last 1 ms (R155). -/
def State.mayReport (s : State) (p guard : Nat) : Bool :=
  match Tab.get none (s.port p).reportedAt guard with | some t => s.msPassed 1 t | none => true

/-- GUARD_REFUSAL_REPORT: at most once in 1 ms a refusal guard reports its refusals (R155). -/
def State.refusalReport (s : State) (p : Nat) (guard : Byte) : State :=
  let g := guard.toNat
  let x := { s.port p with reportedAt := Tab.put none (s.port p).reportedAt g (some s.clock) }
  if !s.mayReport p g then s
  else match g with
    | 5 => if x.refused5 = 0 then s else (s.setPort p { x with refused5 := 0 }).guardEvent p 5 0xFF 3 x.refused5
    | 6 => if x.refused6 = 0 then s else (s.setPort p { x with refused6 := 0 }).guardEvent p 6 0xFF 3 x.refused6
    | 8 => if x.refused8 = 0 then s else (s.setPort p { x with refused8 := 0 }).guardEvent p 8 0xFF 3 x.refused8
    | _ => s

/-- GUARD_REFUSAL_REPORT. -/
def execGuardRefusalReport (p : PortId) (guard : Byte) (s : State) : Host.Outcome State Fault Refusal :=
  .next (s.refusalReport p.toNat guard)

/-! ### GUARDSET and GUARDLOCK (R147 to R149) -/

/-- The duty ceilings with one value written to the priorities of a mask. -/
def setDuty (d : DWord) (mask c : Byte) : DWord :=
  (List.range 8).foldl (fun d i => if bitOf mask i then (d &&& ~~~ (at' 64 0xFF#8 (8 * i))) ||| at' 64 c (8 * i) else d) d

/-- The ranges of R147 and R149. -/
def guardOk (i : Ins) : Bool :=
  let detect := (fld i.b 0 16).toNat
  let hold := (fld i.b 16 16).toNat
  match (fld i.a 0 8).toNat with
  | 2 => decide ((fld i.b 0 8).toNat ≤ 192)
  | 3 => decide (1 ≤ detect ∧ detect ≤ 1000 ∧ 1 ≤ hold ∧ hold ≤ 10000)
  | 4 => decide (1 ≤ detect ∧ detect ≤ 50 ∧ 1 ≤ hold ∧ hold ≤ 10000)
  | 5 => true
  | 6 => decide (1 ≤ (fld i.b 32 16).toNat ∧ (fld i.b 32 16).toNat ≤ 64)
  | 8 => true
  | _ => false

/-- A port's guard settings after GUARDSET. -/
def GuardPort.apply (g : GuardPort) (i : Ins) : GuardPort :=
  match (fld i.a 0 8).toNat with
  | 2 => { g with duty := setDuty g.duty (fld i.b 8 8) (fld i.b 0 8) }
  | 3 => { g with rxHold := fld i.b 16 16, rxDetect := fld i.b 0 16 }
  | 4 => { g with txHold := fld i.b 16 16, txDetect := fld i.b 0 16 }
  | 5 => { g with allow := Tab.put 0 g.allow (fld i.b 0 4).toNat (at' 49 (fld i.e0 0 48) 0 ||| flag 49 (bitOf i.b 4) 48) }
  | 6 => { g with rate := fld i.b 0 32, burst := fld i.b 32 7 }
  | 8 => { g with floor := bitOf i.b 0 }
  | _ => g

/-- Result A of GUARDSET: the setting in force. With an empty priority mask the ceiling field names no priority: a free value
(log entry 36). -/
def State.guardResult (s : State) (g : GuardPort) (i : Ins) : DWord × State :=
  match (fld i.a 0 8).toNat with
  | 2 =>
    let mask : Byte := fld i.b 8 8
    match priosOf mask with
    | p :: _ => (at' 64 mask 8 ||| at' 64 (g.ceiling p) 0, s)
    | [] => let (v, s) := s.takeFree 8; (at' 64 v 0, s)
  | 3 => (at' 64 g.rxHold 16 ||| at' 64 g.rxDetect 0, s)
  | 4 => (at' 64 g.txHold 16 ||| at' 64 g.txDetect 0, s)
  | 5 =>
    let e := Tab.get 0 g.allow (fld i.b 0 4).toNat
    (at' 64 (fld e 0 48) 16 ||| flag 64 (bitOf e 48) 4 ||| at' 64 (fld i.b 0 4) 0, s)
  | 6 => (at' 64 g.burst 32 ||| at' 64 g.rate 0, s)
  | 8 => (flag 64 g.floor 0, s)
  | _ => (0, s)

/-- The ports GUARDSET names. -/
def guardTargets (i : Ins) : List Nat := if i.target = 0xFFFF then allPorts else [i.target.toNat]

/-- GUARDSET writes one port's setting; guard 0x06 fills its bucket (R153). -/
def State.guardWrite (s : State) (i : Ins) (p : Nat) : State :=
  let s := s.setGuardPort p ((s.guardPort p).apply i)
  if (fld i.a 0 8).toNat = 6 then s.setPort p { s.port p with spent := 0 } else s

/-- GUARDSET. -/
def runGuardset (_ : Nat) (_ : BitVec 16) (i : Ins) (s : State) : Ran :=
  if !(i.target = 0xFFFF || targetBelow i 64) || !guardOk i then .bad .badOperand s
  else if s.guards.locked then .bad .guardLocked s
  else
    let s := s.forEach (guardTargets i) fun s p => s.guardWrite i p
    let (a, s) := s.guardResult (s.guardPort (if i.target = 0xFFFF then 0 else i.target.toNat)) i
    .ok a 0 s

/-- GUARDSET. -/
def execGuardset (q : QId) (i : Ins) (s : State) : Host.Outcome State Fault Refusal := begins q 0x62 true i runGuardset s

/-- GUARDLOCK. -/
def runGuardlock (_ : Nat) (_ : BitVec 16) (_ : Ins) (s : State) : Ran :=
  if s.guards.locked then .bad .guardLocked s else .ok 0 0 { s with guards := { s.guards with locked := true } }

/-- GUARDLOCK. -/
def execGuardlock (q : QId) (i : Ins) (s : State) : Host.Outcome State Fault Refusal := begins q 0x63 true i runGuardlock s

end Machine
end Sys2Proof
end

