-- ==== Sys2Proof/Machine/Sort.lean ====
section
/-! DEFINITION. Classification of one frame (06 R170 to R192): the L2 head, the bindings, the sort program, the payload
patterns, the symmetric hash, the rules, and the metadata word (R198). Nothing here changes the state. -/

namespace Sys2Proof
namespace Machine

/-! ### The L2 head (R173) -/

structure L2 where
  vlan : BitVec 12 := 0
  inner : BitVec 12 := 0
  pcp : BitVec 3 := 0
  ethertype : BitVec 16 := 0
  /-- First byte after the EtherType. -/
  cursor : Nat := 14
  tagged : Bool := false
  deriving DecidableEq, Repr

/-- The 16 bits at an offset, in network order. -/
def be16 (f : List Byte) (o : Nat) : BitVec 16 := BitVec.ofNat 16 (beNat (slice f o 2))

/-- R173. -/
def l2Head (f : List Byte) : L2 :=
  let t0 := be16 f 12
  if t0 = 0x88A8#16 || t0 = 0x8100#16 then
    let tci := be16 f 14
    if be16 f 16 = 0x8100#16 then
      { vlan := fld tci 0 12, inner := fld (be16 f 18) 0 12, pcp := fld tci 13 3, ethertype := be16 f 20, cursor := 22, tagged := true }
    else { vlan := fld tci 0 12, pcp := fld tci 13 3, ethertype := be16 f 16, cursor := 18, tagged := true }
  else { ethertype := t0 }

/-! ### Bindings (R174, R175) -/

/-- A valid entry of the binding table that meets a condition on its fields; an entry with a table error does not act
(R406). -/
def SliceL.bindingFor (x : SliceL) (p : QWord → Bool) : BitVec 14 :=
  match x.bindings.find? fun kv => bitOf kv.2 127 && !x.badEntries.contains (7, false, kv.1) && p kv.2 with
  | some kv => fld kv.2 94 14
  | none => 0

/-- The entry's VLAN and address. -/
def bindingMatches (b : QWord) (vlan : BitVec 12) (addr : BitVec 48) : Bool :=
  fld b 0 48 == addr && (bitOf b 126 || fld b 108 12 == vlan)

/-- R175: the source member. -/
def SliceL.source (x : SliceL) (port : Nat) (vlan : BitVec 12) (f : List Byte) : BitVec 14 :=
  x.bindingFor fun b => (fld b 120 6).toNat == port && bindingMatches b vlan (BitVec.ofNat 48 (leNat (slice f 6 6)))

/-- R175: the destination member. -/
def SliceL.dest (x : SliceL) (vlan : BitVec 12) (f : List Byte) : BitVec 14 :=
  x.bindingFor fun b => bindingMatches b vlan (BitVec.ofNat 48 (leNat (slice f 0 6)))

/-! ### The replica (R177, R178) -/

/-- The control-store word of a sort-program word. -/
def sortAt (n : Nat) : Nat := if n < 0xE00 then 0xD000 + n else 0xFE00 + (n - 0xE00)

/-- The control-store word of a dispatch entry. -/
def dispatchAt (d : Nat) : Nat := if d < 0xE0 then 0xDF80 + d / 2 else 0xFDF0 + (d - 0xE0) / 2

/-- A dispatch entry of the replica. -/
def SliceL.dispatch (x : SliceL) (d : Nat) : DWord := fld (Tab.get 0 x.replica (dispatchAt d)) (64 * (d % 2)) 64

/-- The lowest-numbered valid entry of a search space with a selector; space 0 finds nothing (R178). -/
def SliceL.search (x : SliceL) (space : BitVec 4) (sel : BitVec 16) : Option Nat :=
  if space = 0 then none
  else (List.range 256).find? fun d =>
    let e := x.dispatch d
    bitOf e 63 && fld e 44 4 == space && fld e 24 16 == sel

/-! ### The sort program (R179 to R184) -/

/-- What a parse has found so far. -/
structure Parse where
  cursor : Nat := 0
  flex : List Byte := List.replicate 28 0
  ha : List Byte := []
  hb : List Byte := []
  pa : List Byte := [0, 0]
  pb : List Byte := [0, 0]
  pr : Byte := 0
  marks : BitVec 4 := 0
  outer : BitVec 2 := 0
  fault : Bool := false
  deriving DecidableEq, Repr

/-- R181: the last bytes of `v`, right-aligned in a register of `n` bytes. -/
def hashReg (n : Nat) (v : List Byte) : List Byte := slice (List.replicate n 0 ++ v) v.length n

/-- R181: a parse at its start. -/
def Parse.start (f : List Byte) (cursor : Nat) : Parse :=
  { cursor := cursor, ha := hashReg 16 (slice f 6 6), hb := hashReg 16 (slice f 0 6) }

/-- R181: an extractor writes. -/
def Parse.extract (s : Parse) (dst : BitVec 6) (v : List Byte) : Parse :=
  let d := dst.toNat
  if d ≤ 0x1B then { s with flex := overlay s.flex d v }
  else match d with
    | 0x20 => { s with ha := hashReg 16 v }
    | 0x21 => { s with hb := hashReg 16 v }
    | 0x22 => { s with pa := hashReg 2 v }
    | 0x23 => { s with pb := hashReg 2 v }
    | 0x24 => { s with pr := byteAt (hashReg 1 v) 0 }
    | _ => s

/-- A destination that an extractor writes. -/
def writesTo (dst : BitVec 6) : Bool := decide (dst.toNat ≤ 0x24) && !(decide (0x1C ≤ dst.toNat) && decide (dst.toNat ≤ 0x1F))

/-- R182 step 1: the ranges of bytes a word uses, as offset from the cursor and length. -/
def usedBytes (w : QWord) : List (Nat × Nat) :=
  let op := (fld w 126 2).toNat
  let x0 := if writesTo (fld w 94 6) then [((fld w 104 8).toNat, (fld w 100 4).toNat + 1)] else []
  let x1 := if writesTo (fld w 76 6) then [((fld w 86 8).toNat, (fld w 82 4).toNat + 1)] else []
  let len := if (op == 0 || op == 2) && fld w 52 8 != 0 then [((fld w 62 6).toNat, 1)] else []
  let mode := (fld w 40 2).toNat
  let sel := if op == 0 && mode != 0 then [((fld w 42 8).toNat, if mode == 2 then 2 else 1)] else []
  let test := if fld w 4 16 != 0 then [((fld w 20 8).toNat, 2)] else []
  x0 ++ x1 ++ len ++ sel ++ test

/-- What follows a step. -/
inductive After where
  | stop (s : Parse)
  | goOn (word : Nat) (s : Parse)
  deriving DecidableEq, Repr

/-- The header length of a word (R180). -/
def headerLen (w : QWord) (f : List Byte) (c : Nat) : Nat :=
  let b := (byteAt f (c + (fld w 62 6).toNat)) >>> (2 * (fld w 60 2).toNat)
  (fld w 68 8).toNat + (b &&& fld w 52 8).toNat * 2 ^ (fld w 50 2).toNat

/-- The next-header code of a word of the header that starts at `c`, the cursor before it advances (R180). -/
def nextCode (x : SliceL) (w : QWord) (f : List Byte) (c : Nat) : Nat :=
  let at_ := c + (fld w 42 8).toNat
  let const := (fld w 28 8).toNat
  match (fld w 40 2).toNat with
  | 0 => const
  | 1 => (byteAt f at_).toNat
  | 2 => (x.search (fld w 36 4) (be16 f at_)).getD const
  | _ => (x.search (fld w 36 4) ((byteAt f at_).setWidth 16)).getD const

/-- The fallback of R184. The marks are not among the results it keeps (log entry 37). -/
def Parse.fallback (f : List Byte) (s : Parse) : Parse := { Parse.start f s.cursor with fault := true }

/-- R183: the end of a parse on outer fields. -/
def Parse.ends (s : Parse) (code : BitVec 2) : After := .stop { s with outer := code }

/-- Continues at a dispatch entry, or completes the parse where it is not valid. The entry dispatched to is the one read for the frame: a search
meets no parity error (R184, log entry 121). -/
def SliceL.dispatchTo (x : SliceL) (f : List Byte) (d : Nat) (s : Parse) : After :=
  if x.badReplica.contains (dispatchAt d) then .stop (s.fallback f)
  else if bitOf (x.dispatch d) 63 then .goOn (fld (x.dispatch d) 48 12).toNat s
  else .stop s

/-- One step: the word `n` at the cursor (R182). The last of the 24 words cannot go on (R183). -/
def SliceL.parseStep (x : SliceL) (f : List Byte) (last : Bool) (n : Nat) (s : Parse) : After :=
  let w := Tab.get 0 x.replica (sortAt n)
  let c := s.cursor
  if x.badReplica.contains (sortAt n) then .stop (s.fallback f)
  else if (usedBytes w).any fun r => decide (256 < c + r.1 + r.2) || decide (f.length < c + r.1 + r.2) then s.ends 3
  else
    let s := s.extract (fld w 94 6) (slice f (c + (fld w 104 8).toNat) ((fld w 100 4).toNat + 1))
    let s := s.extract (fld w 76 6) (slice f (c + (fld w 86 8).toNat) ((fld w 82 4).toNat + 1))
    let s := { s with marks := s.marks ||| fld w 0 4 }
    let test := be16 f (c + (fld w 20 8).toNat) &&& fld w 4 16
    if test ≠ 0 then s.ends 1
    else if last && !bitOf w 127 then s.ends 3
    else match (fld w 126 2).toNat with
      | 1 => .goOn (fld w 112 12).toNat s
      | 3 => s.ends (if fld w 124 2 = 1 then 1 else 2)
      | op =>
        let c' := c + headerLen w f c
        if f.length < c' then s.ends 3
        else
          let s' := { s with cursor := c' }
          if op = 2 then .stop s' else x.dispatchTo f (nextCode x w f c) s'

/-- Up to `fuel` more words; a frame may execute 24 (R183). -/
def SliceL.parseFrom (x : SliceL) (f : List Byte) : Nat → Nat → Parse → Parse
  | 0, _, s => { s with outer := 3 }
  | fuel + 1, n, s => match x.parseStep f (fuel == 0) n s with
    | .stop s => s
    | .goOn n s => SliceL.parseFrom x f fuel n s

/-- R179: the parse of a frame. -/
def SliceL.parse (x : SliceL) (f : List Byte) (h : L2) : Parse :=
  let s := Parse.start f h.cursor
  match x.search 1 h.ethertype with
  | none => s
  | some d => match x.dispatchTo f d s with
    | .stop s => s
    | .goOn n s => x.parseFrom f 24 n s

/-! ### Payload patterns (R185 to R187) -/

/-- R201: the bytes of a depth code. -/
def depthBytes (c : BitVec 3) : Nat := match c.toNat with | 0 => 512 | 1 => 256 | 2 => 128 | 3 => 64 | _ => 0

/-- A pattern matches at window offset `o` of `scan` scanned bytes (R186). -/
def Pattern.matchesAt (p : Pattern) (win : List Byte) (scan o : Nat) : Bool :=
  let n := min p.length.toNat 32
  decide (0 < n) && decide (p.minOff.toNat ≤ o) && decide (o ≤ p.maxOff.toNat) && decide (o + n ≤ scan)
    && (List.range n).all fun i => (byteAt win (o + i) &&& byteAt p.mask i) == (byteAt p.value i &&& byteAt p.mask i)

/-- The lowest-numbered pattern that matches. -/
def SliceL.pattern (x : SliceL) (win : List Byte) (scan : Nat) : Option Nat :=
  (x.patterns.find? fun kv => bitOf kv.2.flags 0 && !x.badEntries.contains (8, false, kv.1)
      && (List.range scan).any fun o => kv.2.matchesAt win scan o).map (·.1)

/-! ### The symmetric hash (R188) -/

/-- R188. -/
def symHash (seed : Word) (s : Parse) : Word :=
  let ha := beNat s.ha
  let hb := beNat s.hb
  let first := decide (ha < hb) || (ha == hb && decide (beNat s.pa ≤ beNat s.pb))
  crc32c seed (if first then s.ha ++ s.hb ++ s.pa ++ s.pb ++ [s.pr] else s.hb ++ s.ha ++ s.pb ++ s.pa ++ [s.pr])

/-! ### Rules (R189 to R192) -/

/-- The key's fields beside the parse. -/
structure KeyParts where
  port : Nat
  src : BitVec 14
  dst : BitVec 14
  pat : Option Nat
  shallow : Bool
  macsec : Bool

/-- R189. -/
def ruleKey (h : L2) (s : Parse) (k : KeyParts) : BitVec 320 :=
  at' 320 (BitVec.ofNat 6 k.port) 314 ||| at' 320 k.src 300 ||| at' 320 k.dst 286 ||| at' 320 h.vlan 274
    ||| at' 320 h.inner 262 ||| at' 320 h.pcp 259 ||| at' 320 h.ethertype 243 ||| at' 320 s.marks 239
    ||| at' 320 (BitVec.ofNat 9 (k.pat.getD 0)) 230 ||| flag 320 k.pat.isSome 229 ||| flag 320 k.shallow 228
    ||| at' 320 s.outer 226 ||| flag 320 s.fault 225 ||| flag 320 k.macsec 224
    ||| at' 320 (BitVec.ofNat 224 (beNat s.flex)) 0

/-- R190: the action of the lowest-numbered valid rule that matches; none where no rule does. -/
def SliceL.action (x : SliceL) (bank : Bool) (key : BitVec 320) : Option DWord :=
  ((x.bank bank).find? fun kv => bitOf kv.2.action 63 && !x.badEntries.contains (5, bank, kv.1) && !x.badEntries.contains (6, bank, kv.1)
      && (key &&& kv.2.mask) == (kv.2.value &&& kv.2.mask)).map (·.2.action)

/-- What classification finds: the class, and whether a rule matched. -/
structure Sorted where
  cls : Class := {}
  miss : Bool := false
  deriving DecidableEq, Repr

/-- R170: a frame of a port, classified by a slice under an epoch count. A frame classified by the fallback is never shallow: R184 says only that
matching is skipped (log entry 121). -/
def SliceL.classify (x : SliceL) (seed : Word) (depth : BitVec 3) (port : Nat) (f : List Byte) (macsec : Bool) (epoch : Word) : Sorted :=
  let h := l2Head f
  let src := x.source port h.vlan f
  let dst := x.dest h.vlan f
  let s := x.parse f h
  let skip := s.outer != 0 || s.fault
  let win := (f.drop s.cursor).take 512
  let scan := min win.length (depthBytes depth)
  let shallow := !skip && decide (scan < win.length)
  let pat := if skip then none else x.pattern win scan
  let hash := symHash seed s
  let key := ruleKey h s { port := port, src := src, dst := dst, pat := pat, shallow := shallow, macsec := macsec }
  let hit := x.action (bitOf epoch 0) key
  -- the miss action: class 0, green, pipe 1 at priority 0, punt 0
  let a := hit.getD (0x0000800000000000#64)
  let spread := 2 ^ (fld a 40 3).toNat
  { miss := hit.isNone
    cls := { src := src, dst := dst, vlan := h.vlan, cls := fld a 50 6, colour := if fld a 48 2 = 3 then 2 else fld a 48 2,
             pipe := bitOf a 47, prio := fld a 44 3, punt := bitOf a 43,
             puntQueue := (fld a 28 12).toNat + hash.toNat % spread, hash := hash, shallow := shallow, parseFault := s.fault,
             outer := s.outer, tagged := h.tagged } }

/-! ### The metadata word (R198) -/

/-- Bits [116:92]: the pair index or the unsorted reason. -/
def Resolution.field : Resolution → BitVec 25
  | .pair i => at' 25 (1#1) 24 ||| at' 25 (BitVec.ofNat 24 i) 0
  | .unsorted r => at' 25 r 0
  | _ => 0

/-- The time fields [55:5] of a metadata word (R198): time state, power-up count, low seconds bits, nanoseconds. -/
def metaTime (t : Stamp) : BitVec 51 :=
  at' 51 t.state.code 49 ||| at' 51 t.powerup 33 ||| at' 51 (BitVec.ofNat 3 t.seconds.toNat) 30
    ||| at' 51 (BitVec.ofNat 30 (t.sub / 65536)) 0

/-- R198, from what a frame carries. -/
def metaWord (c : Class) (pair : BitVec 25) (epoch : BitVec 4) (t : BitVec 51) (macsec : Bool) : QWord :=
  at' 128 c.cls 122 ||| at' 128 c.colour 120 ||| at' 128 c.prio 117 ||| at' 128 pair 92 ||| at' 128 epoch 88
    ||| at' 128 c.hash 56 ||| at' 128 t 5 ||| flag 128 macsec 4 ||| flag 128 c.shallow 3
    ||| flag 128 c.parseFault 2 ||| at' 128 c.outer 0

end Machine
end Sys2Proof
end

