-- ==== Sys2Proof/Machine/Registry.lean ====
section
/-! DEFINITION. Registry (07): pair keys, the cache and the miss buffer, resolution and learning, counting by accounting epoch,
aging, ledger errors, the visits and records of the sweep, and PAIRWR. -/

namespace Sys2Proof
namespace Machine

/-! ### Counter sets (R212, R216, R217) -/

/-- Frames and bytes more in a set. -/
def CSet.add (c : CSet) (n len : Nat) : CSet := { frames := c.frames + BitVec.ofNat 64 n, bytes := c.bytes + BitVec.ofNat 64 len }

/-- The counter sets of an entry, as those of a port and reason. -/
def PairEntry.sets (e : PairEntry) : Unsorted :=
  { curEpoch := e.curEpoch, prevEpoch := e.prevEpoch, cur := e.cur, prev := e.prev, swept := e.swept }
def PairEntry.withSets (e : PairEntry) (u : Unsorted) : PairEntry :=
  { e with curEpoch := u.curEpoch, prevEpoch := u.prevEpoch, cur := u.cur, prev := u.prev, swept := u.swept }

/-- R216: a count update of `n` frames with epoch `e`. -/
def Unsorted.update (u : Unsorted) (e : BitVec 16) (n len : Nat) : Unsorted :=
  if u.curEpoch = e then { u with cur := u.cur.add n len }
  else if e = u.curEpoch - 1 then { u with prev := u.prev.add n len }
  else if u.curEpoch = e - 1 && u.cur.frames != 0 then
    { curEpoch := e, prevEpoch := e - 1, cur := CSet.add {} n len, prev := u.cur, swept := false }
  else { curEpoch := e, prevEpoch := e - 1, cur := CSet.add {} n len, prev := {}, swept := true }

/-- R217: the set of the closed epoch that the sweep emits, and the sets afterwards; none where it neither emits nor writes.
A set without frames is absent: it sets the swept bit and emits nothing. -/
def Unsorted.visit (u : Unsorted) (c : BitVec 16) : Option (Option CSet × Unsorted) :=
  if u.curEpoch = c && u.cur.frames != 0 then
    some (some u.cur, { curEpoch := c + 1, prevEpoch := c, cur := {}, prev := u.cur, swept := true })
  else if u.curEpoch = c + 1 && u.prevEpoch = c && !u.swept then
    some (if u.prev.frames = 0 then none else some u.prev, { u with swept := true })
  else none

/-! ### Deltas for the twin (R420) -/

/-- A delta of a bound instance: one per index and epoch in a mirror interval. Unsorted counters follow the pair entries. -/
def State.oweDelta (s : State) (index n len : Nat) (key : Option DWord) : State :=
  if !s.mirrors then s
  else
    let same (d : Delta) : Bool := d.index == index && d.epoch == s.reg.epoch
    let more (d : Delta) : Delta := { d with frames := d.frames + n, bytes := d.bytes + len, key := key.or d.key }
    let ds := s.casc.deltas
    let ds := if ds.any same then updFirst same more ds
      else ds ++ [{ index := index, epoch := s.reg.epoch, frames := n, bytes := len, key := key }]
    { s with casc := { s.casc with deltas := ds } }

/-! ### Keys (R205) -/

/-- The pair key of a class. -/
def pairKey (c : Class) : BitVec 46 := at' 46 c.src 32 ||| at' 46 c.dst 18 ||| at' 46 c.vlan 6 ||| at' 46 c.cls 0

/-- The bucket of a key. -/
def bucketOf (key : BitVec 46) : Nat := (crc32c 0xFFFFFFFF#32 (leBytes 6 key.toNat)).toNat % 4194304

/-! ### The cache (R210) -/

def State.setCache (s : State) (c : List CacheLine) : State := s.setReg { s.reg with cache := c }

/-- The set of a pair index. -/
def setOf (i : Nat) : Nat := i % 4096

/-- A line of the cache for entry `i`, now the most recently used; a line of its set that nobody pins makes room, written back
first if it is dirty. None where every line of the set is pinned. -/
def State.cacheLine (s : State) (i : Nat) : Option State :=
  match s.reg.cache.find? fun l => l.index == i with
  | some l => some (s.setCache (dropFirst (fun l => l.index == i) s.reg.cache ++ [l]))
  | none =>
    let fresh : CacheLine := { index := i, entry := s.pairEntry i }
    let others := s.reg.cache.filter fun l => setOf l.index == setOf i
    if others.length < 16 then some (s.setCache (s.reg.cache ++ [fresh]))
    else match others.find? fun l => l.pins == 0 with
      | some v =>
        let s := s.writeBack v.index
        some (s.setCache (dropFirst (fun l => l.index == v.index) s.reg.cache ++ [fresh]))
      | none => none

/-- One pin more, or one less, on a line. -/
def State.pinLine (s : State) (i : Nat) (up : Bool) : State :=
  s.setCache (updFirst (fun l => l.index == i) (fun l => { l with pins := if up then l.pins + 1 else l.pins - 1 }) s.reg.cache)

/-! ### Resolution (R207 to R209) -/

/-- A frame in receive staging. -/
def State.rxFrame (s : State) (fid : Nat) : Option RxFr := s.frames.rx.find? fun f => f.fid == fid
def State.updRx (s : State) (fid : Nat) (g : RxFr → RxFr) : State :=
  { s with frames := { s.frames with rx := updFirst (fun f => f.fid == fid) g s.frames.rx } }

/-- A frame is unsorted with a reason. -/
def State.asUnsorted (s : State) (fid : Nat) (r : BitVec 3) : State := s.updRx fid fun f => { f with res := .unsorted r }

/-- A frame is resolved to entry `i`, whose line it pins; without a line for the entry it is unsorted (R209). -/
def State.asPair (s : State) (fid i : Nat) : State :=
  match s.cacheLine i with
  | some s => (s.pinLine i true).updRx fid fun f => { f with res := .pair i }
  | none => s.asUnsorted fid 5

/-- The cached VALID entry of a key. -/
def State.cachedPair (s : State) (key : BitVec 46) : Option Nat :=
  (s.reg.cache.find? fun l => l.entry.isValid && l.entry.key == key).map (·.index)

/-- The entry a probe reads. -/
def Probe.entry (p : Probe) : Nat := 4 * bucketOf p.key + p.way

/-- The lowest free read tag of a channel. -/
def freeLmTag (ps : List Probe) (c : Nat) : Option (BitVec 11) :=
  ((List.range 1024).find? fun t => !ps.any fun p => p.tag == some (BitVec.ofNat 11 (1024 * c + t))).map
    fun t => BitVec.ofNat 11 (1024 * c + t)

def State.setProbes (s : State) (ps : List Probe) : State := s.setReg { s.reg with probes := ps }

/-- R210: the line that entry `i` would replace is written back before `i` is read, if it is dirty (log entry 124). -/
def State.makeWay (s : State) (i : Nat) : State :=
  let others := s.reg.cache.filter fun l => setOf l.index == setOf i
  if others.length < 16 || others.any (fun l => l.index == i) then s
  else match others.find? fun l => l.pins == 0 with
    | some v => s.writeBack v.index
    | none => s

/-- The first probe of a channel that has no tag issues its read, if a tag is free (R472, R473). -/
def State.askNext (s : State) (c : Nat) : State :=
  match s.reg.probes.find? (fun p => p.tag.isNone && p.entry % 2 == c), freeLmTag s.reg.probes c with
  | some p, some t =>
    let s := s.makeWay p.entry
    (s.setProbes (updFirst (fun q => q.key == p.key) (fun q => { q with tag := some t, issued := s.nowInstant }) s.reg.probes)).emit
      (.ledgerRead t p.entry)
  | _, _ => s

/-- Registry resolves a frame as soon as its class is known (R207). With no ledger, an unreachable one, or a table still to be
cleared, a miss is table full (R474, R505). -/
def State.resolve (s : State) (fid : Nat) (c : Class) : State :=
  let key := pairKey c
  if c.src = 0 then s.asUnsorted fid 1
  else if c.dst = 0 then s.asUnsorted fid 2
  else if s.reg.region = 0 then s.asUnsorted fid 4
  else match s.cachedPair key with
    | some i => s.asPair fid i
    | none =>
      if s.reg.unreachable || s.reg.clearing then s.asUnsorted fid 4
      else
        let s' := s.updRx fid fun f => { f with res := .probing }
        if s.reg.probes.any fun p => p.key == key then
          s'.setProbes (updFirst (fun p => p.key == key) (fun p => { p with frames := p.frames ++ [fid] }) s.reg.probes)
        else if Config.missSlots ≤ s.reg.probes.length then s.asUnsorted fid 5
        else
          let p : Probe := { key := key, frames := [fid] }
          (s'.setProbes (s.reg.probes ++ [p])).askNext (p.entry % 2)

/-- A probe ends: its miss-buffer slot is free, and a read that waits for its tag is issued. -/
def State.endProbe (s : State) (p : Probe) : State := s.setProbes (dropFirst (fun q => q.key == p.key) s.reg.probes)

/-- The frames that wait on a probe are unsorted with a reason. -/
def State.probeFails (s : State) (p : Probe) (r : BitVec 3) : State :=
  s.forEach p.frames fun s fid => s.asUnsorted fid r

/-- The frames that wait on a probe are resolved to an entry. -/
def State.probeFinds (s : State) (p : Probe) (i : Nat) : State := s.forEach p.frames fun s fid => s.asPair fid i

/-- R208: the pair is absent. An entry is learned into the first way passed that is FREED or EMPTY now. What a new entry holds
beside the fields of R208 is a free value (log entry 39). -/
def State.absent (s : State) (p : Probe) : State :=
  if !s.reg.learn || s.reg.limit.toNat ≤ s.reg.count.toNat then s.probeFails p 4
  else match (List.range (p.way + 1)).find? fun w => !(s.pairEntry (4 * bucketOf p.key + w)).isValid with
    | none => s.probeFails p 3
    | some w =>
      let i := 4 * bucketOf p.key + w
      match s.cacheLine i with
      | none => s.probeFails p 5
      | some s =>
        let (seen, s) := s.takeFree 64
        let (prev, s) := s.takeFree 16
        let e : PairEntry := { state := 1, learned := true, swept := true, key := p.key, lastSeen := seen, curEpoch := s.reg.epoch,
                               prevEpoch := prev, learnedIn := s.reg.epoch }
        ((s.setPairEntry i e).oweDelta i 0 0 (some (keyWord e))).probeFinds p i

/-- R223: an uncorrectable read of entry `i`: the entry is rebuilt where its cache line holds its key, and otherwise written
FREED with zero counters; what else the FREED entry holds is a free value (log entry 39). -/
def State.uncorrectable (s : State) (i : Nat) : State :=
  let s := s.setReg { s.reg with uncorr := satInc s.reg.uncorr }
  let held := (s.reg.cache.find? fun l => l.index == i).map (·.entry)
  let s := match held with
    | some e =>
      if e.isValid then
        s.setPairEntry i { e with cur := {}, prev := {}, swept := true, lost := true, curEpoch := s.reg.epoch, lostIn := s.reg.epoch }
      else s.setPairEntry i { e with state := 2, cur := {}, prev := {} }
    | none =>
      let (key, s) := s.takeFree 46
      let (seen, s) := s.takeFree 64
      let (eps, s) := s.takeFree 32
      s.setPairEntry i { state := 2, key := key, lastSeen := seen, curEpoch := fld eps 0 16, prevEpoch := fld eps 16 16 }
  (s.oweDelta i 0 0 (some (keyWord (s.pairEntry i)))).emitGap (s.gapNow 2 (BitVec.ofNat 32 i))

/-- The answer to a probe's read (R207 step 3). -/
def State.probed (s : State) (p : Probe) (bad : Bool) : State :=
  let i := p.entry
  let s := if bad then s.uncorrectable i else s
  let e := s.pairEntry i
  let s := if e.isValid && e.key == p.key then (s.endProbe p).probeFinds p i
    else if e.isEmpty || p.way = 3 then (s.endProbe p).absent p
    else
      let next (q : Probe) : Probe := { q with way := q.way + 1, tag := none }
      (s.setProbes (updFirst (fun q => q.key == p.key) next s.reg.probes)).askNext ((i + 1) % 2)
  s.askNext (i % 2)

/-- LEDGER_RESPONSE: an answer under a tag. An answer ends the unreachable state (R474). An answer to a write, or under a tag
that no probe holds, moves nothing else: this model counts a write as done when it crosses the port (R473). -/
def State.ledgerAnswer (s : State) (tag : BitVec 11) (bad : Bool) : State :=
  if !s.isOn dREG || s.reg.region = 0 then s
  else
    let s := s.setReg { s.reg with unreachable := false }
    match s.reg.probes.find? fun p => p.tag == some tag with
    | some p => s.probed p bad
    | none => s

/-- LEDGER_RESPONSE. -/
def execLedgerResponse (tag : BitVec 11) (uncorrectable : Bool) (s : State) : Host.Outcome State Fault Refusal :=
  .next (s.ledgerAnswer tag uncorrectable)

/-- PROBE_TIMEOUT: the frames that wait on a read are unsorted; the probe goes on in the background (R209). -/
def State.probeTimeout (s : State) (tag : BitVec 11) : State :=
  match s.reg.probes.find? fun p => p.tag == some tag with
  | some p =>
    (s.probeFails p 5).setProbes (updFirst (fun q => q.key == p.key) (fun q => { q with frames := [] }) s.reg.probes)
  | none => s

/-- PROBE_TIMEOUT. -/
def execProbeTimeout (tag : BitVec 11) (s : State) : Host.Outcome State Fault Refusal := .next (s.probeTimeout tag)

/-- LEDGER_UNREACHABLE: a read is unanswered for 100 µs (R474, R224 cause 0x04). One gap record is owed for each time the
ledger becomes unreachable (log entry 40). -/
def State.ledgerLost (s : State) (tag : BitVec 11) : State :=
  match s.reg.probes.find? fun p => p.tag == some tag with
  | some p =>
    if s.reg.unreachable then s
    else
      let s := (s.setReg { s.reg with unreachable := true }).probeTimeout tag
      s.emitGap { s.gapNow 4 0xFFFFFFFF with epoch := s.reg.epoch, fromAt := p.issued }
  | none => s

/-- LEDGER_UNREACHABLE. -/
def execLedgerUnreachable (tag : BitVec 11) (s : State) : Host.Outcome State Fault Refusal := .next (s.ledgerLost tag)

/-! ### Counting (R211, R212, R214) -/

/-- The unsorted sets of a port and reason. -/
def State.unsorted (s : State) (p : Nat) (r : BitVec 3) : Unsorted := Tab.get {} s.reg.unsorted (8 * p + r.toNat)
def State.setUnsorted (s : State) (p : Nat) (r : BitVec 3) (u : Unsorted) : State :=
  s.setReg { s.reg with unsorted := Tab.put {} s.reg.unsorted (8 * p + r.toNat) u }

/-- An accepted frame is counted in its resolved set, in the current accounting epoch; a bound instance owes its twin the
delta (R420). -/
def State.registryCount (s : State) (f : RxFr) : State :=
  match f.res with
  | .pair i =>
    let e := s.pairEntry i
    let u := e.sets.update s.reg.epoch 1 f.wire
    ((s.setPairEntry i { e.withSets u with lastSeen := s.nowInstant }).pinLine i false).oweDelta i 1 f.wire none
  | .unsorted r =>
    (s.setUnsorted f.port.toNat r ((s.unsorted f.port.toNat r).update s.reg.epoch 1 f.wire)).oweDelta
      (Config.pairEntries + 8 * f.port.toNat + r.toNat) 1 f.wire none
  | _ => s

/-- A frame that is dropped releases the line it pins, or leaves the probe it waits on (R210). -/
def State.releaseRes (s : State) (f : RxFr) : State :=
  match f.res with
  | .pair i => s.pinLine i false
  | .probing => s.setProbes (s.reg.probes.map fun p => { p with frames := p.frames.filter (· != f.fid) })
  | _ => s

/-- A frame leaves receive staging. -/
def State.leaveRx (s : State) (fid : Nat) : State :=
  { s with frames := { s.frames with rx := dropFirst (fun f => f.fid == fid) s.frames.rx } }

/-- A frame is dropped before acceptance, under native word `w`. -/
def State.dropRx (s : State) (f : RxFr) (w : Nat) : State := ((s.event f.port.toNat w).releaseRes f).leaveRx f.fid

/-! ### Aging, the cleaner, and what follows power-up and cold reset -/

/-- R213: an entry that the scanner frees. -/
def State.aged (s : State) (e : PairEntry) : Bool :=
  let now := s.now16
  e.isValid && !e.fixed && e.swept && decide (s.instant16 e.lastSeen + s.reg.age.toNat * 60 * 65536000000000 < now)
    && (e.cur.frames == 0 || (e.curEpoch != s.reg.epoch && e.curEpoch != s.reg.epoch - 1))

/-- A visit of the scanner. -/
def State.ageVisit (s : State) (i : Nat) (bad : Bool) : State :=
  if s.reg.age = 0 || !s.isOn dREG || !s.isOn dDMA || s.reg.clearing || s.reg.region = 0 then s
  else
    let s := if bad then s.uncorrectable i else s
    let e := s.pairEntry i
    if s.aged e then (s.setPairEntry i { e with state := 2 }).oweDelta i 0 0 (some (keyWord { e with state := 2 })) else s

/-- AGING_SCAN. -/
def execAgingScan (index : BitVec 24) (uncorrectable : Bool) (s : State) : Host.Outcome State Fault Refusal :=
  .next (s.ageVisit index.toNat uncorrectable)

/-- CACHE_CLEANER: a line that has been dirty for more than 16 µs is written back (R210). -/
def execCacheCleaner (index : BitVec 24) (s : State) : Host.Outcome State Fault Refusal :=
  .next (if s.isOn dREG && s.reg.region != 0 then s.writeBack index.toNat else s)

/-- PAIR_TABLE_CLEAR: every entry of the pair table is EMPTY with zero counters; the shadow table stays (R505). The 16,777,216
writes stand for one another and are not listed among the outputs. -/
def State.clearTable (s : State) : State :=
  if s.reg.clearing && s.isOn dREG then
    s.setReg { s.reg with clearing := false, ledger := s.reg.ledger.filter fun kv => decide (Config.pairEntries ≤ kv.1) }
  else s

/-- PAIR_TABLE_CLEAR. -/
def execPairTableClear (s : State) : Host.Outcome State Fault Refusal := .next s.clearTable

/-- Every dirty line is written back. -/
def State.writeBackAll (s : State) : State := s.forEach (s.reg.cache.map (·.index)) fun s i => s.writeBack i

/-- The cache is emptied without a write-back: entries are what ledger memory holds. -/
def State.discardCache (s : State) : State :=
  let lost := s.reg.cache
  s.forEach lost fun s l =>
    let s := s.recount l.entry (Tab.get {} s.reg.ledger l.index)
    s.setCache (dropFirst (fun x => x.index == l.index) s.reg.cache)

/-- COLD_RESET_WRITEBACK (R222): with REG on, the dirty lines of caddy 3 are written back and the cache is cleared; where the
write-back cannot complete a gap record is owed (R223). -/
def State.coldWriteback (s : State) (ok : Bool) : State :=
  if !s.reg.writebackOwed || !s.isOn dREG then s
  else
    let s := if ok then s.writeBackAll else s
    let s := s.discardCache.setReg { s.discardCache.reg with writebackOwed := false }
    if ok then s else s.emitGap (s.gapNow 3 0xFFFFFFFF)

/-- COLD_RESET_WRITEBACK. -/
def execColdResetWriteback (ok : Bool) (s : State) : Host.Outcome State Fault Refusal := .next (s.coldWriteback ok)

/-! ### The sweep (R217 to R220, R222, R223) -/

/-- R220, form 0x00. -/
def pairRecord (c : BitVec 16) (i : Nat) (e : PairEntry) (set : CSet) : List Byte :=
  [0, flag 8 (e.learned && e.learnedIn == c) 0 ||| flag 8 e.lost 1] ++ leBytes 2 c.toNat ++ leBytes 3 i ++ leBytes 6 e.key.toNat
    ++ leBytes 8 set.frames.toNat ++ leBytes 8 set.bytes.toNat ++ leBytes 8 e.lastSeen.toNat

/-- R220, form 0x01. -/
def unsortedRecord (c : BitVec 16) (p : Nat) (r : BitVec 3) (set : CSet) : List Byte :=
  [1, BitVec.ofNat 8 p] ++ leBytes 2 c.toNat ++ [r.setWidth 8] ++ leBytes 8 set.frames.toNat ++ leBytes 8 set.bytes.toNat

/-- R220, form 0x02. -/
def portCloseRecord (c : BitVec 16) (p : Nat) (o l : PortLatch) : List Byte :=
  [2, BitVec.ofNat 8 p] ++ leBytes 2 c.toNat ++ leBytes 8 (l.frames - o.frames).toNat ++ leBytes 8 (l.bytes - o.bytes).toNat
    ++ leBytes 6 (l.frames.toNat % 2 ^ 48) ++ leBytes 6 (l.bytes.toNat % 2 ^ 48) ++ leBytes 2 l.gen.toNat

/-- R220, form 0x03. -/
def State.epochCloseRecord (s : State) : List Byte :=
  [3, 0] ++ leBytes 2 s.reg.closed.toNat ++ leBytes 4 s.reg.pairRecs.toNat ++ leBytes 4 s.reg.unsortRecs.toNat
    ++ leBytes 8 s.reg.epochAt.toNat ++ leBytes 8 s.nowInstant.toNat ++ [s.reg.closeState.code.setWidth 8]
    ++ leBytes 2 s.time.powerup.toNat

/-- A record of the sweep (R219), with the producer's placement generation; channel 30 writes it (R312). -/
def State.sweepRecord (s : State) (gen : BitVec 16) (body : List Byte) : State :=
  s.genRecord s.reg.recordQueue.toNat 1 gen body (some 30)

/-- The record queue has an entry for the sweep. -/
def State.sweepRoom (s : State) : Bool := s.recordRoom s.reg.recordQueue.toNat

/-- Entries that can differ from EMPTY among `[lo, hi)`: those listed in ledger memory or held by the cache, rising. -/
def State.listed (s : State) (lo hi : Nat) : List Nat :=
  let ks := (s.reg.ledger.map (·.1)) ++ (s.reg.cache.map (·.index))
  ((ks.filter fun i => decide (lo ≤ i) && decide (i < hi)).insertionSort (· ≤ ·)).dedup

/-- The sweep visits one entry; false where it must pause before it. The lost bit is cleared by the sweep of the epoch in which
the entry was rebuilt, or a later one (R223). -/
def State.sweepVisit (s : State) (i : Nat) (bad : Bool) : Bool × State :=
  let s := if bad then s.uncorrectable i else s
  let e := s.pairEntry i
  let c := s.reg.closed
  let due := e.lost && decide ((c - e.lostIn).toNat < 32768)
  let clean (e : PairEntry) : PairEntry := if due then { e with lost := false } else e
  if !e.isValid then (true, s)
  else match e.sets.visit c with
    | none => (true, if due then s.setPairEntry i (clean e) else s)
    | some (none, u) => (true, s.setPairEntry i (clean (e.withSets u)))
    | some (some set, u) =>
      if !s.sweepRoom then (false, s)
      else
        let s := s.setPairEntry i (clean (e.withSets u))
        let s := s.sweepRecord 0 (pairRecord c i { e with lost := due } set)
        (true, s.setReg { s.reg with pairRecs := s.reg.pairRecs + 1 })

/-- Visits entries in order; the index of the first that has to wait for a record entry. -/
def sweepList (bad : List Nat) : List Nat → State → Option Nat × State
  | [], s => (none, s)
  | i :: t, s => match s.sweepVisit i (bad.contains i) with
    | (true, s) => sweepList bad t s
    | (false, s) => (some i, s)

/-- The visit of up to 4,096 entries from the mark on. -/
def State.sweepBatch (s : State) (bad : List Nat) : State :=
  let lo := s.reg.mark.toNat
  let hi := (lo / 4096 + 1) * 4096
  -- an entry that is not listed is EMPTY, and nothing is to be done for it unless its read is uncorrectable
  let errors := bad.filter fun i => decide (lo ≤ i) && decide (i < hi)
  match sweepList bad ((s.listed lo hi ++ errors).insertionSort (· ≤ ·)).dedup s with
  | (some i, s) => s.setReg { s.reg with phase := .paused, mark := BitVec.ofNat 25 i }
  | (none, s) => s.setReg { s.reg with phase := if Config.pairEntries ≤ hi then .closing else .sweeping, mark := BitVec.ofNat 25 hi }

/-- One item of the final step: items 6p to 6p + 4 are the reasons of port p, item 6p + 5 its close record, item 384 the epoch
close; false where it must pause before it (R218). -/
def State.closeItem (s : State) (n : Nat) : Bool × State :=
  let c := s.reg.closed
  let p := n / 6
  if n % 6 < 5 && n < 384 then
    let r : BitVec 3 := BitVec.ofNat 3 (n % 6 + 1)
    match (s.unsorted p r).visit c with
    | none => (true, s)
    | some (none, u) => (true, s.setUnsorted p r u)
    | some (some set, u) =>
      if !s.sweepRoom then (false, s)
      else
        let s := (s.setUnsorted p r u).sweepRecord (s.port p).gen (unsortedRecord c p r set)
        (true, s.setReg { s.reg with unsortRecs := s.reg.unsortRecs + 1 })
  else if !s.sweepRoom then (false, s)
  else if n < 384 then
    let l := Tab.get {} s.reg.atClose p
    (true, s.sweepRecord l.gen (portCloseRecord c p (Tab.get {} s.reg.atOpen p) l))
  else (true, s.sweepRecord 0 s.epochCloseRecord)

/-- The final step from item `closeAt` on; `fuel` bounds its items. The sweep ends after the epoch close record. -/
def State.closeItems : Nat → State → State
  | 0, s => s.setReg { s.reg with phase := .idle, closeAt := 0, atOpen := s.reg.atClose }
  | fuel + 1, s => match s.closeItem s.reg.closeAt with
    | (true, s) => State.closeItems fuel (s.setReg { s.reg with closeAt := s.reg.closeAt + 1 })
    | (false, s) => s.setReg { s.reg with phase := .paused }

/-- The next part of the sweep (R217 to R219). -/
def State.sweepPart (s : State) (bad : List Nat) : State :=
  if s.reg.phase = .idle || !s.isOn dREG || s.reg.writebackOwed then s
  else if s.reg.mark.toNat < Config.pairEntries then s.sweepBatch bad
  else State.closeItems (385 - s.reg.closeAt) (s.setReg { s.reg with phase := .closing })

/-! ### PAIRWR (R68, R69, R213, R509) -/

/-- R509, and R38's extension words are checked before. -/
def pairwrOk (i : Ins) : Bool :=
  let op := (fld i.a 0 4).toNat
  let n := (fld i.a 4 28).toNat
  decide (op ≤ 2) && fld i.b 24 40 == 0 && (op == 0 || (n != 0 && decide ((fld i.b 0 24).toNat + n ≤ Config.pairEntries)))

/-- Entries of a PAIRWR. -/
def pairwrCount (i : Ins) : Nat := if fld i.a 0 4 = 0 then 1 else (fld i.a 4 28).toNat

/-- What a PAIRWR writes over an entry. Bit 48, learned by Registry, is 0 in what PAIRWR writes (R206). -/
def pairwrEntry (i : Ins) (old : PairEntry) : PairEntry :=
  match (fld i.a 0 4).toNat with
  | 0 => { pairOfImage ((i.e1 ++ i.e0 : BitVec 256).setWidth 512) with learned := false }
  | 1 => { pairOfImage (i.e0 ++ i.e0 ++ i.e0 ++ i.e0 : BitVec 512) with learned := false }
  | _ => { old with state := 2 }

/-- R69: a VALID entry with counts. -/
def PairEntry.hasCounts (e : PairEntry) : Bool :=
  e.isValid && (e.cur.frames != 0 || e.cur.bytes != 0 || e.prev.frames != 0 || e.prev.bytes != 0)

/-- The read of an entry that no cache line holds; whether it is uncorrectable the memory alone decides: a free value (R223, log entry 14). -/
def State.readForWrite (s : State) (n : Nat) : State :=
  if s.reg.cache.any fun l => l.index == n then s
  else
    let (x, s) := s.takeFree 1
    if x = 1 then s.uncorrectable n else s

/-- PAIRWR on one entry: whether it was written. -/
def State.pairwrOne (s : State) (i : Ins) (n : Nat) : Bool × State :=
  let s := s.readForWrite n
  let e := s.pairEntry n
  if e.hasCounts then (false, s)
  else
    let e := pairwrEntry i e
    (true, (s.setPairEntry n e).oweDelta n 0 0 (some (keyWord e)))

/-- PAIRWR on entries in order: the number written, and the number skipped. -/
def pairwrList (i : Ins) : List Nat → Nat → Nat → State → Nat × Nat × State
  | [], w, k, s => (w, k, s)
  | n :: t, w, k, s => match s.pairwrOne i n with
    | (true, s) => pairwrList i t (w + 1) k s
    | (false, s) => pairwrList i t w (k + 1) s

/-- A step of PAIRWR: up to 4,096 entries after the `done` ones. It waits before its first step while the table is being
cleared (R505). -/
def stepPairwr (i : Ins) (done written skipped : Nat) (s : State) : Ran :=
  if s.reg.clearing && s.reg.region != 0 && done = 0 then .more (.pairwr 0 0 0) s.microPasses
  else if !s.isOn dREG then .done .targetAsleep (BitVec.ofNat 64 written) (BitVec.ofNat 64 skipped) s
  else
    let n := min 4096 (pairwrCount i - done)
    let (w, k, s) := pairwrList i ((List.range n).map fun j => (fld i.b 0 24).toNat + done + j) written skipped s
    if pairwrCount i ≤ done + n then .ok (BitVec.ofNat 64 w) (BitVec.ofNat 64 k) s else .more (.pairwr (done + n) w k) s

/-- PAIRWR. -/
def runPairwr (_ : Nat) (_ : BitVec 16) (i : Ins) (s : State) : Ran :=
  if !pairwrOk i then .bad .badOperand s
  else if !s.isOn dREG then .bad .targetAsleep s
  else stepPairwr i 0 0 0 s

/-- PAIRWR, operation 0x0; the row of every operation but 0x1 and 0x2. -/
def execPairwrWrite (q : QId) (i : Ins) (s : State) : Host.Outcome State Fault Refusal :=
  begins q 0x41 (fld i.a 0 4 != 1 && fld i.a 0 4 != 2) i runPairwr s

/-- PAIRWR FILL. -/
def execPairwrFill (q : QId) (i : Ins) (s : State) : Host.Outcome State Fault Refusal :=
  begins q 0x41 (fld i.a 0 4 == 1) i runPairwr s

/-- PAIRWR invalidate. -/
def execPairwrInvalidate (q : QId) (i : Ins) (s : State) : Host.Outcome State Fault Refusal :=
  begins q 0x41 (fld i.a 0 4 == 2) i runPairwr s

end Machine
end Sys2Proof
end

