-- ==== Sys2Proof/Machine/Collective.lean ====
section
/-! DEFINITION. EPOCH, SNAP and FENCE, local and cascade-wide (R57, R61 to R67, R193 to R196, R214, R215), the sweep's steps, and
the parts of the head and of a member in a collective. -/

namespace Sys2Proof
namespace Machine

/-! ### Swaps of rule epochs (R193 to R196) -/

/-- The pipeline's held-bank indication for the old bank. -/
def SliceL.oldHeld (x : SliceL) : Bool := if x.current then x.held0 else x.held1

/-- R195: the old bank has drained. -/
def State.drainCheck (s : State) (k : Nat) : State :=
  let x := s.sliceL k
  if x.draining && s.drainCount k == 0 && !x.oldHeld then (s.setSliceL k { x with draining := false }).endBackground 1 k else s

/-- The frames of a slice that may be in reception: one on each MAC of each port that is UP and deals its next frame to the slice (R104). -/
def State.mayArrive (s : State) (k : Nat) : List (Nat × Bool) :=
  (s.configuredPorts.filter fun p => (s.port p).st == .up && (s.slicesOfPort p).contains k).flatMap fun p =>
    ([false, true].filter fun pre => ((s.port p).deal p pre).1 == k).map fun pre => (p, pre)

/-- R195: which of them are in reception at a swap no command tells: it is a free value (log entry 123). -/
def State.inReception (s : State) (k : Nat) : List (Nat × Bool) × State :=
  let may := s.mayArrive k
  if may = [] then ([], s)
  else
    let (x, s) := s.takeFree 64
    ((may.zipIdx.filter fun a => x.getLsbD a.2).map (·.1), s)

/-- R193: one slice swaps; its drain is background activity of the queue whose EPOCH it is (R57). -/
def State.swapOne (s : State) (t : DWord) (queue : Option (BitVec 16)) (k : Nat) : State :=
  let x := s.sliceL k
  let (arriving, s) := s.inReception k
  let s := s.setSliceL k { x with epochCount := x.epochCount + 1, epochAt := t, draining := true, arriving := arriving }
  (match queue with | some q => s.beginBackground q 1 k | none => s).drainCheck k

/-- R196. -/
def State.swapReady (s : State) (ks : List Nat) : Bool := ks.all fun k => !(s.sliceL k).draining && !(s.sliceL k).writing

/-- R508, R194: the logical slices that an EPOCH of a target swaps: those whose carrier is on; both slices of a pair that
carries an 8-lane port. -/
def State.epochSlices (s : State) (target : BitVec 16) : List Nat :=
  let named (k : Nat) : Bool :=
    target == 0xFFFF || target.toNat == k || (target.toNat / 2 == k / 2 && (s.port (8 * (k / 2))).width == 8)
  allSlices.filter fun k => named k && s.sliceOn k

/-! ### The switch of the accounting epoch (R215) -/

/-- A port's accepted counters, extended to 64 bits. -/
def State.latchPort (s : State) (p : Nat) : PortLatch :=
  { frames := (Tab.get 0 s.reg.wrapFrames p ++ s.native p 0 : BitVec 64), bytes := (Tab.get 0 s.reg.wrapBytes p ++ s.native p 1 : BitVec 64),
    gen := (s.port p).gen }

/-- R422: after the loss of the partner a SNAP sweeps the shadow table too. A sweep of it that is still under way goes on
instead. -/
def State.beginShadow (s : State) : State :=
  let o := s.casc.other
  if s.casc.twin = .partnerLost && o.left = 0 then
    let o := { o with sweep := s.listed Config.pairEntries (2 * Config.pairEntries), left := 385, pairRecs := 0, unsortRecs := 0 }
    s.setCasc { s.casc with other := o }
  else s

/-- The closed epoch waits for its sweep. -/
def State.switchEpoch (s : State) (t : DWord) : State :=
  let s := s.beginShadow
  let r := s.reg
  s.setReg { r with epoch := r.epoch + 1, closed := r.epoch, epochAt := t, prevEpochAt := r.epochAt, phase := .draining, mark := 0,
                    closeAt := 0, pairRecs := 0, unsortRecs := 0, closeState := s.stampNow.state,
                    atClose := allPorts.foldl (fun l p => Tab.put {} l p (s.latchPort p)) [] }

/-- A sweep can begin: the one before has ended. -/
def State.snapReady (s : State) : Bool := s.reg.phase == .idle

/-! ### Armed switches -/

def State.setArmedEpoch (s : State) (a : Option Armed) : State := s.setTimeUnit { s.time with armedEpoch := a }

/-- `registry.snap_state` pending follows the armed SNAP. -/
def pendingOf : Option Armed → BitVec 2
  | none => 0
  | some a => if a.fired.isSome then 0 else if a.held then 2 else 1

def State.setArmedSnap (s : State) (a : Option Armed) : State :=
  (s.setTimeUnit { s.time with armedSnap := a }).setReg { s.reg with pending := pendingOf a }

/-- `coll.lead_min` in units of 2^-16 ns. -/
def State.lead16 (s : State) : Nat := s.casc.lead.toNat * 65536000

/-- R62: the instant `coll.lead_min` after a moment. -/
def State.leadAfter (s : State) (t : Nat) : DWord := instantOf16 (t + s.lead16)

/-- R63: the instant lies at least `coll.lead_min` ahead. -/
def State.leadOk (s : State) (b : DWord) : Bool := decide (s.now16 + s.lead16 ≤ s.instant16 b)

/-- R66: a switch that is not ready at its instant waits for a new one. -/
def Armed.hold (a : Armed) : Armed := { a with held := true, postponed := true }

/-- A collective EPOCH that this member issued has swapped slices here (R68 result B). -/
def State.noteSwap (s : State) (a : Armed) : State :=
  let note (x : Issued) : Issued := if a.coll == some (s.casc.self, x.jid) then { x with swapped := a.slices } else x
  s.setCasc { s.casc with issued := s.casc.issued.map note }

/-- An armed EPOCH reaches its instant. -/
def State.fireEpoch (s : State) : State :=
  match s.time.armedEpoch with
  | some a =>
    if a.fired.isSome || a.held then s
    else if s.swapReady a.slices then
      let s := (s.forEach a.slices fun s k => s.swapOne a.instant a.queue k).noteSwap a
      s.setArmedEpoch (some { a with fired := some a.instant })
    else s.setArmedEpoch (some a.hold)
  | none => s

/-- An armed SNAP reaches its instant. -/
def State.fireSnap (s : State) : State :=
  match s.time.armedSnap with
  | some a =>
    if a.fired.isSome || a.held then s
    else if s.snapReady then (s.switchEpoch a.instant).setArmedSnap (some { a with fired := some a.instant })
    else s.setArmedSnap (some a.hold)
  | none => s

/-! ### Collectives: what every member holds -/

def State.setColls (s : State) (l : List Coll) : State := s.setCasc { s.casc with colls := l }

/-- A collective by its issuer and number. -/
def Coll.named (c : Coll) (issuer : BitVec 3) (cid : Nat) : Bool := c.issuer == issuer && c.cid == cid
def State.coll (s : State) (issuer : BitVec 3) (cid : Nat) : Option Coll := s.casc.colls.find? fun c => c.named issuer cid
def State.updColl (s : State) (issuer : BitVec 3) (cid : Nat) (f : Coll → Coll) : State :=
  s.setColls (updFirst (fun c => c.named issuer cid) f s.casc.colls)

/-- This member is in SERVICE or ADOPTED. -/
def State.serves (s : State) : Bool := s.top.mode == .service || s.top.mode == .adopted

/-- Members in SERVICE or ADOPTED. -/
def State.servingNow (s : State) : Byte := setBit s.casc.serving s.casc.self.toNat s.serves

/-- R417: the head. -/
def State.isHead (s : State) : Bool := s.casc.head == s.casc.self

/-- The lines, records and commands that a FENCE of operand `a` waits for, from now (R57). -/
def State.fenceMarks (s : State) (a : Word) : List Nat × List (Nat × Nat) :=
  (if bitOf a 3 then (s.reg.cache.filter (·.dirty)).map (·.since) else [],
   if bitOf a 5 then s.qs.tab.filterMap fun kv => match kv.2 with
     | some x => if x.kind = .record then some (kv.1, x.recSeq.toNat) else none
     | none => none
   else [])

/-- The conditions that a FENCE's operand A adds, all of them (R57). -/
def State.fenceConditions (s : State) (a : Word) (b : DWord) (target : BitVec 16) (dirty : List Nat) (recs : List (Nat × Nat))
    (before : Nat) : Bool :=
  (!bitOf a 1 || s.pm.journal.all fun e => decide (before ≤ e.id))
    && (!bitOf a 2 || allSlices.all fun k => !(target == 0xFFFF || target.toNat == k) || !(s.sliceL k).draining)
    && (!bitOf a 3 || s.reg.cache.all fun l => !l.dirty || !dirty.contains l.since)
    && (!bitOf a 4 || (List.range 28).all fun c => !bitOf b c || (s.chan c).isIdle)
    && (!bitOf a 5 || recs.all fun qn => match s.queue qn.1 with
        | some x => decide (x.inflight.length + x.heldWrites.length ≤ x.recSeq.toNat - qn.2)
        | none => true)

/-- A member takes a collective from the head, or its new instant (R63, R66). A switch is armed once no other of its opcode is
armed here. -/
def State.memberArm (s : State) (c : Coll) : State :=
  match s.coll c.issuer c.cid with
  | none =>
    let marks := s.fenceMarks c.a
    let before := if c.issuer == s.casc.self then c.cid else s.nextId
    s.setColls (s.casc.colls ++ [{ c with dirty := marks.1, recs := marks.2, before := before, since := s.clock }])
  | some _ =>
    let s := s.updColl c.issuer c.cid fun x => { x with instant := c.instant, postponed := c.postponed, members := c.members, told := false }
    let move (a : Armed) : Armed := { a with instant := c.instant, held := false, postponed := c.postponed }
    let mineIn (o : Option Armed) : Bool := match o with
      | some a => a.coll == some (c.issuer, c.cid) && a.fired.isNone
      | none => false
    if mineIn s.time.armedEpoch then s.setArmedEpoch (s.time.armedEpoch.map move)
    else if mineIn s.time.armedSnap then s.setArmedSnap (s.time.armedSnap.map move)
    else s

/-- The head holds a collective back (R66). -/
def State.memberHold (s : State) (issuer : BitVec 3) (cid : Nat) : State :=
  let held (o : Option Armed) : Bool := match o with
    | some a => a.coll == some (issuer, cid) && a.fired.isNone
    | none => false
  let mark (a : Armed) : Armed := { a with held := true }
  if held s.time.armedEpoch then s.setArmedEpoch (s.time.armedEpoch.map mark)
  else if held s.time.armedSnap then s.setArmedSnap (s.time.armedSnap.map mark)
  else s

/-- What this member had armed for a collective is given up. -/
def State.disarmColl (s : State) (issuer : BitVec 3) (cid : Nat) : State :=
  let mineIn (o : Option Armed) : Bool := match o with
    | some a => a.coll == some (issuer, cid)
    | none => false
  let s := if mineIn s.time.armedEpoch then s.setArmedEpoch none else s
  if mineIn s.time.armedSnap then s.setArmedSnap none else s

/-- R67: when the last EPOCH and the last SNAP ended here. -/
def State.noteCollEnd (s : State) (op : Option Byte) : State :=
  match op with
  | some 0x31 => s.setCasc { s.casc with epochEnd := s.now16 }
  | some 0x40 => s.setCasc { s.casc with snapEnd := s.now16 }
  | _ => s

/-- A collective has ended: this member forgets it, and an entry that issued it has its outcome. -/
def State.memberEnded (s : State) (issuer : BitVec 3) (cid : Nat) (status : Byte) (t : DWord) (map : Byte) : State :=
  let op := (s.coll issuer cid).map (·.op)
  let s := ((s.setColls (s.casc.colls.filter fun c => !c.named issuer cid)).disarmColl issuer cid).noteCollEnd op
  if issuer = s.casc.self then
    s.setCasc { s.casc with issued := s.casc.issued.map fun x =>
      if x.jid == cid && x.ended.isNone then { x with ended := some (status, t, map) } else x }
  else s

/-! ### The head (R63, R65 to R67) -/

/-- A message to the members in a mask but this one. -/
def State.toMembers (s : State) (mask : Byte) (m : CollMsg) : State := s.sendFlit (.collective m) (setBit mask s.casc.self.toNat false)

/-- The head sends a collective, or its new instant, to its members. -/
def State.headArm (s : State) (c : Coll) : State :=
  let s := s.toMembers c.members (.arm c.issuer c.cid c.op c.a c.target c.instant c.members c.postponed)
  if bitOf c.members s.casc.self.toNat then s.memberArm c else s

/-- The head ends a collective. -/
def State.headEnd (s : State) (c : Coll) (status : Byte) (t : DWord) : State :=
  (s.toMembers (c.members ||| memberBit c.issuer) (.ended c.issuer c.cid status t c.reported)).memberEnded c.issuer c.cid status t
    c.reported

/-- The head starts a collective (R63, R67): its instant and its members. -/
def State.headStart (s : State) (c : Coll) : State :=
  let c := { c with members := s.servingNow, since := s.clock }
  let ended := if c.op = 0x31 then s.casc.epochEnd else s.casc.snapEnd
  let go (c : Coll) : State := if c.members = 0 then s.headEnd c Status.ok.code c.instant else (if (s.coll c.issuer c.cid).isNone && !bitOf c.members s.casc.self.toNat then
      s.setColls (s.casc.colls ++ [c]) else s).headArm c
  if c.op = 0x04 then go c
  else if c.instant = 0 then go { c with instant := s.leadAfter s.now16 }
  else if s.leadOk c.instant then go c
  else if c.waited then go { c with instant := s.leadAfter ended, postponed := true }
  else s.headEnd c Status.badOperand.code 0

/-- R67: after a collective of an opcode has ended, the next that waits for it at the head starts. -/
def State.headNext (s : State) (op : Byte) : State :=
  if s.casc.colls.any fun c => c.op == op then s
  else match s.casc.queued.find? fun c => c.op == op with
    | some c => (s.setCasc { s.casc with queued := dropFirst (fun c => c.op == op) s.casc.queued }).headStart { c with waited := true }
    | none => s

/-- R65 to R67: the head completes a collective when every member it waits for has reported. -/
def State.headCheck (s : State) (issuer : BitVec 3) (cid : Nat) : State :=
  match s.coll issuer cid with
  | some c =>
    if c.members &&& ~~~ c.reported == 0 then
      let status := if c.lost then Status.timeout else if c.postponed then .postponed else .ok
      (s.headEnd c status.code c.instant).headNext c.op
    else s
  | none => s

/-- R66: every member is ready again: the old instant if it is still ahead, otherwise a new one. -/
def State.headRelease (s : State) (c : Coll) : State :=
  if c.notReady != 0 || c.reported != 0 then s
  else if s.now16 < s.instant16 c.instant then s.headArm c
  else
    let c := { c with instant := s.leadAfter s.now16, postponed := true }
    (s.updColl c.issuer c.cid fun x => { x with instant := c.instant, postponed := true }).headArm c

/-- A report of a collective that this member issued, for its bitmap. -/
def State.noteReport (s : State) (src : BitVec 3) (issuer : BitVec 3) (cid : Nat) : State :=
  if issuer = s.casc.self then
    s.setCasc { s.casc with issued := s.casc.issued.map fun x => if x.jid == cid then { x with map := x.map ||| memberBit src } else x }
  else s

/-- The head takes a message of a member. -/
def State.headTake (s : State) (src : BitVec 3) : CollMsg → State
  | .pass cid op a target instant waited =>
    let c : Coll := { issuer := src, cid := cid, op := op, a := a, target := target, instant := instant, waited := waited }
    if (s.coll src cid).isSome || s.casc.queued.any (fun x => x.named src cid) then s
    else if op != 0x04 && (s.casc.colls.any fun x => x.op == op) then
      s.setCasc { s.casc with queued := s.casc.queued ++ [c] }
    else s.headStart c
  | .report issuer cid =>
    ((s.noteReport src issuer cid).updColl issuer cid fun c => { c with reported := c.reported ||| memberBit src }).headCheck issuer cid
  | .notReady issuer cid =>
    let s := s.updColl issuer cid fun c => { c with notReady := c.notReady ||| memberBit src }
    match s.coll issuer cid with
    | some c => (s.toMembers c.members (.hold issuer cid)).memberHold issuer cid
    | none => s
  | .ready issuer cid =>
    let s := s.updColl issuer cid fun c => { c with notReady := c.notReady &&& ~~~ memberBit src }
    match s.coll issuer cid with
    | some c => s.headRelease c
    | none => s
  | _ => s

/-- A message of this member to the head, which may be this member. -/
def State.toHead (s : State) (m : CollMsg) : State :=
  if s.isHead then s.headTake s.casc.self m else s.sendFlit (.collective m) (memberBit s.casc.head)

/-- R67: a member fails or leaves SERVICE and ADOPTED: the head stops waiting for it. -/
def State.headLose (s : State) (m : BitVec 3) : State :=
  s.forEach s.casc.colls fun s c =>
    if bitOf c.members m.toNat && !bitOf c.reported m.toNat then
      let s := s.updColl c.issuer c.cid fun c =>
        { c with members := setBit c.members m.toNat false, notReady := setBit c.notReady m.toNat false, lost := true }
      let s := s.headCheck c.issuer c.cid
      match s.coll c.issuer c.cid with
      | some c => if c.op != 0x04 && c.notReady == 0 then s.headRelease c else s
      | none => s
    else s

/-! ### What a member reports -/

/-- This member reports a collective, once (R65). -/
def State.report (s : State) (issuer : BitVec 3) (cid : Nat) : State :=
  match s.coll issuer cid with
  | some c =>
    if c.mine then s
    else
      let s := (s.noteReport s.casc.self issuer cid).updColl issuer cid fun c => { c with mine := true }
      let s := if s.isHead || issuer == s.casc.self || issuer == s.casc.head then s
        else s.sendFlit (.collective (.report issuer cid)) (memberBit issuer)
      s.toHead (.report issuer cid)
  | none => s

/-- Arms, on this member, a collective switch that no other switch of its opcode keeps out. -/
def State.armMember (s : State) (c : Coll) : State :=
  let mine := (s.casc.issued.find? fun x => c.issuer == s.casc.self && x.jid == c.cid).map (·.queue)
  let a : Armed := { instant := c.instant, coll := some (c.issuer, c.cid), postponed := c.postponed, slices := s.epochSlices c.target,
                     queue := mine }
  if c.op = 0x31 && s.time.armedEpoch.isNone then s.setArmedEpoch (some a)
  else if c.op = 0x40 && s.time.armedSnap.isNone then s.setArmedSnap (some { a with slices := [] })
  else s

/-- Whether this member could switch for a collective now. -/
def State.collReady (s : State) (c : Coll) : Bool :=
  let mine (o : Option Armed) : Bool := match o with
    | some a => a.coll == some (c.issuer, c.cid)
    | none => false
  if c.op = 0x31 then mine s.time.armedEpoch && s.swapReady (s.epochSlices c.target)
  else mine s.time.armedSnap && s.snapReady

/-- This member's switch for a collective has taken place. -/
def State.collFired (s : State) (c : Coll) : Bool :=
  let done (o : Option Armed) : Bool := match o with
    | some a => a.coll == some (c.issuer, c.cid) && a.fired.isSome
    | none => false
  done s.time.armedEpoch || done s.time.armedSnap

/-- One collective on this member: it is armed when it can be; readiness is told to the head when it changes (R66); the report
is sent (R65): for EPOCH after the swap, for SNAP after the end of the sweep, for FENCE when its conditions hold. -/
def State.serveColl (s : State) (c : Coll) : State :=
  if c.mine || !bitOf c.members s.casc.self.toNat then s
  else if c.op = 0x04 then
    if s.fenceConditions c.a c.instant c.target c.dirty c.recs c.before then s.report c.issuer c.cid else s
  else
    let s := s.armMember c
    if s.collFired c then
      if c.op = 0x40 && !s.snapReady then s
      else
        let s := if c.op = 0x40 then s.setArmedSnap none else s.setArmedEpoch none
        s.report c.issuer c.cid
    else
      let ready := s.collReady c
      if !ready && !c.told then (s.updColl c.issuer c.cid fun c => { c with told := true }).toHead (.notReady c.issuer c.cid)
      else if ready && c.told then (s.updColl c.issuer c.cid fun c => { c with told := false }).toHead (.ready c.issuer c.cid)
      else s

/-- A local switch that waits for a drain or a sweep takes its new instant once that has ended (R66). -/
def State.releaseLocal (s : State) : State :=
  let s := match s.time.armedEpoch with
    | some a => if a.held && a.coll.isNone && s.swapReady a.slices then
        s.setArmedEpoch (some { a with held := false, instant := instantOf16 (s.now16 + 65536000 * a.lead) }) else s
    | none => s
  match s.time.armedSnap with
  | some a => if a.held && a.coll.isNone && s.snapReady then
      s.setArmedSnap (some { a with held := false, instant := instantOf16 (s.now16 + 65536000 * a.lead) }) else s
  | none => s

/-- After a change of drains, sweeps or collectives: what each armed switch and each collective does next. -/
def State.readiness (s : State) : State :=
  let s := s.releaseLocal
  s.forEach s.casc.colls fun s c => match s.coll c.issuer c.cid with
    | some c => s.serveColl c
    | none => s

/-! ### Drains and instants -/

/-- A frame has left a slice, or a held-bank line has fallen: the old bank may have drained (R195). -/
def State.drained (s : State) (k : Nat) : State :=
  let s' := s.drainCheck k
  if (s'.sliceL k).draining == (s.sliceL k).draining then s' else s'.readiness

/-- R250: the armed switches whose instant the timebase has reached take place. -/
def State.fireDue (s : State) (snap : Bool) : State :=
  let due (o : Option Armed) : Bool := match o with
    | some a => a.fired.isNone && !a.held && decide (s.instant16 a.instant ≤ s.now16)
    | none => false
  if snap then (if due s.time.armedSnap then s.fireSnap.readiness else s)
  else if due s.time.armedEpoch then s.fireEpoch.readiness else s

/-- ARMED_INSTANT: an armed EPOCH, or an armed SNAP (`snap`). -/
def execArmedInstant (snap : Bool) (s : State) : Host.Outcome State Fault Refusal :=
  .next (if s.timeRuns then s.fireDue snap else s)

/-- COLLECTIVE_TIMEOUT: the oldest collective of an opcode has not completed within `coll.timeout` at the head (R67). -/
def execCollectiveTimeout (op : Byte) (s : State) : Host.Outcome State Fault Refusal :=
  .next (match s.casc.colls.find? fun c => c.op == op with
    | some c => if s.isHead && s.usPassed s.casc.limit.toNat c.since then ((s.headEnd c Status.timeout.code c.instant).headNext op).readiness else s
    | none => s)

/-! ### EPOCH -/

/-- An EPOCH runs on this member already (R67). -/
def State.epochBusy (s : State) : Bool :=
  s.time.armedEpoch.isSome || s.casc.issued.any (fun x => x.op == 0x31) || s.casc.colls.any fun c => c.op == 0x31

/-- Result B of an EPOCH: the current bank of the target or of slice 0, and of each slice that swapped. -/
def State.epochResult (s : State) (target : BitVec 16) (swapped : List Nat) : DWord :=
  flag 64 (s.sliceL (if target = 0xFFFF then 0 else target.toNat)).current 0
    ||| swapped.foldl (fun v k => v ||| flag 64 (s.sliceL k).current (16 + k)) 0

/-- A collective of this entry goes to the head (R63). -/
def State.issueColl (s : State) (jid : Nat) (queue : BitVec 16) (op : Byte) (a : Word) (target : BitVec 16) (b : DWord) (waited : Bool) :
    State :=
  let s := s.setCasc { s.casc with issued := s.casc.issued ++ [{ jid := jid, queue := queue, op := op }] }
  (s.toHead (.pass jid op a target b waited)).readiness

/-- How a collective of this entry ended, once it has. -/
def State.issuedEnd (s : State) (jid : Nat) : Option (Byte × DWord × Byte) :=
  (s.casc.issued.find? fun x => x.jid == jid).bind (·.ended)

/-- The issuer forgets a collective. -/
def State.dropIssued (s : State) (jid : Nat) : State :=
  s.setCasc { s.casc with issued := s.casc.issued.filter fun x => x.jid != jid }

/-- The status a code names, among those a collective ends with. -/
def collStatus (code : Byte) : Status :=
  if code = 0 then .ok else if code = Status.postponed.code then .postponed else if code = Status.badOperand.code then .badOperand
  else .timeout

/-- An EPOCH that has been armed, or passed to the head, looks at its outcome. -/
def epochEnds (jid : Nat) (i : Ins) (lead : Nat) (s : State) : Ran :=
  let on : Ran := .more (.epoch 1 lead) s.microPasses
  if i.s then match s.casc.issued.find? fun x => x.jid == jid with
    | some ⟨_, _, _, _, swapped, some (st, t, map)⟩ =>
      let b := s.epochResult i.target swapped
      let st := collStatus st
      .done st (if st = .badOperand then 0 else t) (if st = .badOperand then 0 else b ||| at' 64 map 48) (s.dropIssued jid)
    | _ => on
  else match s.time.armedEpoch with
    | some a => match a.fired with
      | some t =>
        if a.jid = some jid then
          .done (if a.postponed then .postponed else .ok) t (s.epochResult i.target a.slices)
            (((s.setArmedEpoch none).setCasc { s.casc with epochEnd := s.now16 }).readiness)
        else on
      | none => on
    | none => on

/-- R63, R64: an instant that lies a captured lead ahead. -/
def State.leadMet (s : State) (lead : Nat) (b : DWord) : Bool := decide (s.now16 + 65536000 * lead ≤ s.instant16 b)

/-- An EPOCH that no other keeps waiting: it is armed, passed to the head, or, with B = 0, switches now (R62 to R64, R67). -/
def epochBegins (jid : Nat) (queue : BitVec 16) (i : Ins) (lead : Nat) (waited : Bool) (s : State) : Ran :=
  let a : Armed := { instant := i.b, slices := s.epochSlices i.target, jid := some jid, queue := some queue, lead := lead }
  if i.s then .more (.epoch 1 lead) (s.issueColl jid queue 0x31 i.a i.target i.b waited)
  else if i.b = 0 then epochEnds jid i lead ((s.setArmedEpoch (some { a with instant := s.nowInstant })).fireEpoch)
  else if s.leadMet lead i.b then .more (.epoch 1 lead) (s.setArmedEpoch (some a))
  else if waited then
    .more (.epoch 1 lead)
      (s.setArmedEpoch (some { a with instant := instantOf16 (s.casc.epochEnd + 65536000 * lead), postponed := true }))
  else .bad .badOperand s

/-- A step of EPOCH: 0 waits for an earlier one, 1 is armed. -/
def stepEpoch (jid : Nat) (queue : BitVec 16) (i : Ins) (phase lead : Nat) (s : State) : Ran :=
  if phase = 0 then (if s.epochBusy then .more (.epoch 0 lead) s.microPasses else epochBegins jid queue i lead true s)
  else epochEnds jid i lead (s.fireDue false)

/-- R64: a local EPOCH or SNAP that does not wait behind another has an instant less than the lead ahead. -/
def State.instantEarly (s : State) (i : Ins) (busy : Bool) : Bool :=
  !i.s && i.b != 0 && !busy && !s.leadMet s.casc.lead.toNat i.b

/-- EPOCH (R193, R194, R508). `coll.lead_min` is captured at step 0 (R42). -/
def runEpoch (jid : Nat) (queue : BitVec 16) (i : Ins) (s : State) : Ran :=
  let lead := s.casc.lead.toNat
  if (i.target != 0xFFFF && 16 ≤ i.target.toNat) || 1000000000 ≤ (fld i.b 0 30).toNat || s.instantEarly i s.epochBusy then
    .bad .badOperand s
  else if (if i.target = 0xFFFF then (s.epochSlices i.target).isEmpty else !s.sliceOn i.target.toNat) then .bad .targetAsleep s
  else if s.epochBusy then .more (.epoch 0 lead) s
  else epochBegins jid queue i lead false s

/-- EPOCH. -/
def execEpoch (q : QId) (i : Ins) (s : State) : Host.Outcome State Fault Refusal := begins q 0x31 true i runEpoch s

/-! ### SNAP -/

/-- A SNAP runs on this member already (R67). -/
def State.snapBusy (s : State) : Bool :=
  s.time.armedSnap.isSome || s.casc.issued.any (fun x => x.op == 0x40) || s.casc.colls.any fun c => c.op == 0x40

/-- A SNAP that has been armed, or passed to the head, looks at its outcome: it completes after the end of its sweep. -/
def snapEnds (jid : Nat) (i : Ins) (lead : Nat) (s : State) : Ran :=
  let on : Ran := .more (.snap 1 lead) s.microPasses
  if i.s then match s.issuedEnd jid with
    | some (st, t, map) =>
      let st := collStatus st
      .done st (if st = .badOperand then 0 else t) (if st = .badOperand then 0 else at' 64 s.reg.epoch 0 ||| at' 64 map 48)
        (s.dropIssued jid)
    | none => on
  else match s.time.armedSnap with
    | some a => match a.fired with
      | some t =>
        if a.jid = some jid && s.snapReady then
          .done (if a.postponed then .postponed else .ok) t (at' 64 s.reg.epoch 0 ||| at' 64 (memberBit s.casc.self) 48)
            (((s.setArmedSnap none).setCasc { s.casc with snapEnd := s.now16 }).readiness)
        else on
      | none => on
    | none => on

/-- A SNAP that no other keeps waiting. -/
def snapBegins (jid : Nat) (queue : BitVec 16) (i : Ins) (lead : Nat) (waited : Bool) (s : State) : Ran :=
  let a : Armed := { instant := i.b, jid := some jid, lead := lead }
  if i.s then .more (.snap 1 lead) (s.issueColl jid queue 0x40 i.a i.target i.b waited)
  else if i.b = 0 then snapEnds jid i lead ((s.setArmedSnap (some { a with instant := s.nowInstant })).fireSnap)
  else if s.leadMet lead i.b then .more (.snap 1 lead) (s.setArmedSnap (some a))
  else if waited then
    .more (.snap 1 lead)
      (s.setArmedSnap (some { a with instant := instantOf16 (s.casc.snapEnd + 65536000 * lead), postponed := true }))
  else .bad .badOperand s

/-- A step of SNAP: 0 waits for an earlier one, 1 is armed or sweeps. -/
def stepSnap (jid : Nat) (queue : BitVec 16) (i : Ins) (phase lead : Nat) (s : State) : Ran :=
  if phase = 0 then (if s.snapBusy then .more (.snap 0 lead) s.microPasses else snapBegins jid queue i lead true s)
  else snapEnds jid i lead (s.fireDue true)

/-- SNAP (R68, R219). -/
def runSnap (jid : Nat) (queue : BitVec 16) (i : Ins) (s : State) : Ran :=
  let lead := s.casc.lead.toNat
  if i.target != 0xFFFF || 1000000000 ≤ (fld i.b 0 30).toNat || !s.isRecordQueue s.reg.recordQueue.toNat
      || s.instantEarly i s.snapBusy then .bad .badOperand s
  else if !s.isOn dREG then .bad .targetAsleep s
  else if s.snapBusy then .more (.snap 0 lead) s
  else snapBegins jid queue i lead false s

/-- SNAP. -/
def execSnap (q : QId) (i : Ins) (s : State) : Host.Outcome State Fault Refusal := begins q 0x40 true i runSnap s

/-- The next part of the sweep; its end lets a postponed SNAP take its new instant. -/
def State.sweepOn (s : State) (uncorrectable : List Nat) : State :=
  let s' := s.sweepPart uncorrectable
  if s'.reg.phase == .idle && s.reg.phase != .idle then s'.readiness else s'

/-! ### FENCE (R57) -/

/-- A step of FENCE, one microsecond after the last; the wait began at `since`. A collective FENCE ends when the head ends it. -/
def stepFence (jid : Nat) (i : Ins) (since : Nat) (dirty : List Nat) (recs : List (Nat × Nat)) (before : Nat) (s : State) : Ran :=
  let limit := 1000 * (fld i.a 16 16).toNat
  let waited := s.pm.micros - since
  let t := BitVec.ofNat 64 waited
  if i.s then
    let s := s.readiness
    match s.issuedEnd jid with
    | some (st, _, map) => .done (collStatus st) t (at' 64 map 48) (s.dropIssued jid)
    | none =>
      if limit != 0 && limit ≤ waited then
        let map := (s.casc.issued.find? fun x => x.jid == jid).map (·.map) |>.getD 0
        .done .timeout t (at' 64 map 48) (s.dropIssued jid)
      else .more (.fence since dirty recs before) s.microPasses
  else if s.fenceConditions i.a i.b i.target dirty recs before then .ok t 0 s
  else if limit != 0 && limit ≤ waited then .done .timeout t 0 s
  else .more (.fence since dirty recs before) s.microPasses

/-- FENCE. -/
def runFence (jid : Nat) (queue : BitVec 16) (i : Ins) (s : State) : Ran :=
  if bitOf i.a 2 && i.target != 0xFFFF && 16 ≤ i.target.toNat then .bad .badOperand s
  else if bitOf i.a 2 && i.target != 0xFFFF && !s.sliceOn i.target.toNat then .bad .targetAsleep s
  else
    let marks := s.fenceMarks i.a
    let s := if i.s then s.issueColl jid queue 0x04 i.a i.target i.b false else s
    stepFence jid i s.pm.micros marks.1 marks.2 jid s

/-- FENCE. -/
def execFence (q : QId) (i : Ins) (s : State) : Host.Outcome State Fault Refusal := begins q 0x04 true i runFence s

end Machine
end Sys2Proof
end

