-- ==== Sys2Proof/Machine/Receive.lean ====
section
/-! DEFINITION. The receive path (01 R18 to R22, 04 R119 to R124, 05 R136, R137, R146, 06 R170, R176, R192, R197, 03 R89, R90, 15
R458 to R465): the end of a frame, classification, hand-over, punts, recirculation and credits. -/

namespace Sys2Proof
namespace Machine

/-! ### MAC Control frames (R123, R136, R137) -/

/-- The destination address of a valid pause or PFC frame (R136). -/
def Port.controlAddress (x : Port) (f : List Byte) : Bool :=
  let da := slice f 0 6
  da == [0x01, 0x80, 0xC2, 0, 0, 0x01] || da == leBytes 6 x.fcSa.toNat

/-- A pause frame pauses every priority; a PFC frame those it enables. -/
def State.macControl (s : State) (p : Nat) (f : List Byte) : State :=
  let x := s.port p
  let op := (be16 f 14).toNat
  if op != 0x0001 && op != 0x0101 then s.event p 0x027
  else if !x.controlAddress f then s.event p 0x00A
  else if op = 0x0001 then
    let s := s.event p 0x080
    if x.rxMode = 1 then s.setPort p ((List.range 8).foldl (fun x i => x.setPaused i (be16 f 16) s.clock) (s.port p)) else s.event p 0x00A
  else
    let on := priosOf (byteAt f 17)
    let s := s.event p 0x081
    let s := s.forEach on fun s i => if be16 f (18 + 2 * i) = 0 then s else s.event p (0x088 + i)
    if x.rxMode = 2 then s.setPort p (on.foldl (fun x i => x.setPaused i (be16 f (18 + 2 * i)) s.clock) (s.port p)) else s.event p 0x00A

/-! ### FRAME_RECEIVE (R104, R118 to R121, R253) -/

/-- Receive cells in use. -/
def State.rxUsed (s : State) (p : Nat) : Nat := ((s.frames.rx.filter fun f => f.port.toNat == p).map fun f => cellsOf f.wire).sum

/-- The FCS of a frame is good. -/
def fcsGood (f : List Byte) : Bool := f.drop (f.length - 4) == leBytes 4 (crc32 (f.take (f.length - 4))).toNat

/-- R146: the continuations of a preemptable frame carry its number and their counts in sequence. The first continuation carries
count 1 (05, the table of preemption and PFC). -/
def fragmentsFollow (no : BitVec 2) : BitVec 2 → List RxFrag → Bool
  | _, [] => true
  | c, x :: t => !x.start && x.no == no && x.count == c && fragmentsFollow no (c + 1) t

/-- R146: a preemptable frame ends in a reassembly error: a new SMD-S arrived in it, a continuation arrived with no frame in progress, a
count is out of sequence, or an mCRC is bad. The last fragment closes with the FCS. -/
def reasmErr (f : RxFrame) : Bool :=
  f.preempt && (f.newStart || (f.fragments.dropLast.any fun x => !x.mcrcGood)
    || match f.fragments with
       | [] => false
       | x :: t => !x.start || !fragmentsFollow x.no 1 t)

/-- R120, R405: the reason for which a frame is dropped at its end, as a native counter word. -/
def State.rxReason (s : State) (p : Nat) (f : RxFrame) : Option Nat :=
  let n := f.bytes.length
  if n < 64 then some 0x020
  else if 16384 < n then some 0x021
  else if decide (384 * (s.port p).width < s.rxUsed p + cellsOf n) || f.stageBad then some 0x022
  else if f.fecBad then some 0x023
  else if f.codeBad || reasmErr f then some 0x024
  else if !fcsGood f.bytes then some 0x025
  else if (s.port p).maxfrm.toNat < n then some 0x026
  else none

/-- R249, R253, R283: the timestamp of a received frame, under what was in force at its timestamp point. -/
def State.rxStamp (s : State) (p : Nat) (f : RxFrame) : Stamp :=
  let r := s.regimeAt f.ago
  let l := ((s.lanesOf p).find? fun l => s.logicalOf p l == f.lane).getD p
  if r.on then
    let now : Int := s.now16
    let t := now - (s.time.stepped - r.stepped) - f.ago + bitTime (modeClass (s.port p).mode) f.bit + (Tab.get 0 r.cal l).toInt * 256
      + (Tab.get 0 r.corr p).toInt * 256
    ⟨BitVec.ofNat 48 (t.toNat / 65536000000000), t.toNat % 65536000000000, r.state, s.time.powerup⟩
  else ⟨0, 0, .unset, s.time.powerup⟩

/-- A frame that has passed its checks and MACsec waits for the Sorter. -/
def State.takeIn (s : State) (p k : Nat) (f : RxFrame) (plain : List Byte) (macsec : Bool) : State :=
  let (id, s) := s.takeId
  let e := (s.sliceL k).epochCount
  let r : RxFr := { fid := id, port := BitVec.ofNat 6 p, bytes := plain, wire := f.bytes.length, slice := BitVec.ofNat 4 k,
                    stamp := s.rxStamp p f, epoch := if f.beforeSwap then e - 1 else e, macsec := macsec, preempt := f.preempt }
  { s with frames := { s.frames with rx := s.frames.rx ++ [r] } }

/-- A frame that no check of the port discarded: a MAC Control frame ends here (R123), any other goes through MACsec. -/
def State.accepted (s : State) (p k : Nat) (f : RxFrame) (body : List Byte) : State :=
  if be16 body 12 = 0x8808 then s.macControl p body
  else match validateRx s p body f.bytes.length with
    | .drop w => (s.countSec p w 1).countCompat p 0x0A 1
    | .pass plain macsec s => s.takeIn p k f plain macsec

/-- A frame that was in reception when its port left UP may still end, once for each MAC, without a terminate (R120, R507). -/
def Port.mayEnd (x : Port) (f : RxFrame) : Bool := x.st == .up || (if f.preempt then x.endP else x.endE)

/-- The port after a frame has ended on it, and the frame as it ended. -/
def Port.endFrame (x : Port) (f : RxFrame) : Port × RxFrame :=
  if x.st = .up then (x, f)
  else (if f.preempt then { x with endP := false } else { x with endE := false }, { f with codeBad := true })

/-- A frame in reception at the last swap ends (R195). -/
def State.arrived (s : State) (k p : Nat) (pre : Bool) : State :=
  if (s.sliceL k).arriving.contains (p, pre) then
    s.setSliceL k { s.sliceL k with arriving := (s.sliceL k).arriving.filter (· != (p, pre)) } else s

/-- A received frame ends. Only a port that is UP receives; a frame in reception ends when its port leaves UP. -/
def State.receive (s : State) (p : Nat) (f : RxFrame) : State :=
  if !(s.port p).mayEnd f || !s.portOn p || s.top.resetting != .none then s
  else
    let (x, f) := (s.port p).endFrame f
    let (k, x) := x.deal p f.preempt
    let s := ((s.setPort p x).arrived k p f.preempt).count p 0x084 (if f.preempt then f.fragments.length - 1 else 0)
    let s := if reasmErr f then s.event p 0x086 else s
    (match s.rxReason p f with
    | some w => s.event p w
    | none => s.accepted p k f (f.bytes.take (f.bytes.length - 4))).drained k

/-- FRAME_RECEIVE. -/
def execFrameReceive (p : PortId) (f : RxFrame) (s : State) : Host.Outcome State Fault Refusal := .next (s.receive p.toNat f)

/-- PAUSE_FRAME_RECEIVE: a MAC Control frame of opcode 0x0001 or 0x0101; any other frame is FRAME_RECEIVE's. -/
def execPauseFrameReceive (p : PortId) (f : RxFrame) (s : State) : Host.Outcome State Fault Refusal :=
  let op := (be16 f.bytes 14).toNat
  .next (if be16 f.bytes 12 = 0x8808 && (op == 0x0001 || op == 0x0101) then s.receive p.toNat f else s)

/-! ### PARSE (R170, R171, R176, R192, R199, R207) -/

/-- R201: the depth code of a slice. -/
def State.depthOf (s : State) (k : Nat) : BitVec 3 := Tab.get 0 s.sorter.depth (k / 2)

/-- The events of a classified frame. -/
def State.sortEvents (s : State) (k p : Nat) (c : Sorted) : State :=
  let s := if c.miss then s.event p 0x0F0 else s
  let s := if c.cls.outer = 0 then s else s.event p (0x0F0 + c.cls.outer.toNat)
  let s := if c.cls.shallow then s.event p 0x0F4 else s
  if c.cls.parseFault then s.eventSlice k 0 else s

/-- The oldest frame from the wire that waits for an engine of a slice. -/
def State.wireWaits (s : State) (k : Nat) : Option RxFr := s.frames.rx.find? fun f => f.slice.toNat == k && !f.parsed

/-- The oldest recirculated frame that waits for an engine of a slice. -/
def State.recircWaits (s : State) (k : Nat) : Option RxFr := s.frames.recirc.find? fun f => f.slice.toNat == k && !f.parsed

/-- An engine takes a frame from the wire. -/
def State.parseWire (s : State) (k : Nat) (f : RxFr) : State :=
  let p := f.port.toNat
  let c := (s.sliceL k).classify s.sorter.seed (s.depthOf k) p f.bytes f.macsec f.epoch
  if (s.port p).memberGuard && c.cls.src = 0 then (s.dropRx f 0x028).drained k
  else
    let s := s.sortEvents k p c
    if !c.cls.pipe && !c.cls.punt then (s.dropRx f 0x029).drained k
    else (s.updRx f.fid fun f => { f with parsed := true, cls := c.cls }).resolve f.fid c.cls

/-- An engine takes a recirculated frame (R197): it is classified again in the bank that the carried epoch names. -/
def State.parseRecirc (s : State) (k : Nat) (f : RxFr) : State :=
  let w := f.recirc.getD 0
  let (e, stale) := (s.sliceL k).recircEpoch (fld w 88 4)
  let s := s.eventSlice k 1
  let s := if stale then s.eventSlice k 2 else s
  let c := (s.sliceL k).classify s.sorter.seed (s.depthOf k) f.port.toNat f.bytes (bitOf w 4) e
  let s := if c.cls.parseFault then s.eventSlice k 0 else s
  let sorted (g : RxFr) : RxFr := { g with parsed := true, epoch := e, cls := { c.cls with punt := false } }
  ({ s with frames := { s.frames with recirc := updFirst (fun g => g.fid == f.fid) sorted s.frames.recirc } }).drained k

/-- The engine slots that the wire has taken while a recirculated frame waits. -/
def State.setSlots (s : State) (k n : Nat) : State := s.setSliceL k { s.sliceL k with slots := n }

/-- A slot of a slice's parse engines (R171): the oldest frame from the wire takes it; a recirculated frame that waits takes it where none
waits from the wire, and in every 32nd. -/
def State.parseNext (s : State) (k : Nat) : State :=
  match s.wireWaits k, s.recircWaits k with
  | some f, none => s.parseWire k f
  | some f, some g => if 31 ≤ (s.sliceL k).slots then (s.setSlots k 0).parseRecirc k g
                      else (s.setSlots k ((s.sliceL k).slots + 1)).parseWire k f
  | none, some g => (s.setSlots k 0).parseRecirc k g
  | none, none => s

/-- Replica words in which a parity error has come up: they stand until the slice reloads them (R353). -/
def State.markReplica (s : State) (k : Nat) (words : List Nat) : State :=
  let x := s.sliceL k
  s.setSliceL k { x with badReplica := x.badReplica ++ words.filter fun w => sortWord w && !x.badReplica.contains w }

/-- PARSE; `parity` lists the replica words in which the slice finds a parity error from now on (R184, R353). -/
def execParse (k : BitVec 4) (parity : List Nat) (s : State) : Host.Outcome State Fault Refusal :=
  .next (if s.sliceOn k.toNat && s.top.resetting == .none then (s.markReplica k.toNat parity).parseNext k.toNat else s)

/-! ### Acceptance (R18 to R21, R211, R227) -/

/-- A native counter that extends past 2^48 (R215). -/
def State.countWraps (s : State) (p len : Nat) : State :=
  let r := s.reg
  let wf := if (s.native p 0).toNat + 1 = 2 ^ 48 then Tab.put 0 r.wrapFrames p (Tab.get 0 r.wrapFrames p + 1) else r.wrapFrames
  let wb := if 2 ^ 48 ≤ (s.native p 1).toNat + len then Tab.put 0 r.wrapBytes p (Tab.get 0 r.wrapBytes p + 1) else r.wrapBytes
  s.setReg { r with wrapFrames := wf, wrapBytes := wb }

/-- The counts of an accepted frame, and Registry's. -/
def State.acceptRx (s : State) (f : RxFr) : State :=
  let p := f.port.toNat
  let s := s.countWraps p f.wire
  let s := ((s.event p 0x000).count p 0x001 f.wire).event p (0x002 + castOf f.bytes)
  let s := if f.cls.tagged then s.event p 0x005 else s
  ((s.event p (if f.preempt then 0x009 else 0x008)).event p (0x010 + lenBand f.wire)).registryCount f

/-- Registry has resolved the frame. -/
def RxFr.resolved (f : RxFr) : Bool :=
  match f.res with
  | .pair _ | .unsorted _ => true
  | _ => false

/-- The metadata word of a frame (R198); a recirculated frame keeps the pair field, the epoch, the time and the MACsec mark it
carried (R197). -/
def RxFr.word (f : RxFr) : QWord :=
  match f.recirc with
  | some w => metaWord f.cls (fld w 92 25) (fld w 88 4) (fld w 5 51) (bitOf w 4)
  | none => metaWord f.cls f.res.field (fld f.epoch 0 4) (metaTime f.stamp) f.macsec

/-- Segments of a frame on a bus. -/
def segments (f : List Byte) : Nat := (f.length + 63) / 64

/-! ### HANDOVER (R459, R460) -/

/-- Receive credits of bus k. -/
def State.credits (s : State) (k : Nat) : Nat := 256 - Tab.get 0 s.frames.creditsUsed k

/-- A frame crosses a receive bus. -/
def State.cross (s : State) (k : Nat) (f : RxFr) (again : Bool) : State :=
  ({ s with frames := { s.frames with
      creditsUsed := Tab.put 0 s.frames.creditsUsed k (Tab.get 0 s.frames.creditsUsed k + segments f.bytes) } }).emit
    (.handover (BitVec.ofNat 4 k) f.port f.word f.bytes again)

/-- A frame that the pipeline still has to get, or whose class is not known yet. -/
def RxFr.due (f : RxFr) : Bool := !f.parsed || (f.cls.pipe && !f.handed)

/-- An earlier frame of the same 8-lane port waits on the other bus (R21, R104). -/
def State.behindOther (s : State) (f : RxFr) : Bool :=
  (s.frames.rx.takeWhile fun g => g.fid != f.fid).any fun g => g.port == f.port && g.slice != f.slice && g.due

/-- The buses run: no reset holds them, and QUARANTINE hands nothing over (R425, R464). -/
def State.busRuns (s : State) (k : Nat) : Bool :=
  !s.pbReset && !s.quiesced && s.sliceOn k

/-- The frame at the head of a bus, once nothing holds it back. -/
def State.busHead (s : State) (k : Nat) : Option RxFr :=
  (s.frames.rx.find? fun f => f.slice.toNat == k && f.due).filter fun f =>
    f.parsed && f.resolved && decide (segments f.bytes ≤ s.credits k) && !s.behindOther f

/-- A received frame is handed over, which is its acceptance (R18); a punt copy stays behind (R20). -/
def State.handOver (s : State) (k : Nat) (f : RxFr) : State :=
  let s := (s.cross k f false).acceptRx f
  (if f.cls.punt then s.updRx f.fid fun f => { f with handed := true } else s.leaveRx f.fid).drained k

/-- A recirculated frame is handed back, and its segments' credits return (R197, R463). -/
def State.handBack (s : State) (k : Nat) (f : RxFr) : State :=
  let s := { s with frames := { s.frames with recirc := s.frames.recirc.filter fun g => g.fid != f.fid } }
  ((s.cross k f true).emit (.recircCredit (BitVec.ofNat 4 k) (segments f.bytes))).drained k

/-- The next frame of a bus: one from the wire, else a recirculated one that waits (R171). -/
def State.handNext (s : State) (k : Nat) : State :=
  if !s.busRuns k then s
  else match s.busHead k with
    | some f => s.handOver k f
    | none => match s.frames.recirc.find? fun f => f.slice.toNat == k with
      | some f => if f.parsed && decide (segments f.bytes ≤ s.credits k) then s.handBack k f else s
      | none => s

/-- HANDOVER. -/
def execHandover (k : BitVec 4) (s : State) : Host.Outcome State Fault Refusal := .next (s.handNext k.toNat)

/-! ### PUNT (R19, R20, R89, R90, R192, R503) -/

/-- Bytes of a slot. -/
def Queue.slotBytes (x : Queue) : Nat := 256 * 2 ^ x.slotSize.toNat

/-- The PUNT queue of a frame, where the punt is possible (R192). -/
def State.puntQueue (s : State) (f : RxFr) : Option Queue :=
  if 4095 < f.cls.puntQueue then none
  else (s.queue f.cls.puntQueue).filter fun x =>
    x.kind == .punt && !x.stopped && !x.closing
      && decide ((f.bytes.length + x.slotBytes - 1) / x.slotBytes ≤ x.room)

/-- R89: the entry of slot `i` of `n`, without its phase byte. -/
def puntEntry (x : Queue) (f : RxFr) (gen : BitVec 16) (i n : Nat) : List Byte :=
  let here := min x.slotBytes (f.bytes.length - i * x.slotBytes)
  leBytes 16 f.word.toNat ++ leBytes 2 f.wire ++ leBytes 2 here
    ++ [f.port.setWidth 8, flag 8 (i == 0) 0 ||| flag 8 (i + 1 == n) 1 ||| flag 8 f.handed 2 ||| flag 8 f.macsec 3]
    ++ leBytes 2 i ++ leBytes 8 x.puntSeq.toNat ++ leBytes 2 gen.toNat ++ List.replicate 29 0

/-- The first writes of a punt: every buffer, then every entry's first 63 bytes. -/
def State.puntWrites (s : State) (q : Nat) (x : Queue) (f : RxFr) (n : Nat) : State :=
  let own (i : Nat) : Owner := .puntBuf (qid q) f.fid (x.advance x.tail i) false
  let buf (i : Nat) : HostAddr :=
    (x.puntBase.setWidth 57 <<< 12) + BitVec.ofNat 57 (x.slotOf (x.advance x.tail i) * x.slotBytes)
  let gen := (s.port f.port.toNat).gen
  let s := s.forEach (List.range n) fun s i =>
    s.queueWrite (buf i) ((f.bytes.drop (i * x.slotBytes)).take x.slotBytes) true (own i)
  let s := s.forEach (List.range n) fun s i => s.queueWrite (x.entryAddr (x.advance x.tail i)) (puntEntry x f gen i n) false (own i)
  s

/-- The next phase byte of a punt, in slot order: each follows the answer to the one before, so that the last one leaves only when every
other write of the punt has been made (R90). -/
def State.puntPhase (s : State) (q : Nat) (x : Queue) (fid : Nat) (first : RIdx) (i n : Nat) : State :=
  let j := x.advance first i
  (((s.updRx fid fun f => { f with phases := i + 1 }).queueWrite (x.entryAddr j + 63) [phaseByte (x.phase j)] false
    (.puntBuf (qid q) fid j (i + 1 == n))).moderate q false)

/-- The writes of a punt that have not been answered. -/
def State.puntOwed (s : State) (fid : Nat) : Nat :=
  let mine (r : Req) : Bool := match r.owner with | .puntBuf _ f _ _ => f == fid | _ => false
  (s.dma.reqs.filter mine).length + (s.dma.backlog.filter mine).length

/-- A frame's writes begin. The L of ceil(L / slot bytes) in R89 is taken as the bytes that the buffers hold, without FCS, SecTAG and ICV:
the model's choice, since R89 calls L the frame's bytes and R6 its length on the wire (log entry 119). -/
def State.puntStart (s : State) (q : Nat) (x : Queue) (f : RxFr) : State :=
  let n := (f.bytes.length + x.slotBytes - 1) / x.slotBytes
  let s := (s.setQueue q { x with tail := x.advance x.tail n, puntSeq := x.puntSeq + 1 }).puntWrites q x f n
  s.updRx f.fid fun f => { f with punting := some (qid q, x.tail, n) }

/-- A punt that cannot be placed: the frame is dropped, or, for a frame already handed over, the copy alone. -/
def State.puntDrop (s : State) (f : RxFr) : State :=
  if f.handed then (s.event f.port.toNat 0x02A).leaveRx f.fid else s.dropRx f 0x02A

/-- The punt of a frame has been written: its acceptance, or the delivery of its copy (R19, R20). -/
def State.puntDone (s : State) (f : RxFr) : State :=
  let s := if f.handed then s.event f.port.toNat 0x007 else (s.event f.port.toNat 0x006).acceptRx f
  (s.leaveRx f.fid).drained f.slice.toNat

/-- A write of a punt has failed after its retries (R503): the ring stops, with its tail at the failed entry, and a frame on its way
to the ring that has not been accepted is dropped. -/
def State.puntFailed (s : State) (q : Nat) (idx : RIdx) : State :=
  let s := match s.queue q with
    | some x => (s.setQueue q { x with stopped := true, tail := idx }).queueFault 6 (qid q)
    | none => s
  let mine (r : Req) : Bool := match r.owner with | .puntBuf p _ _ _ => p.toNat == q | _ => false
  let s := s.setDma { s.dma with reqs := s.dma.reqs.map fun r => if mine r then { r with owner := .none } else r,
                                 backlog := s.dma.backlog.filter fun r => !mine r }
  s.forEach (s.frames.rx.filter fun f => f.punting.map (·.1.toNat) == some q) fun s f => (s.puntDrop f).drained f.slice.toNat

/-- The last phase byte of a frame's punt has been issued (R90). -/
def RxFr.phased (f : RxFr) : Bool := match f.punting with | some (_, _, n) => f.phases == n | none => false

/-- Every write of a punt so far has been answered: the next phase byte leaves, or the punt is done. The frame counts as accepted from the
answer to the write of its last phase byte on, and from the moment that write has left the port when a reset ends the wait (R19, R90, R400;
log entry 118). -/
def State.puntAnswered (s : State) (fid : Nat) : State :=
  if s.puntOwed fid != 0 then s
  else match s.rxFrame fid with
    | some f => match f.punting with
      | some (q, first, n) =>
        if f.phased then s.puntDone f
        else match s.queue q.toNat with
          | some x => s.puntPhase q.toNat x fid first f.phases n
          | none => (s.puntDrop f).drained f.slice.toNat
      | none => s
    | none => s

/-- A punt whose last phase byte has not been issued is taken back: the ring goes on at the first slot whose phase byte has not been
(R400, R503). -/
def State.puntTakenBack (s : State) (f : RxFr) : State :=
  let mine (r : Req) : Bool := match r.owner with | .puntBuf _ fid _ _ => fid == f.fid | _ => false
  let s := s.setDma { s.dma with reqs := s.dma.reqs.map fun r => if mine r then { r with owner := .none, tries := 0 } else r,
                                 backlog := s.dma.backlog.filter fun r => !mine r }
  match f.punting with
  | some (q, first, _) => (match s.queue q.toNat with
    | some x => s.setQueue q.toNat { x with tail := x.advance first f.phases,
                                            puntSeq := if f.phases = 0 then x.puntSeq - 1 else x.puntSeq }
    | none => s)
  | none => s

/-- The oldest frame of a slice whose punt is due. One frame at a time is written to a queue. -/
def State.puntNext (s : State) (k : Nat) : State :=
  match s.frames.rx.find? fun f => f.slice.toNat == k && f.parsed && f.resolved && f.cls.punt && (!f.cls.pipe || f.handed)
      && f.punting.isNone with
  | none => s
  | some f =>
    let q := f.cls.puntQueue
    if s.frames.rx.any fun g => g.punting.map (·.1.toNat) == some q then s
    else match s.puntQueue f with
      | some x => s.puntStart q x f
      | none => (s.puntDrop f).drained k

/-- PUNT. -/
def execPunt (k : BitVec 4) (s : State) : Host.Outcome State Fault Refusal :=
  .next (if s.sliceOn k.toNat && s.engineRuns then s.puntNext k.toNat else s)

/-! ### Recirculation, credits, held banks (R197, R460, R463, R465) -/

/-- Segments in the recirculation buffer of slice k. -/
def State.recircUsed (s : State) (k : Nat) : Nat :=
  ((s.frames.recirc.filter fun f => f.slice.toNat == k).map fun f => segments f.bytes).sum

/-- A frame returned by the pipeline waits in the recirculation buffer. Where no frame of the slice waits for an engine it is classified
again at once, and handed back if its bus has credit; otherwise PARSE gives it a slot (R171, log entry 122). -/
def State.recirculate (s : State) (k p : Nat) (frame : List Byte) (w : QWord) : State :=
  if s.pbReset || !s.sliceOn k then s
  else if !(s.port p).configured || !(s.slicesOfPort p).contains k then s.pbMisroute k
  else if 512 < s.recircUsed k + segments frame then s.pbCredit k
  else if s.quiesced then
    (s.event p 0x060).emit (.recircCredit (BitVec.ofNat 4 k) (segments frame))
  else
    let free := (s.wireWaits k).isNone && (s.recircWaits k).isNone
    let first := !s.frames.recirc.any fun g => g.slice.toNat == k
    let (id, s) := s.takeId
    let f : RxFr := { fid := id, port := BitVec.ofNat 6 p, bytes := frame, wire := frame.length + 4, slice := BitVec.ofNat 4 k,
                      recirc := some w }
    let s := { s with frames := { s.frames with recirc := s.frames.recirc ++ [f] } }
    if !free then s
    else
      let s := s.parseRecirc k f
      match s.frames.recirc.find? fun g => g.fid == id with
      | some g => if first && decide (segments frame ≤ s.credits k) then s.handBack k g else s
      | none => s

/-- RECIRC_RECEIVE. -/
def execRecircReceive (k : BitVec 4) (p : PortId) (frame : List Byte) (mw : QWord) (s : State) : Host.Outcome State Fault Refusal :=
  .next (s.recirculate k.toNat p.toNat frame mw)

/-- RX_CREDIT_RETURN (R460). -/
def State.creditReturn (s : State) (k n : Nat) : State :=
  let used := Tab.get 0 s.frames.creditsUsed k
  if s.pbReset then s
  else if 4 < n || used < n then s.pbCredit k
  else { s with frames := { s.frames with creditsUsed := Tab.put 0 s.frames.creditsUsed k (used - n) } }

/-- RX_CREDIT_RETURN. -/
def execRxCreditReturn (k : BitVec 4) (n : BitVec 3) (s : State) : Host.Outcome State Fault Refusal :=
  .next (s.creditReturn k.toNat n.toNat)

/-- The held-bank line of a bank. -/
def State.setHeld (s : State) (k : Nat) (bank : BitVec 1) (v : Bool) : State :=
  let x := s.sliceL k
  s.setSliceL k (if bank = 0 then { x with held0 := v } else { x with held1 := v })

/-- HELD_BANK_HIGH. -/
def execHeldBankHigh (k : BitVec 4) (bank : BitVec 1) (s : State) : Host.Outcome State Fault Refusal :=
  .next (s.setHeld k.toNat bank true)

/-- HELD_BANK_LOW (R195, R465). -/
def execHeldBankLow (k : BitVec 4) (bank : BitVec 1) (s : State) : Host.Outcome State Fault Refusal :=
  .next ((s.setHeld k.toNat bank false).drained k.toNat)

/-! ### What a reset or QUARANTINE does to received frames (R400, R401, R464) -/

/-- Staged frames are freed: a punt whose last phase byte has been issued is accepted, every other frame that has not been
accepted is dropped and counted in rx_stage_full, and a punt copy that remains is dropped (log entry 42). -/
def State.freeFrames (s : State) (which : RxFr → Bool) : State :=
  s.forEach (s.frames.rx.filter which) fun s f =>
    if f.phased then s.puntDone f
    else
      let s := s.puntTakenBack f
      if f.handed then (s.puntDrop f).drained f.slice.toNat
      else (s.dropRx f 0x022).drained f.slice.toNat

/-- The staged frames of some ports are freed. -/
def State.freeStaging (s : State) (ps : List Nat) : State := s.freeFrames fun f => ps.contains f.port.toNat

/-- Recirculation buffers are emptied: the frames of those buses are lost (R464). -/
def State.dropRecirc (s : State) (which : Nat → Bool) : State :=
  let gone := s.frames.recirc.filter fun f => which f.slice.toNat
  gone.foldl (fun s f => s.pbLost f.slice.toNat)
    { s with frames := { s.frames with recirc := s.frames.recirc.filter fun f => !which f.slice.toNat } }

end Machine
end Sys2Proof
end

