-- ==== Sys2Proof/Machine/Power.lean ====
section
/-! DEFINITION. Power domains (12): votes, the steep table and entries, wakes, the regulator's budget, hints and power
capping. -/

namespace Sys2Proof
namespace Machine

/-- The domains a VOTE may name. -/
def allDomains : List Nat := (List.range 24).map (· + 1)

/-! ### What a domain keeps and loses (R362, R370, R399) -/

/-- R56, R362: the domain of the Postmaster unit that has been fenced off. -/
def State.fencedOff (s : State) (d : Nat) : Bool := (s.pm.alone == 1 && d == dPMB) || (s.pm.alone == 2 && d == dPMA)

/-- The pigeonholes are lost; the slots beside the journal are not, and their completions are written again with flags [1]
(R399, R404). -/
def State.losePigeonholes (s : State) : State :=
  let s := s.setJournal (s.pm.journal.map fun e =>
    if e.st = .completed && e.slot.isSome then { e with held := false, posting := false, replay := true } else e)
  let s := s.setInj (s.qs.inj.map fun e => if e.outcome.isSome then { e with held := false, posting := false, replay := true } else e)
  { s with qs := { s.qs with
      held := []
      tab := s.qs.tab.map fun kv => (kv.1, kv.2.map fun x =>
        { x with heldWrites := x.heldWrites.filter (fun e => e.owner.isNone), notice := x.notice.map fun c => { c with flags := c.flags ||| 0x02 } }) } }

/-- Completions and notices that have not reached their rings are written (R404). -/
def State.rewriteCompletions (s : State) : State :=
  let s := s.postEverything
  s.forEach (s.qs.tab.map (·.1)) fun s q => match s.queue q with
    | some x => if x.notice.isSome && !(s.qs.held.any fun h => h.2 == .notice (qid q)) then s.place x.cq (.notice (qid q)) else s
    | none => s

/-- Reads of submission entries under way or done are lost; Ennos reads the entries again. -/
def State.loseFetches (s : State) : State :=
  let other (r : Req) : Bool := match r.owner with | .entry _ _ => false | _ => true
  { s with
    qs := { s.qs with tab := s.qs.tab.map fun kv => (kv.1, kv.2.map fun x => { x with fetches := [], ready := [] }) }
    dma := { s.dma with reqs := s.dma.reqs.filter other, backlog := s.dma.backlog.filter other } }

/-- The parameters that live in HOST outside its caddy banks: those of the queues, the cascade and MACsec. The port's identity
and the counts since cold reset stay (log entry 44). -/
def State.hostLoses (s : State) : State :=
  let c := s.casc
  { s.losePigeonholes.loseFetches with
    casc := { self := c.self, successions := c.successions, a := { resends := c.a.resends }, b := { resends := c.b.resends },
              issued := c.issued.map fun x => { x with ended := some (x.ended.getD (Status.timeout.code, 0, 0)) } }
    sec := { s.sec with xpnW := 0x30, w := 0x1E, ports := [] } }

/-- REG keeps caddy 2, and caddy 3 or not; its other parameters return to reset. -/
def State.regLoses (s : State) : State :=
  let r := s.reg
  { s with
    reg := { r with learn := true, limit := 0x1000000, age := 0x05A0, share := 0xA0, window := 0, probes := [] }
    stats := { s.stats with vecEnable := false, vector := 0, cross := 0, crossSlice := 0 } }

/-- TIME keeps the timebase and the integrator in caddy 5, or, off, nothing but the power-up count, which AON holds. -/
def Time.loses (t : Time) (off : Bool) : Time :=
  { seconds := if off then 0 else t.seconds, sub := if off then 0 else t.sub, integ := if off then 0 else t.integ,
    stepped := if off then t.stepped - (t.seconds.toNat * 65536000000000 + t.sub / 16384 : Nat) else t.stepped,
    state := t.state, previous := t.previous, powerup := t.powerup, pipeTsQueue := t.pipeTsQueue, tsMissed := t.tsMissed,
    tcSkipped := t.tcSkipped, todBad := t.todBad, ppsBad := t.ppsBad, role := t.role, headId := t.headId,
    armedEpoch := t.armedEpoch, armedSnap := t.armedSnap }

/-- The ports that a logical slice owns, and the lanes it carries. -/
def portsOf (k : Nat) : List Nat := [4 * k, 4 * k + 1, 4 * k + 2, 4 * k + 3]

/-- What slice k holds in flight is dropped as a reset drops it (R401): staged frames, and what its ports have on their wires
and in transmit staging. -/
def State.sliceDrops (s : State) (k : Nat) : State :=
  let s := s.freeFrames fun f => (portsOf k).contains f.port.toNat || f.slice.toNat == k
  s.forEach (portsOf k) fun s p => (s.flushTx p).cutWire p

/-- Physical slice n loses its state: the rules, bindings, patterns, replica and epoch state of the logical slice it carries,
and the configuration of that slice's ports. Its lanes lose lock, which an 8-lane port of the other slice of the pair
notices. -/
def State.sliceLoses (s : State) (n : Nat) : State :=
  let s := s.setSliceP n {}
  match s.carried n with
  | none => s
  | some k =>
    let s := (s.sliceDrops k).dropRecirc (· == k)
    let s := s.dropLocks (portsOf k)
    let s := s.setSliceL k { gen := (s.sliceL k).gen, held0 := (s.sliceL k).held0, held1 := (s.sliceL k).held1 }
    let s := s.forEach (portsOf k) fun s p =>
      s.setPort p { gen := (s.port p).gen, xoff := (s.port p).xoff, spent := (s.port p).spent }
    s.forEach (portsOf k) fun s l => s.setLane l { signal := (s.lane l).signal }

/-- A domain's state outside its caddy banks goes as its reset is asserted. DMA's is replaced at its restore (R329); its channels' requests end
at once. -/
def State.domainLoses (s : State) (d : Nat) (into : RestSt) : State :=
  if d == dHOST then s.hostLoses
  else if d == dDMA then s.forEach (List.range 28) State.orphan
  else if d == dPMA || d == dPMB then
    if s.pmOn then s else { s with pm := { s.pm with interval := 0x03E8 }, cs := { s.cs with rate := 0x40 } }
  else if d == dSORTC then
    { s with sorter := { s.sorter with seed := 0xFFFFFFFF, depth := [] }, power := { s.power with shed := [] } }
  else if d == dREG then s.regLoses
  else if d == dTIME then
    if s.time.lowPower then s else s.setTimeUnit (s.time.loses (into == .off))
  else if 8 ≤ d && d ≤ 24 then s.sliceLoses (d - 8)
  else s

/-! ### Rails and the core PLL (R368, R369, R380, R484) -/

/-- R380: a domain on the CORE clock. -/
def coreDomain (d : Nat) : Bool := d != 0 && d != dTIME

/-- The domain is restoring. -/
def Domain.restoring (x : Domain) : Bool := match x.st with | .restoring _ _ => true | _ => false
/-- The domain is entering. -/
def Domain.isEntering (x : Domain) : Bool := match x.st with | .entering _ _ => true | _ => false

/-- R380: the CORE clock is needed. -/
def State.coreNeeded (s : State) : Bool :=
  allDomains.any fun d => coreDomain d && ((s.dom d).st == .on || (s.dom d).restoring)

/-- A resting domain starts its rail-up step, and requests its rail. -/
def State.startRail (s : State) (d : Nat) : State :=
  s.setDom d { s.dom d with st := .restoring .railUp ((s.dom d).st == .off), railGood := false, railWait := false }

/-- R365, R369: every resting domain that holds a vote starts its rail as soon as the domains it requires are on. The domain
of a fenced Postmaster unit stays off. -/
def State.startRails (s : State) : State :=
  s.forEach allDomains fun s d =>
    if (s.dom d).resting && 0 < s.votesOn d && !s.fencedOff d && (requires d).all s.isOn then s.startRail d else s

/-! ### Entry (R371) -/

/-- R247, R263: TIME stops at the first cycle of its entry, or goes on in low-power holdover. -/
def State.timeRests (s : State) (into : RestSt) : State :=
  let s := s.ppsLow
  let t := s.time
  if into = .retention && t.lpHold then
    let t := if t.state = .locked then t.enterHoldover else t
    s.setTimeUnit { t with lowPower := true }
  else s

/-- A domain that is on begins its entry: R361's write-back of caddy 3, the loss of what it does not keep, and the core PLL's
stop. -/
def State.beginEntry (s : State) (d : Nat) : State :=
  let x := s.dom d
  if x.st != .on then s
  else
    let s := if d == dTIME then s.timeRests x.rest else s
    let s := if d == dREG && x.rest != .retention then
        let s := s.writeBackAll
        { s with reg := { s.reg with cache := [] } }
      else s
    let s := s.setDom d { x with st := .entering 0 x.rest, entries := x.entries + 1 }
    let s := s.domainLoses d x.rest
    if s.coreNeeded then s else { s with power := { s.power with corePll := false } }

/-- The entry that R367 has kept back begins, unless a vote has come meanwhile. -/
def State.beginReleased (s : State) (d : Nat) : State :=
  let x := s.dom d
  if !x.leaving then s
  else
    let s := s.setDom d { x with leaving := false }
    if s.votesOn d = 0 then s.beginEntry d else s

/-- One AON cycle of an entry; the eighth ends it. PW_RAIL_REQ falls in cycle 7 (R484). A domain for which a vote has been
placed meanwhile is then restored (R365, R373). -/
def State.entryCycle (s : State) (d : Nat) : State :=
  let s := s.beginReleased d
  let x := s.dom d
  match x.st with
  | .entering c into =>
    let x := { x with railGood := x.railGood && decide (c < 6) }
    if c < 7 then s.setDom d { x with st := .entering (c + 1) into }
    else (s.setDom d { x with st := if into = .off then .off else .retention (into == .retention) }).startRails
  | _ => s

/-- DOMAIN_ENTRY: one AON cycle of the entry of domain d, the first of them for a domain that R367 has kept back. -/
def execDomainEntry (d : BitVec 5) (s : State) : Host.Outcome State Fault Refusal := .next (s.entryCycle d.toNat)

/-! ### Restore (R368 to R370) -/

/-- R329: every channel is HALTED with reason reset, and takes no further interest in its requests. -/
def State.haltChannels (s : State) : State :=
  let s := s.forEach (List.range 28) State.orphan
  let halted (x : Chan) : Chan :=
    { irqEnd := x.irqEnd, irqHalt := x.irqHalt, vector := x.vector, retries := x.retries, st := .halted, reason := 7,
      failed := x.failed }
  let s := { s with pm := { s.pm with background := s.pm.background.filter fun b => b.2.1 != 2 } }
  s.setDma { s.dma with chans := (List.range 32).map fun c => (c, halted (s.chan c)) }

/-- A domain is on (R370): what each restores, and the domains that waited for it start their rails. -/
def State.domainUp (s : State) (d : Nat) (fromOff : Bool) : State :=
  let x := s.dom d
  let s := s.setDom d { x with st := .on, railWait := false }
  let s :=
    if d == dHOST then
      let s := (s.setTop { s.top with pbRst := false }).releaseScl
      let s := s.sendWaiting.forEach (s.qs.tab.map (·.1)) fun s q => s.fetchBelow q
      if s.top.resetting == .none && s.top.mode != .cold then s.rewriteCompletions else s
    else if d == dDMA then
      let s := s.haltChannels
      s.setDma { s.dma with qshare := 0xC0, qretries := 3,
                            chans := s.dma.chans.map fun kv => (kv.1, { st := .halted, reason := 7, failed := kv.2.failed }) }
    else if d == dTIME then
      let t := s.time
      let t := if fromOff then (Time.loses t true).enter .unset
        else if t.lowPower then { t with lowPower := false, lastAt := none } else t.enter .unset
      let s := s.setTimeUnit t
      s.forEach allPorts fun s l => s.setLane l { s.lane l with rxValid := false, txValid := false, rxCal := 0, txCal := 0 }
    else if 8 ≤ d && d ≤ 24 then
      match s.carried (d - 8) with
      | some k => s.fillReplica k
      | none => s
    else s
  s.startRails

/-- The step after one of the steep table; none after the last. Only HOST, REG and TIME have a retention restore. -/
def nextRestore (d : Nat) : RestoreStep → Option RestoreStep
  | .railUp => some .clockStart
  | .clockStart => some .isolation
  | .isolation => some (if d == dHOST || d == dREG || d == dTIME then .retentionRestore else .resetRelease)
  | .retentionRestore => some .resetRelease
  | .resetRelease => none

/-- R484, R368: the rail-up step ends once its count has passed, the rail is good and the clock's PLL is locked. -/
def State.railEnds (s : State) (d : Nat) : State :=
  let x := s.dom d
  match x.st with
  | .restoring .railUp off =>
    if x.railWait && x.railGood && (!coreDomain d || s.power.corePll) then
      s.setDom d { x with st := .restoring .clockStart off, railWait := false }
    else s
  | _ => s

/-- The present step of a domain's restore has lasted its AON cycles. -/
def State.restoreStep (s : State) (d : Nat) : State :=
  let x := s.dom d
  match x.st with
  | .restoring .railUp _ => (s.setDom d { x with railWait := true }).railEnds d
  | .restoring st off => match nextRestore d st with
    | some n => s.setDom d { x with st := .restoring n off }
    | none => s.domainUp d off
  | _ => s

/-- DOMAIN_RESTORE_STEP. -/
def execDomainRestoreStep (d : BitVec 5) (s : State) : Host.Outcome State Fault Refusal := .next (s.restoreStep d.toNat)

/-- RAIL_GOOD: ignored while the rail is not requested (R484). -/
def execRailGood (d : BitVec 5) (s : State) : Host.Outcome State Fault Refusal :=
  let x := s.dom d.toNat
  .next (if x.resting || d = 0 || 24 < d.toNat then s else (s.setDom d.toNat { x with railGood := true }).railEnds d.toNat)

/-- CORE_PLL_LOCK: the relock that began with the first rail of a CORE domain ends. -/
def State.pllLocks (s : State) : State :=
  if !s.coreNeeded then s
  else ({ s with power := { s.power with corePll := true } }).forEach allDomains fun s d => s.railEnds d

/-- CORE_PLL_LOCK. -/
def execCorePllLock (s : State) : Host.Outcome State Fault Refusal := .next s.pllLocks

/-! ### VOTE (R363 to R365) -/

/-- R363: the codes of the clients. -/
def clientCode (c : Nat) : Bool :=
  c == 0 || (0x20 ≤ c && c ≤ 0x2F) || c == 0x40 || (0x60 ≤ c && c ≤ 0x7F) || c == 0x80 || c == 0xA0 || c == 0xC0

/-- R364: the domains that a VOTE or an UNVOTE names; none for a breach. -/
def votedDomains (i : Ins) (unvote : Bool) : Option (List Nat) :=
  let c := (fld i.a 0 8).toNat
  if fld i.a 8 24 != 0 || !(clientCode c || (unvote && c == 0xFF)) then none
  else if i.target = 0xFFFF then
    if bitOf i.b 0 || fld i.b 25 39 != 0 then none else some (allDomains.filter fun d => bitOf i.b d)
  else if i.b = 0 && 1 ≤ i.target.toNat && i.target.toNat ≤ 24 then some [i.target.toNat] else none

/-- The domains with those they require (R361). -/
def withRequired (ds : List Nat) : List Nat := allDomains.filter fun d => ds.contains d || ds.any fun x => (requires x).contains d

/-- A client's votes on some domains. -/
def State.placeVotes (s : State) (c : Nat) (ds : List Nat) : State :=
  s.setVotes c (ds.foldl (fun v d => setBit v d true) (s.votes c))

/-- The domains of a set, as VOTE's routine keeps them. -/
def domainSet (ds : List Nat) : BitVec 25 := ds.foldl (fun v d => setBit v d true) 0

/-- A step of VOTE, one microsecond after the last. -/
def stepVote (ds : BitVec 25) (s : State) : Ran :=
  if (allDomains.filter fun d => bitOf ds d).all s.isOn then .ok 0 0 s else .more (.vote ds) s.microPasses

/-- VOTE (R365). -/
def runVote (_ : Nat) (_ : BitVec 16) (i : Ins) (s : State) : Ran :=
  match votedDomains i false with
  | none => .bad .badOperand s
  | some ds => match ds.find? s.fencedOff with
    | some d => .done .refusedVote (BitVec.ofNat 64 (256 * d + 0x80)) 0 (s.setDom d { s.dom d with refusedBy := 0x80 })
    | none => stepVote (domainSet ds) ((s.placeVotes (fld i.a 0 8).toNat (withRequired ds)).startRails)

/-- VOTE. -/
def execVote (q : QId) (i : Ins) (s : State) : Host.Outcome State Fault Refusal := begins q 0x80 true i runVote s

/-! ### UNVOTE (R363 to R367, R378) -/

/-- R363: an entry other than `jid` has been accepted and not completed, or a doorbell lies ahead. -/
def State.hostBusy (s : State) (jid : Nat) : Bool :=
  (s.pm.journal.any fun e => e.id != jid && (match s.queue e.q with | some x => x.submits | none => false))
    || !s.qs.inj.isEmpty
    || s.qs.tab.any fun kv => match kv.2 with
        | some x => x.submits && x.tail != x.head | none => false

/-- R363: client c refuses to withdraw from domain d during the UNVOTE of entry `jid`. -/
def State.refuses (s : State) (jid c d : Nat) : Bool :=
  if c == 0 then (d == dHOST || d == dPMA || d == dPMB) && s.hostBusy jid
  else if 0x20 ≤ c && c ≤ 0x2F then
    let k := c - 0x20
    (d == dSLICE (s.carrier k) || d == dSORTC || d == dREG || d == dHOST)
      && (((portsOf k).any fun p => (s.port p).st != .down) || (s.sliceP (s.carrier k)).testing)
  else if c == 0x40 then
    (d == dREG || d == dDMA) && (s.reg.phase != .idle || s.reg.pending != 0 || !s.reg.probes.isEmpty)
  else if 0x60 ≤ c && c ≤ 0x7F then (d == dDMA || d == dHOST) && !(s.chan (c - 0x60)).isIdle
  else if c == 0x80 then
    (d == dPMA || d == dPMB || d == dHOST)
      && (s.pm.testing || s.pm.journal.any fun e => e.id != jid && e.started && e.st != .completed)
  else if c == 0xA0 then
    (d == dHOST || d == dTIME || d == dPMA || d == dPMB) && (s.time.role != 0 || s.casc.twin != .unbound)
  else if c == 0xC0 then (d == dHOST || d == dPMA || d == dPMB) && s.mon.isOpen
  else false

/-- The clients an UNVOTE's operand names, lowest code first, among those with a vote on domain d. -/
def State.holders (s : State) (c : Nat) (d : Nat) : List Nat :=
  (s.power.votes.filter fun kv => bitOf kv.2 d && (c == 0xFF || kv.1 == c)).map (·.1)

/-- R365: the first domain whose withdrawal would leave a client's vote on a domain that requires it. -/
def State.requirementBroken (s : State) (c : Nat) (ds : List Nat) : Option Nat :=
  ds.find? fun d => (s.holders c d).any fun k => allDomains.any fun x =>
    (requires x).contains d && bitOf (s.votes k) x && !ds.contains x

/-- R378: no domain but AON would stay on. -/
def State.allWouldSleep (s : State) (c : Nat) (ds : List Nat) : Bool :=
  allDomains.all fun d =>
    if (s.dom d).resting || (s.dom d).isEntering then s.votesOn d = 0
    else ds.contains d && (s.holders c d).length == s.votesOn d

/-- Withdraws the clients' votes on a domain in order: those withdrawn, and the client that refuses. -/
def State.withdrawFrom (jid d : Nat) : List Nat → List (Nat × Nat) → State → List (Nat × Nat) × Option Nat × State
  | [], done, s => (done, none, s)
  | k :: t, done, s =>
    if s.refuses jid k d then (done, some k, s)
    else State.withdrawFrom jid d t (done ++ [(k, d)]) (s.setVotes k (setBit (s.votes k) d false))

/-- The refusal of R366: votes are reinstated, and the domains that the UNVOTE has stopped are restored. -/
def unvoteRefused (jid : Nat) (stopped : List Nat) (withdrawn : List (Nat × Nat)) (k d : Nat) (s : State) : Ran :=
  let s := s.forEach withdrawn fun s kd => s.placeVotes kd.1 [kd.2]
  let s := { s with power := { s.power with deferred := s.power.deferred.filter fun x => x.2 != jid } }
  let s := (s.setDom d { s.dom d with refusedBy := BitVec.ofNat 8 k }).startRails
  if stopped.all s.isOn then .done .refusedVote (BitVec.ofNat 64 (256 * d + k)) 0 s
  else .wait (.unvoteRefused stopped (BitVec.ofNat 8 k) d) s

/-- A step of UNVOTE that waits for the restore of the domains it had stopped. -/
def stepUnvoteRefused (stopped : List Nat) (k : Byte) (d : Nat) (s : State) : Ran :=
  if stopped.all s.isOn then .done .refusedVote (BitVec.ofNat 64 (256 * d + k.toNat)) 0 s
  else .wait (.unvoteRefused stopped k d) s

/-- One pass of the loop of R366. It commits once the domain rests; a domain that is restoring enters once it is on. -/
def stepUnvote (jid : Nat) (i : Ins) (todo stopped : List Nat) (withdrawn : List (Nat × Nat)) (s : State) : Ran :=
  match todo with
  | [] => .ok 0 0 s
  | d :: rest =>
    let (withdrawn, refuser, s) := State.withdrawFrom jid d (s.holders (fld i.a 0 8).toNat d) withdrawn s
    match refuser with
    | some k => unvoteRefused jid stopped withdrawn k d s
    | none =>
      let alone := decide (s.votesOn d = 0)
      let late := d == dHOST || d == dPMA || d == dPMB
      let stops := alone && s.isOn d
      let s := if !stops then s else if late then
          { s with power := { s.power with deferred := s.power.deferred ++ [(d, jid)] } } else s.beginEntry d
      let stopped := if stops && !late then stopped ++ [d] else stopped
      let waits := alone && !late && ((s.dom d).isEntering || (s.dom d).restoring)
      if waits then .wait (.unvote (d :: rest) stopped withdrawn) s
      else if rest.isEmpty then .ok 0 0 s
      else .more (.unvote rest stopped withdrawn) s

/-- UNVOTE: step 0 checks and changes nothing (R365, R366, R378). -/
def runUnvote (_ : Nat) (_ : BitVec 16) (i : Ins) (s : State) : Ran :=
  match votedDomains i true with
  | none => .bad .badOperand s
  | some ds =>
    let ds := ds.reverse
    let c := (fld i.a 0 8).toNat
    match s.requirementBroken c ds with
    | some d => .done .refusedVote (BitVec.ofNat 64 (256 * d + 0xFE)) 0 s
    | none =>
      if s.allWouldSleep c ds && decide (Config.lowPowerLimit < s.lowPowerTotal) then
        .bad .budgetExceeded { s with power := { s.power with budgetRefused := BitVec.ofNat 16 s.lowPowerTotal } }
      else .more (.unvote ds [] []) s

/-- UNVOTE. -/
def execUnvote (q : QId) (i : Ins) (s : State) : Host.Outcome State Fault Refusal := begins q 0x81 true i runUnvote s

/-! ### Wakes (R372 to R375) -/

/-- The sleeping domains a wake would restore: those of the wake set and those they require, but for those that a vote already restores
(log entry 77). -/
def State.wakeable (s : State) : List Nat :=
  (withRequired (allDomains.filter fun d => bitOf s.power.wakeCfg d)).filter fun d =>
    ((s.dom d).resting || (s.dom d).isEntering) && s.votesOn d = 0 && !s.fencedOff d

/-- R371, R373: a domain of the wake set is in its entry window. -/
def State.entryWindow (s : State) : Bool :=
  allDomains.any fun d => bitOf s.power.wakeCfg d && (match (s.dom d).st with | .entering c _ => decide (c < 6) | _ => false)

/-- R372: the enable of a source. -/
def State.wakeEnabled (s : State) (source : BitVec 4) : Bool :=
  match source.toNat with
  | 1 => bitOf s.power.wakeCfg 31 | 2 => bitOf s.power.wakeCfg 30 | 3 => bitOf s.power.wakeCfg 29
  | 4 => bitOf s.power.wakeCfg 29 | 5 => bitOf s.power.wakeCfg 28 | 6 => bitOf s.power.wakeCfg 27 | _ => false

/-- A wake source that holds: its domains get votes of client 0x00 and restore, those that are entering as soon as their
entry has ended. In the window an edge is lost, and a level waits. -/
def State.wake (s : State) (source : BitVec 4) (detail : BitVec 16) : State :=
  let ds := s.wakeable
  if !s.wakeEnabled source || s.entryWindow || ds.isEmpty then s
  else (({ s with power := { s.power with wakeSource := source, wakeDetail := detail } }).placeVotes 0 ds).startRails

/-- The condition of a level source (R372); an edge source is its event. -/
def State.wakeHolds (s : State) (source : BitVec 4) (detail : BitVec 16) : Bool :=
  match source.toNat with
  | 1 => match s.queue detail.toNat with | some x => x.submits && x.tail != x.head | none => false
  | 2 => decide (detail.toNat < 64) && bitOf s.power.laneWake detail.toNat && (s.lane detail.toNat).signal
  | _ => true

/-- WAKE. -/
def execWake (source : BitVec 4) (detail : BitVec 16) (s : State) : Host.Outcome State Fault Refusal :=
  .next (if s.wakeHolds source detail then s.wake source detail else s)

/-! ### Capping (R381 to R386) -/

/-- The current estimate of a hint's class, mW. -/
def Power.classEstimate (p : Power) (kind : Byte) : Nat :=
  match kind.toNat with
  | 1 => p.estMemory + p.estCompute | 2 => p.estMemory | 3 => p.estMemory | 4 => p.estLinks
  | _ => p.estLinks + p.estMemory + p.estCompute

/-- R386: H. -/
def Power.withReserve (p : Power) : Power :=
  { p with reserve := (p.hints.map fun h => 10 * h.expected.toNat - p.classEstimate h.kind).sum }

/-- The outstanding hints change. -/
def State.setHints (s : State) (l : List Hint) : State :=
  let p := { s.power with hints := l }
  s.setPower p.withReserve

/-- HINT of a kind other than 0x00. -/
def runHint (_ : Nat) (_ : BitVec 16) (i : Ins) (s : State) : Ran :=
  let kind := fld i.a 0 8
  if kind = 0 then .ok 0 0 (s.setHints [])
  else if 5 < kind.toNat || i.b = 0 || 10000000 < i.b.toNat || 8 ≤ s.power.hints.length then .bad .badOperand s
  else .ok 0 0 (s.setHints (s.power.hints ++ [{ kind := kind, expected := fld i.a 16 16, duration := i.b.toNat, since := s.clock }]))

/-- HINT. -/
def execHint (q : QId) (i : Ins) (s : State) : Host.Outcome State Fault Refusal :=
  begins q 0x82 (fld i.a 0 8 != 0) i runHint s

/-- HINT of kind 0x00 cancels every hint. -/
def runHintCancel (_ : Nat) (_ : BitVec 16) (_ : Ins) (s : State) : Ran :=
  .ok 0 0 (s.setHints [])

/-- HINT_CANCEL. -/
def execHintCancel (q : QId) (i : Ins) (s : State) : Host.Outcome State Fault Refusal :=
  begins q 0x82 (fld i.a 0 8 == 0) i runHintCancel s

/-- HINT_EXPIRE: the duration of the n-th outstanding hint has passed. -/
def execHintExpire (n : Nat) (s : State) : Host.Outcome State Fault Refusal :=
  .next (match s.power.hints[n]? with
    | some h => if s.usPassed h.duration h.since then s.setHints (s.power.hints.eraseIdx n) else s
    | none => s)

/-- CAPSET (R381, R393). -/
def runCapset (_ : Nat) (_ : BitVec 16) (i : Ins) (s : State) : Ran :=
  if i.a.toNat < 12000 || 46000 < i.a.toNat then .bad .badOperand s
  else
    let s := s.setPower { s.power with soft := i.a.setWidth 16 }
    .ok (BitVec.ofNat 64 s.power.effectiveCap) 0 s

/-- CAPSET. -/
def execCapset (q : QId) (i : Ins) (s : State) : Host.Outcome State Fault Refusal := begins q 0x83 true i runCapset s

/-- CAP_INPUT: one sample of PW_CAP in an AON cycle; a value sampled in 2 consecutive cycles is taken, at most 46,000
(R485). -/
def execCapInput (v : BitVec 16) (s : State) : Host.Outcome State Fault Refusal :=
  let p := s.power
  .next (s.setPower { p with capSample := v, capIn := if v = p.capSample then (if v.toNat < 46000 then v else 46000) else p.capIn })

/-- R381: the gain after a measurement; without a positive mean the quotient is a free value. -/
def State.calibrated (s : State) (m : BitVec 16) (mean : Nat) : BitVec 16 × State :=
  let clamp (x : Int) : BitVec 16 := BitVec.ofInt 16 (max 0x0800 (min 0x2000 x))
  let g : Int := s.power.gain.toNat
  if mean = 0 then
    let (x, s) := s.takeFree 16
    (clamp x.toNat, s)
  else (clamp (g + freeDiv (g * ((m.toNat : Int) - mean)) (8 * mean)), s)

/-- POWER_MEASUREMENT: the measurement M against the mean of the 100 estimates before it. -/
def State.measure (s : State) (m : BitVec 16) (mean : Nat) : State :=
  let (g, s) := s.calibrated m mean
  s.setPower { s.power with gain := g, measured := m, measStale := false }

/-- POWER_MEASUREMENT. -/
def execPowerMeasurement (m : BitVec 16) (mean : Nat) (s : State) : Host.Outcome State Fault Refusal := .next (s.measure m mean)

/-- MEASUREMENT_STALE. -/
def execMeasurementStale (s : State) : Host.Outcome State Fault Refusal := .next (s.setPower { s.power with measStale := true })

/-- R383: the slice pair to lower next: that of the highest predicted power, the highest-numbered on a tie. -/
def State.pairToShed (s : State) (o : CapObs) : Option Nat :=
  let power (j : Nat) : Nat := (o.pairPower.getD j []).getD (Tab.get 0 s.sorter.depth j).toNat 0
  (List.range 8).foldl (fun best j =>
    if 4 ≤ (Tab.get 0 s.sorter.depth j).toNat then best
    else match best with
      | some b => if power b ≤ power j then some j else best
      | none => some j) none

/-- The depth code of a pair (R201). -/
def State.setDepth (s : State) (j : Nat) (c : BitVec 3) : State :=
  { s with sorter := { s.sorter with depth := Tab.put 0 s.sorter.depth j c } }

/-- Every rung is shed. -/
def State.allShed (s : State) : Bool :=
  ((List.range 8).all fun j => decide (4 ≤ (Tab.get 0 s.sorter.depth j).toNat)) && s.power.pmRate == 2 && s.power.m == 1

/-- One rung down the ladder of R383. -/
def State.shedRung (s : State) (o : CapObs) : State :=
  match s.pairToShed o with
  | some j =>
    (s.setDepth j (Tab.get 0 s.sorter.depth j + 1)).setPower { s.power with shed := j :: s.power.shed }
  | none =>
    if s.power.pmRate != 2 then s.setPower { s.power with pmRate := s.power.pmRate + 1 }
    else if 1 < s.power.m.toNat then s.setPower { s.power with m := s.power.m - 1 }
    else s

/-- One rung up, in the reverse order. -/
def State.restoreRung (s : State) : State :=
  if s.power.m != 0xF then s.setPower { s.power with m := s.power.m + 1 }
  else if s.power.pmRate != 0 then s.setPower { s.power with pmRate := s.power.pmRate - 1 }
  else match s.power.shed with
    | j :: t => (s.setDepth j (Tab.get 0 s.sorter.depth j - 1)).setPower { s.power with shed := t }
    | [] => s

/-- Rungs shed one after another. -/
def State.shedRungs (o : CapObs) : Nat → State → State
  | 0, s => s
  | n + 1, s => State.shedRungs o n (s.shedRung o)

/-- R385: the cap is unattainable. -/
def State.capFails (s : State) : State :=
  if s.power.capFail then s
  else
    let s := s.setPower { s.power with capFail := true }
    if s.power.capVecEnable then s.fireVector s.power.capVector.toNat else s

/-- CAP_EVALUATION: the estimate of this microsecond, and the ladder (R381, R384, R385). A rung restores after 100
evaluations in a row with headroom for it. -/
def State.capEvaluate (s : State) (o : CapObs) : State :=
  let e := min 65535 (freeDiv (o.activity * s.power.gain.toNat) 4096).toNat
  let p := { s.power with estimate := BitVec.ofNat 16 e, estLinks := o.links, estMemory := o.memory, estCompute := o.compute }
  let s := s.setPower p.withReserve
  let load := e + s.power.reserve
  let cap := s.power.effectiveCap
  if cap < load then
    let s := s.setPower { s.power with calm := 0, under := 0 }
    if s.allShed then s.capFails
    -- the rungs that are left number at most 48
    else State.shedRungs o (min 48 o.rungsNeeded) s
  else
    let under := min 100 (s.power.under + 1)
    let calm := if 100 * (load + o.rungCost) ≤ 97 * cap then s.power.calm + 1 else 0
    let s := s.setPower { s.power with under := under, capFail := s.power.capFail && decide (under < 100),
                                       calm := if calm < 100 then calm else 0 }
    if calm < 100 then s else s.restoreRung

/-- CAP_EVALUATION. -/
def execCapEvaluation (o : CapObs) (s : State) : Host.Outcome State Fault Refusal := .next (s.capEvaluate o)

end Machine
end Sys2Proof
end

