-- ==== Sys2Proof/Machine/Postmark.lean ====
section
/-! DEFINITION. Postmark (08): TIMESET, TIMEADJ, TIMESTEP, the PPS and time-of-day inputs, the PPS output, holdover, alarms, and
time on a cascade. -/

namespace Sys2Proof
namespace Machine

/-! ### Alarms (R268) and steps (R250) -/

/-- One second in units of 2^-16 ns. -/
def second16 : Nat := 65536000000000

/-- An armed alarm whose instant the timebase has reached fires. -/
def State.alarmDue (s : State) (n : BitVec 1) : State :=
  let t := s.time
  let armed := if n = 0 then t.armed0 else t.armed1
  let at_ := if n = 0 then t.alarm0 else t.alarm1
  if s.timeRuns && armed && decide (s.instant16 at_ ≤ s.now16) then
    let t := if n = 0 then { t with armed0 := false, fired0 := true } else { t with armed1 := false, fired1 := true }
    ((s.setTimeUnit t).fireVector t.alarmVector.toNat).wake (if n = 0 then 3 else 4) 0
  else s

/-- ALARM_FIRE. -/
def execAlarmFire (n : BitVec 1) (s : State) : Host.Outcome State Fault Refusal := .next (s.alarmDue n)

/-- R250: a step has passed some instants, which fire now. -/
def State.afterStep (s : State) : State := (((s.fireDue false).fireDue true).alarmDue 0).alarmDue 1

/-- A follower of a cascade (R266). -/
def Time.follows (t : Time) : Bool := bitOf t.role 1

/-- The present time in units of 2^-30 ns since second 0. -/
def State.now30 (s : State) : Nat := s.time.seconds.toNat * 1073741824000000000 + s.time.sub

/-- The head tells every other member its time and state. -/
def State.tellTime (s : State) (step : Bool) : State :=
  if s.time.role = 1 then s.sendFlit (.time s.now30 s.time.state.code step 0) (setBit s.casc.present s.casc.self.toNat false) else s

/-! ### TIMESET, TIMEADJ, TIMESTEP -/

/-- TIMESET (R247, R261, R266). -/
def runTimeset (_ : Nat) (_ : BitVec 16) (i : Ins) (s : State) : Ran :=
  let seconds : BitVec 48 := fld i.e0 46 48
  let ns := (fld i.e0 16 30).toNat
  if 1000000000 ≤ ns || s.time.follows then .bad .badOperand s
  else if !s.isOn dTIME then .bad .targetAsleep s
  else
    let s := (s.stepTo (seconds.toNat * 1073741824000000000 + ns * 1073741824 + (fld i.e0 0 16).toNat * 16384)).freshTau
    let s := s.setTimeUnit (s.time.enter .free)
    .ok (z64 seconds) 0 (s.tellTime true).afterStep

/-- TIMESET. -/
def execTimeset (q : QId) (i : Ins) (s : State) : Host.Outcome State Fault Refusal := begins q 0x50 true i runTimeset s

/-- TIMEADJ (R260, R261). -/
def runTimeadj (_ : Nat) (_ : BitVec 16) (i : Ins) (s : State) : Ran :=
  if s.time.source ≠ 1 || s.time.follows || s.time.state = .unset then .bad .badOperand s
  else if !s.isOn dTIME then .bad .targetAsleep s
  else
    let s := s.acceptOffset i.b.toInt
    .ok (z64 s.time.inc) 0 s

/-- TIMEADJ. -/
def execTimeadj (q : QId) (i : Ins) (s : State) : Host.Outcome State Fault Refusal := begins q 0x51 true i runTimeadj s

/-- TIMESTEP (R247, R510). -/
def runTimestep (_ : Nat) (_ : BitVec 16) (i : Ins) (s : State) : Ran :=
  let t : Int := s.now30 + i.b.toInt * 16384
  if s.time.follows || t < 0 || 2 ^ 48 * 1073741824000000000 ≤ t then .bad .badOperand s
  else if !s.isOn dTIME then .bad .targetAsleep s
  else
    let s := (s.stepTo t.toNat).freshTau
    let s := if s.time.state = .locked || s.time.state = .holdover then s.setTimeUnit (s.time.enter .free) else s
    .ok (z64 s.time.seconds) 0 (s.tellTime true).afterStep

/-- TIMESTEP. -/
def execTimestep (q : QId) (i : Ins) (s : State) : Host.Outcome State Fault Refusal := begins q 0x52 true i runTimestep s

/-! ### PPS and time of day (R264, R265) -/

/-- The offset of an edge from the nearest whole second, units of 2^-16 ns. -/
def edgeOffset (t : Int) : Int :=
  let n := t % second16
  if n < second16 / 2 then n else n - second16

/-- The edge against the one before: sooner than 999 ms, or later than 1,001 ms. -/
def Time.edgeBad (t : Time) (at_ : Int) : Bool :=
  match t.lastEdge with
  | none => false
  | some e => decide (at_ - e < 999 * 65536000000) || decide (1001 * 65536000000 < at_ - e)

/-- A waiting time-of-day message meets its edge. -/
def State.takeTod (s : State) (at_ : Int) : State :=
  match s.time.tod with
  | none => s
  | some sec =>
    let theta := edgeOffset at_
    let s := s.setTimeUnit { s.time with tod := none }
    if (sec.toNat : Int) * second16 = at_ - theta then s
    else if s.time.todSet && (s.time.state = .unset || s.time.state = .free) then
      let now : Int := s.now16
      let t := (sec.toNat : Int) * second16 + theta + (now - at_)
      let s := s.stepTo (t * 16384 + s.time.sub % 16384).toNat
      (s.setTimeUnit (s.time.enter .free)).afterStep
    else s.setTimeUnit { s.time with todBad := satInc s.time.todBad }

/-- PPS_EDGE: a rising edge, `phase` units of 0.156 ns into the present TIME cycle. -/
def State.ppsIn (s : State) (phase : Nat) : State :=
  let t := s.time
  if !s.isOn dTIME || !t.inEn then s
  else
    let at_ : Int := s.now16 + phase * 10240 - t.inDelay.toInt * 4096
    if t.state = .unset then s.takeTod at_
    else if t.edgeBad at_ then s.setTimeUnit { t with ppsBad := satInc t.ppsBad }
    else
      let s := s.setTimeUnit { t with lastEdge := some at_ }
      let s := if t.source = 2 && !t.follows then s.acceptOffset (edgeOffset at_) else s
      s.takeTod at_

/-- PPS_EDGE. -/
def execPpsEdge (phase : BitVec 3) (s : State) : Host.Outcome State Fault Refusal := .next (s.ppsIn phase.toNat)

/-- TOD_MESSAGE: ten bytes, and whether they ended in time. -/
def State.todIn (s : State) (b : List Byte) (inTime : Bool) : State :=
  let t := s.time
  if !s.isOn dTIME || !t.todEn || b.length ≠ 10 || byteAt b 0 ≠ 0xA5 || byteAt b 1 ≠ 0x5A then s
  else if inTime && b.sum = 0 && bitOf (byteAt b 8) 0 then
    s.setTimeUnit { t with tod := some (BitVec.ofNat 48 (beNat (slice b 2 6))) }
  else s.setTimeUnit { t with todBad := satInc t.todBad }

/-- TOD_MESSAGE. -/
def execTodMessage (bytes : List Byte) (inTime : Bool) (s : State) : Host.Outcome State Fault Refusal :=
  .next (s.todIn bytes inTime)

/-- R265, R275, R276: the level of TM_PPS_OUT at the present time: high from out_adv before each whole second for out_width, each edge on the
nearest edge of the TIME clock. -/
def State.ppsLevel (s : State) : Bool :=
  s.ppsAllowed && decide ((s.now16 + s.time.outAdv.toNat * 4096 + 40960) % second16 < s.time.outWidth.toNat * 655360000)

/-- PPS_OUTPUT: the pin rises, or falls, where its level is due to be so. -/
def State.ppsDrive (s : State) (rise : Bool) : State :=
  if s.ppsLevel != rise || s.time.ppsOut == rise then s
  else (s.setTimeUnit { s.time with ppsOut := rise }).emit (.pps rise)

/-- PPS_OUTPUT. -/
def execPpsOutput (rise : Bool) (s : State) : Host.Outcome State Fault Refusal := .next (s.ppsDrive rise)

/-- HOLDOVER_TIMEOUT: hold_ms have passed since the last accepted offset (R247, R273). -/
def execHoldoverTimeout (s : State) : Host.Outcome State Fault Refusal :=
  .next (if s.isOn dTIME && s.time.state = .locked && s.msPassed s.time.holdMs.toNat s.time.lastTick then s.setTimeUnit s.time.enterHoldover else s)

/-! ### Cascade time (R266, R267) -/

/-- R247: what a follower's state is, from its head's and its alignment. One that has lost a head keeps HOLDOVER until it is
aligned to the next (R267). -/
def Time.followState (t : Time) : Time :=
  if t.headState = .unset then t.enter .unset
  else if t.aligned then (if t.headState = .holdover then t.enter .holdover else t.enter t.headState)
  else if t.role = 3 then t
  else t.enter .free

/-- The signed offset and the delay of `time.casc`, in units of 2^-4 ns; an offset beyond the field is a free value. -/
def State.cascField (s : State) (offset : Int) : BitVec 11 × State :=
  let x := freeDiv offset 4096
  if -1024 ≤ x && x < 1024 then (BitVec.ofInt 11 x, s) else s.takeFree 11

/-- CASCADE_TIME_EXCHANGE: a follower has measured its offset to the head and the round trip, units of 2^-16 ns. The first one
after it was alone or head steps it to the head's time. -/
def State.timeExchange (s : State) (offset : Int) (roundTrip : Nat) : State :=
  let others := setBit s.casc.present s.casc.self.toNat false
  if !s.isOn dTIME || !s.isOn dHOST || s.isHead || !bitOf others s.casc.head.toNat then s
  else
    let joins := !s.time.joined || !s.time.follows
    let (f, s) := s.cascField offset
    let s := s.setTimeUnit { s.time with
      headId := s.casc.head, headOffset := f, headDelay := BitVec.ofInt 16 (freeDiv roundTrip 8192) }
    if joins then
      let s := s.stepTo ((s.now30 : Int) - offset * 16384).toNat
      let s := s.setTimeUnit { s.time with role := 2, joined := true, aligned := false, alignedRow := 0, lastAt := none }
      ((s.setTimeUnit s.time.followState).ppsSettle).afterStep
    else
      let t := s.time.servoStep Config.followerKp Config.followerKi offset s.now16
      let row := if offset.natAbs ≤ 65536 then t.alignedRow + 1 else 0
      let t := { t with alignedRow := row, aligned := t.aligned || decide (16 ≤ row), lastTick := s.clock }
      let t := if t.aligned then { t with role := 2 } else t
      (s.setTimeUnit t.followState).ppsSettle

/-- CASCADE_TIME_EXCHANGE. -/
def execCascadeTimeExchange (offset : Int) (roundTrip : Nat) (s : State) : Host.Outcome State Fault Refusal :=
  .next (s.timeExchange offset roundTrip)

/-- A time flit of the head: its state, and its step, which every follower takes: to the head's time at the flit's stamp, with the residence times
on its way (R479) and the one-way delay that this member last measured, in 2^-4 ns (log entry 137). -/
def State.headTime (s : State) (now : Nat) (st : TimeSt) (step : Bool) (correction : Nat) : State :=
  let s := s.setTimeUnit { s.time with headState := st }
  if !s.isOn dTIME || !s.time.follows then s
  else
    let s := if step then ((s.stepTo (now + correction * 2 ^ 14 + s.time.headDelay.toNat * 2 ^ 26)).freshTau).afterStep else s
    (s.setTimeUnit s.time.followState).ppsSettle

/-- R267, R281: a follower has lost its head: it holds over, unless it is UNSET. -/
def State.timeHeadLost (s : State) : State :=
  let t := { s.time with aligned := false, alignedRow := 0 }
  if !t.follows then s
  else s.setTimeUnit (if t.state = .unset then { t with role := 2 } else { t with role := 3 }.enterHoldover)

end Machine
end Sys2Proof
end

