-- ==== Sys2Proof/Machine/TableWrite.lean ====
section
/-! DEFINITION. The instructions that write a slice's tables: RULEWR, BINDWR and PATTWR (R68, R174, R185, R190, R196, R508), and
the reload of a replica word (R353). -/

namespace Sys2Proof
namespace Machine

/-! ### The shared routine -/

/-- A table as its instruction writes it. -/
structure TableKind where
  /-- Entries of the table, and entries of one step. -/
  size : Nat
  batch : Nat
  /-- Bytes of one image. -/
  bytes : Nat
  /-- First entry and count in operand A. -/
  first : Ins → Nat
  count : Ins → Nat
  /-- An image is written into an entry of a slice. -/
  put : SliceL → Nat → List Byte → SliceL
  /-- The routine of some slices after a number of entries. -/
  next : List Nat → Nat → Routine

/-- R508: the slices that the instruction writes. -/
def State.tableSlices (s : State) (target : BitVec 16) : List Nat :=
  if target = 0xFFFF then allSlices.filter s.sliceOn else [target.toNat]

/-- The images of a step, entry after entry, on one slice. -/
def TableKind.putAll (t : TableKind) (x : SliceL) (n : Nat) (bs : List Byte) : Nat → SliceL
  | 0 => x
  | k + 1 => t.put (t.putAll x n bs k) (n + k) (slice bs (t.bytes * k) t.bytes)

/-- The images of a step on every slice that is on. -/
def TableKind.write (t : TableKind) (ks : List Nat) (n m : Nat) (bs : List Byte) (s : State) : State :=
  s.forEach (ks.filter s.sliceOn) fun s k => s.setSliceL k (t.putAll (s.sliceL k) n bs m)

/-- A step after `done` entries. A slice that has fallen asleep is passed over; with none left on the instruction ends. -/
def TableKind.step (t : TableKind) (jid : Nat) (i : Ins) (ks : List Nat) (done : Nat) (s : State) : Ran :=
  let m := min t.batch (t.count i - done)
  if ks.all fun k => !s.sliceOn k then .done .targetAsleep (BitVec.ofNat 64 done) 0 s
  else match s.fetchHost jid (i.b.setWidth 57 + BitVec.ofNat 57 (t.bytes * done)) (t.bytes * m) with
    | .wait s => .wait (t.next ks done) s
    | .failed at_ s => .done .dmaBusError (BitVec.ofNat 64 done) (z64 at_) s
    | .data bs s =>
      let s := t.write ks (t.first i + done) m bs s
      if t.count i ≤ done + m then .ok (BitVec.ofNat 64 (t.count i)) 0 s else .more (t.next ks (done + m)) s

/-- The checks before the first step. -/
def TableKind.check (t : TableKind) (i : Ins) (s : State) : Option Status :=
  if (i.target != 0xFFFF && 16 ≤ i.target.toNat) || t.count i = 0 || t.size < t.first i + t.count i || !hostAddrOk i.b 64 then
    some .badOperand
  else if (s.tableSlices i.target).all fun k => !s.sliceOn k then some .targetAsleep
  else none

/-! ### RULEWR -/

/-- RULEWR writes the bank that is not current. An entry that is written acts again (R406). -/
def putRule (x : SliceL) (n : Nat) (b : List Byte) : SliceL :=
  let r := ruleOfImage b
  let x := { x with badEntries := x.badEntries.filter fun e => e != (5, !x.current, n) && e != (6, !x.current, n) }
  if x.current then { x with bank0 := Tab.put {} x.bank0 n r } else { x with bank1 := Tab.put {} x.bank1 n r }

def rules : TableKind :=
  { size := 4096, batch := 64, bytes := 128, first := fun i => (fld i.a 0 12).toNat, count := fun i => (fld i.a 12 13).toNat,
    put := putRule, next := Routine.rulewr }

/-- A RULEWR to slice k, other than the entry `jid`, has started and not completed. -/
def State.otherRulewr (s : State) (jid k : Nat) : Bool :=
  s.pm.journal.any fun e => e.id != jid && match e.routine with
    | some (.rulewr ks _) => ks.contains k
    | _ => false

/-- A RULEWR ends on its slices (R196, R202). -/
def State.rulewrEnds (s : State) (jid : Nat) (ks : List Nat) : State :=
  (s.forEach ks fun s k => s.setSliceL k { s.sliceL k with writing := s.otherRulewr jid k }).readiness

/-- A RULEWR's answer: its end lets a postponed EPOCH go on. -/
def rulewrTail (jid : Nat) (ks : List Nat) : Ran → Ran
  | .done st a b s => .done st a b (s.rulewrEnds jid ks)
  | r => r

/-- A step of RULEWR: before its first one it waits for the drain of the banks it writes (R68, R196). -/
def stepRulewr (jid : Nat) (i : Ins) (ks : List Nat) (done : Nat) (s : State) : Ran :=
  if done = 0 && ks.any fun k => s.sliceOn k && (s.sliceL k).draining then .more (.rulewr ks 0) s.microPasses
  else rulewrTail jid ks (rules.step jid i ks done s)

/-- RULEWR. -/
def runRulewr (jid : Nat) (_ : BitVec 16) (i : Ins) (s : State) : Ran :=
  match rules.check i s with
  | some st => .bad st s
  | none =>
    let ks := s.tableSlices i.target
    stepRulewr jid i ks 0 (s.forEach ks fun s k => s.setSliceL k { s.sliceL k with writing := true })

/-- RULEWR. -/
def execRulewr (q : QId) (i : Ins) (s : State) : Host.Outcome State Fault Refusal := begins q 0x30 true i runRulewr s

/-! ### BINDWR and PATTWR -/

/-- A binding. -/
def putBinding (x : SliceL) (n : Nat) (b : List Byte) : SliceL :=
  { x with bindings := Tab.put 0 x.bindings n (bindingOfImage b), badEntries := x.badEntries.filter (· != (7, false, n)) }

def bindings : TableKind :=
  { size := 8192, batch := 64, bytes := 64, first := fun i => (fld i.a 0 13).toNat, count := fun i => (fld i.a 13 14).toNat,
    put := putBinding, next := Routine.bindwr }

/-- BINDWR. -/
def runBindwr (jid : Nat) (_ : BitVec 16) (i : Ins) (s : State) : Ran :=
  match bindings.check i s with
  | some st => .bad st s
  | none => bindings.step jid i (s.tableSlices i.target) 0 s

/-- BINDWR. -/
def execBindwr (q : QId) (i : Ins) (s : State) : Host.Outcome State Fault Refusal := begins q 0x32 true i runBindwr s

/-- A pattern. -/
def putPattern (x : SliceL) (n : Nat) (b : List Byte) : SliceL :=
  { x with patterns := Tab.put {} x.patterns n (patternOfImage b), badEntries := x.badEntries.filter (· != (8, false, n)) }

def patterns : TableKind :=
  { size := 512, batch := 16, bytes := 128, first := fun i => (fld i.a 0 9).toNat, count := fun i => (fld i.a 9 10).toNat,
    put := putPattern, next := Routine.pattwr }

/-- PATTWR. -/
def runPattwr (jid : Nat) (_ : BitVec 16) (i : Ins) (s : State) : Ran :=
  match patterns.check i s with
  | some st => .bad st s
  | none => patterns.step jid i (s.tableSlices i.target) 0 s

/-- PATTWR. -/
def execPattwr (q : QId) (i : Ins) (s : State) : Host.Outcome State Fault Refusal := begins q 0x33 true i runPattwr s

/-! ### REPLICA_RELOAD -/

/-- A replica word is loaded from the visible control store, and counted (R353, R354, R358). -/
def State.reloadReplica (s : State) (k w : Nat) : State :=
  let x := s.sliceL k
  (s.setSliceL k { x with replica := Tab.put 0 x.replica w (s.cs.word w), badReplica := x.badReplica.filter (· != w) }).setCs
    { s.cs with parityReplica := satInc s.cs.parityReplica }

/-- REPLICA_RELOAD: the slice reloads a replica word that has a parity error. While the master word has an error of its own, that one is
reloaded first. -/
def execReplicaReload (k : BitVec 4) (word : BitVec 16) (s : State) : Host.Outcome State Fault Refusal :=
  .next (if s.sliceOn k.toNat && (s.sliceL k.toNat).badReplica.contains word.toNat && !s.cs.badWords.contains word.toNat then
      s.reloadReplica k.toNat word.toNat
    else s)

end Machine
end Sys2Proof
end

