-- ==== Sys2Proof/Machine/Faults.lean ====
section
/-! DEFINITION. Machine checks and self-test (R54 to R56, R413), unrecoverable faults and QUARANTINE (R424, R425, R29), slice
resets and faults (R399, R406), internal channel faults (R407) and the Postmaster watchdog. -/

namespace Sys2Proof
namespace Machine

/-! ### Unrecoverable faults (R424 to R426, R29) -/

/-- Ports enter QUARANTINED, and frames are handled under R401: those that meet `which`. -/
def State.quarantinePorts (s : State) (which : Nat → Bool) : State :=
  let ps := s.configuredPorts.filter which
  (s.freeStaging ps).forEach ps fun s p => s.setLink p .quarantined

/-- R417, R67: a member that leaves SERVICE and ADOPTED is no longer waited for. The other members learn it from its beats. -/
def State.leftService (s : State) : State := if s.isHead then s.headLose s.casc.self else s

/-- R425. -/
def State.enterQuarantine (s : State) : State :=
  ((s.enterMode .quarantine 0x03).quarantinePorts fun _ => true).leftService

/-- `fault.status` records an event (R29, R424). -/
def State.recordFault (s : State) (cause unit : Byte) : State :=
  s.setTop { s.top with faultValid := true, faultCause := cause, faultUnit := unit, faultCount := satInc s.top.faultCount }

/-- R28, R29, R424: an unrecoverable fault event at a commit point. A bound instance whose Postmaster pair has failed (causes 0x01 and 0x02)
is adopted by its twin, and executes nothing until then; an adopted one stays so, since its datapath runs. In QUARANTINE nothing but the count
of `fault.status` changes, which keeps the event that led there: R29 records the event and excepts the count alone (log entry 120). -/
def State.takeFault (s : State) (cause unit : Byte) : State :=
  match s.top.mode with
  | .cold => let s := s.recordFault cause unit; s.setTop { s.top with coldBar := true }
  | .quarantine => s.setTop { s.top with faultCount := satInc s.top.faultCount }
  | .maintenance =>
    let s := (s.recordFault cause unit).quarantinePorts fun p => (s.port p).st != .down
    s.setTop { s.top with faultHold := true }
  | .service =>
    let s := s.recordFault cause unit
    if s.casc.twin = .bound && (cause = 1 || cause = 2) then { s with pm := { s.pm with fit := false } } else s.enterQuarantine
  | .adopted =>
    let s := s.recordFault cause unit
    if cause = 1 || cause = 2 then { s with pm := { s.pm with fit := false } } else s.enterQuarantine
  | .provision => (s.recordFault cause unit).enterQuarantine

/-- R30, R51: no routine stands within a step. -/
def State.atCommit (s : State) : Bool :=
  match s.holder with | some h => h.st != .running && h.st != .committing | none => true

/-- An unrecoverable fault event: it is taken at once, or at the next commit point (R30). -/
def State.raiseFault (s : State) (cause unit : Byte) : State :=
  if s.atCommit then s.takeFault cause unit else s.setTop { s.top with due := s.top.due ++ [.fault cause unit] }

/-- The results of an instruction that is ended in a routine: what its committed steps have done (R48, R68). -/
def State.resultsSoFar (s : State) (i : Ins) : Routine → DWord × DWord
  | .fence since _ _ _ => (BitVec.ofNat 64 (s.pm.micros - since), 0)
  | .waitfor _ last => (z64 last, 0)
  | .qdestroy head0 _ => (BitVec.ofNat 64 (match s.queue i.target.toNat with | some x => x.reported head0 | none => 0), 0)
  | .portup since => (BitVec.ofNat 64 (s.pm.micros - since), 0)
  | .portdown _ reported => (BitVec.ofNat 64 reported, 0)
  | .setblk done => (BitVec.ofNat 64 done, 0)
  | .rulewr _ done => (BitVec.ofNat 64 done, 0)
  | .bindwr _ done => (BitVec.ofNat 64 done, 0)
  | .pattwr _ done => (BitVec.ofNat 64 done, 0)
  | .pairwr _ written skipped => (BitVec.ofNat 64 written, BitVec.ofNat 64 skipped)
  | .statread _ bytes => (BitVec.ofNat 64 bytes, 0)
  | .csload done => (BitVec.ofNat 64 done, 0)
  | _ => (0, 0)

/-- The intake of a queue whose QDESTROY has ended without its notice is open again. -/
def State.reopen (s : State) (t : Nat) : State :=
  match s.queue t with | some x => s.setQueue t { x with closing := false } | none => s

/-- An instruction is ended from outside its routine; what its routine held is released. -/
def State.endForced (s : State) (jid : Nat) (st : Status) : State :=
  match s.entry jid with
  | none => s
  | some e =>
    let s := match e.routine with
      | some (.keyload _) => s.clearScratch e.queue jid
      | some (.rulewr ks _) => s.rulewrEnds jid ks
      | some (.slicetest _) => s.setSliceP e.ins.target.toNat { s.sliceP e.ins.target.toNat with testing := false }
      | some (.spare _ _ _) => s.setTop { s.top with spareBusy := false, sparePhase := 0 }
      | some (.portdown _ _) => s.setPort e.ins.target.toNat { s.port e.ins.target.toNat with txStopped := false, stopRefused := 0 }
      | some (.qdestroy _ posted) => if posted.isSome then s else s.reopen e.ins.target.toNat
      | some (.twinbind _ _) => s.setCasc { s.casc with twin := .unbound }
      -- R351: `cs.version` is updated whatever the status of a CSLOAD
      | some (.csload _) => s.setCs s.cs.stamp
      | _ => s
    let mine (o : Option Armed) : Bool := match o with | some a => a.jid == some jid | none => false
    let s := if mine s.time.armedEpoch then s.setArmedEpoch none else s
    let s := if mine s.time.armedSnap then s.setArmedSnap none else s
    let (a, b) := match e.routine with | some r => s.resultsSoFar e.ins r | none => (0, 0)
    s.finish jid st a b

/-! ### Unlocking, and what waits for a commit point (R300, R30, R51) -/

/-- A line of the service monitor. -/
def State.say (s : State) (l : MonLine) : State := s.emit (.mon l)

/-- R300 steps 1 to 4: running KEYLOADs end, and all key material is erased. -/
def State.erase (s : State) : State :=
  let loads := s.pm.journal.filter fun e => match e.routine with | some (.keyload _) => e.st != .completed | _ => false
  let s := s.forEach loads fun s e => s.endForced e.id .modeForbids
  let s := s.eraseKeys
  s.setSec { s.sec with erasures := satInc s.sec.erasures }

/-- R300 step 5, R28, R426: MAINTENANCE. -/
def State.enterMaintenance (s : State) : State :=
  let was := s.top.mode
  let s := s.enterMode .maintenance 0x04
  let s := if was = .quarantine then s.forEach s.configuredPorts fun s p => s.setLink p .down else s
  s.leftService

/-- R300 step 5: the test access port or the monitor opens, in MAINTENANCE. DBG_EN may have fallen since (R448). -/
def State.opens (s : State) (tap : Bool) : State :=
  let s := if s.top.mode = .maintenance then s else s.enterMaintenance
  if tap then { s with mon := { s.mon with tapOpen := s.mon.dbgEn } }
  else ({ s with mon := { s.mon with isOpen := s.mon.dbgEn } }).say .maintenance

/-- Steps 1 to 4 of R300, and step 5 at a commit point. A read-back that fails twice is an unrecoverable fault. -/
def State.eraseAndOpen (s : State) (tap : Bool) (readBackFails : Nat) : State :=
  let s := s.erase
  if 2 ≤ readBackFails then (if tap then s.raiseFault 3 0xFF else (s.raiseFault 3 0xFF).say .erase)
  else if s.atCommit then s.opens tap else s.setTop { s.top with due := s.top.due ++ [.unlock tap none] }

/-- The routine that stands within a step is a KEYLOAD. -/
def State.keyloadInStep (s : State) : Bool :=
  !s.atCommit && match s.holder with | some h => h.op == 0x60 | none => false

/-- An unlock: it waits for a running KEYLOAD to reach its commit point (R300 step 1). -/
def State.unlock (s : State) (tap : Bool) (readBackFails : Nat) : State :=
  if s.keyloadInStep then s.setTop { s.top with due := s.top.due ++ [.unlock tap (some readBackFails)] }
  else s.eraseAndOpen tap readBackFails

/-- What was due is taken. Unlocks that fall together share one erasure (R449). -/
def State.takeOne (s : State) : Due → State
  | .fault cause unit => s.takeFault cause unit
  | .unlock tap (some n) => if s.top.mode = .maintenance then s.opens tap else s.eraseAndOpen tap n
  | .unlock tap none => s.opens tap

/-- The pair is at a commit point: a fault is taken before all else (R30). -/
def State.takeAll (s : State) : State :=
  let (faults, rest) := s.top.due.partition fun | .fault _ _ => true | .unlock _ _ => false
  (s.setTop { s.top with due := [] }).forEach (faults ++ rest) State.takeOne

/-- What is due at the next commit point is taken if the pair stands at one. -/
def State.takeDue (s : State) : State := if s.atCommit then s.takeAll else s

/-! ### Machine checks (R54 to R56) -/

/-- The entry whose step the pair runs or would run for a queue; the monitor's where the queue has none. -/
def State.stepping (s : State) (q : QId) : Option JEntry :=
  match s.resumable q.toNat with
  | some e => some e
  | none => match s.startable q.toNat with
    | some e => some e
    | none => if q = 0xFFF then (match s.resumable 0xFFFF with | some e => some e | none => s.startable 0xFFFF) else none

/-- A compare mismatch in a step: both units return to the last commit point. The third in a row of one step starts the
self-test. -/
def State.mismatch (s : State) (e : JEntry) : State :=
  let s := { s with pm := { s.pm with mcheckCount := satInc s.pm.mcheckCount, lastOpcode := e.op } }
  let s := s.updEntry e.id fun e => { e.rollBack with rolled := true, mism := e.mism + 1 }
  if e.mism + 1 < 3 then s else { s with pm := { s.pm with testing := true, testFor := some e.id } }

/-- R405: the journal word of an accepted entry that has not completed has an uncorrectable error: its command ends MACHINE_CHECK_FATAL, without
an unrecoverable fault event. -/
def State.journalError (s : State) (q : QId) (idx : RIdx) : State :=
  match s.pm.journal.find? fun e => e.q == q.toNat && e.idx == idx && e.st != .completed with
  | some e => s.endForced e.id .machineCheckFatal
  | none => s

/-- MACHINE_CHECK: a mismatch in the step of queue q's instruction, while both units run in lockstep; or an uncorrectable error in caddy 1: in
a journal word, or in the queue's context, which raises an unrecoverable fault event of cause 0x05 (R424, log entry 135). -/
def execMachineCheck (what : Check) (s : State) : Host.Outcome State Fault Refusal :=
  .next (match what with
    | .mismatch q => (match s.stepping q with
      | some e => if s.pm.alone = 0 && s.top.mode != .adopted then (s.mismatch e).takeAll else s
      | none => s)
    | .journalWord q idx => (s.journalError q idx).takeDue
    | .queueContext q => if (s.queue q.toNat).isSome then s.raiseFault 5 0xFF else s)

/-- The bits of `pm.selftest` last. -/
def failedBits (a b : Bool) : BitVec 2 := flag 2 a 0 ||| flag 2 b 1

/-- A test has run. -/
def State.tested (s : State) (a b : Bool) : State :=
  { s with pm := { s.pm with lastTest := failedBits a b, tests := s.pm.tests + 1, testedAt := s.clock } }

/-- R56, R362, R408: one unit is fenced off; the other goes on alone. The generations of the queues rise. -/
def State.fence (s : State) (fenceA : Bool) : State :=
  let d := if fenceA then dPMA else dPMB
  let s := { s with pm := { s.pm with alone := if fenceA then 2 else 1, failedReturns := 0 } }
  let other := if fenceA then dPMB else dPMA
  ((s.setDom d { s.dom d with st := .off, railGood := false }).setDom other { s.dom other with st := .on }).bumpQueues

/-- R413: a fenced unit has passed and takes part again. -/
def State.rejoin (s : State) : State :=
  let d := if s.pm.alone = 1 then dPMB else dPMA
  let s := { s with pm := { s.pm with alone := 0, failedReturns := 0 } }
  (s.setDom d { s.dom d with st := .on, railGood := true }).bumpQueues

/-- The end of the alternate self-test of R56. -/
def State.selfTestEnd (s : State) (a b : Bool) : State :=
  if !s.pm.testing then s
  else
    let jid := s.pm.testFor
    let s := (s.tested a b)
    let s := { s with pm := { s.pm with testing := false, testFor := none } }
    let s := match jid with | some j => s.updEntry j fun e => { e with mism := 0 } | none => s
    if a != b then s.fence a
    else (match jid with | some j => s.endForced j .machineCheckFatal | none => s).raiseFault 1 0xFF

/-- SELF_TEST_END. -/
def execSelfTestEnd (aFails bFails : Bool) (s : State) : Host.Outcome State Fault Refusal :=
  .next (s.selfTestEnd aFails bFails).takeDue

/-- PERIODIC_SELF_TEST (R413): in lockstep the verdicts are those of R56; while a unit is fenced it is tested for its return, up
to three times. It runs at a commit point. The pair of an ADOPTED instance becomes fit when both pass (R423). -/
def State.periodicTest (s : State) (a b : Bool) : State :=
  if s.pm.interval = 0 || s.pm.testing || s.top.resetting != .none || !s.atCommit || !s.msPassed s.pm.interval.toNat s.pm.testedAt then s
  else if s.pm.alone = 0 then
    if !s.isOn dPMA || !s.isOn dPMB then s
    else
      let s := s.tested a b
      if s.top.mode = .adopted then { s with pm := { s.pm with fit := !a && !b } }
      else if a != b then s.fence a
      else if a && b then s.raiseFault 1 0xFF
      else s
  else
    let aAlone := s.pm.alone == 1
    if !s.isOn (if aAlone then dPMA else dPMB) then s
    else
      -- after three failed returns the fenced unit is not tested again
      let out := decide (3 ≤ s.pm.failedReturns)
      let a := a || (!aAlone && out)
      let b := b || (aAlone && out)
      let running := if aAlone then a else b
      let fenced := if aAlone then b else a
      let s := s.tested a b
      let s := if s.top.mode = .adopted then { s with pm := { s.pm with fit := !a && !b } } else s
      -- an adopted instance goes on while its datapath runs (R28)
      if running && fenced then (if s.top.mode = .adopted then s else s.raiseFault 1 0xFF)
      else if running then s.fence aAlone
      else if fenced then { s with pm := { s.pm with failedReturns := min 3 (s.pm.failedReturns + 1) } }
      else s.rejoin

/-- PERIODIC_SELF_TEST. -/
def execPeriodicSelfTest (aFails bFails : Bool) (s : State) : Host.Outcome State Fault Refusal :=
  .next (s.periodicTest aFails bFails)

/-- POSTMASTER_WATCHDOG: a Postmaster reset (R399): every routine returns to its last commit point, and the SAs resume at their
high-water marks (R291). -/
def State.postmasterReset (s : State) : State :=
  (({ s.rollBackAll with pm := { s.rollBackAll.pm with burst := 0 } }).takeAll).resumePorts allPorts

/-- POSTMASTER_WATCHDOG. -/
def execPostmasterWatchdog (s : State) : Host.Outcome State Fault Refusal := .next (if s.pmRuns then s.postmasterReset else s)

/-! ### Slices (R399 to R401, R406) -/

/-- The ports whose packet numbers slice k draws (R290, R291): its own, and the 8-lane port of its pair. -/
def State.drawsOf (s : State) (k : Nat) : List Nat :=
  if k % 2 == 1 && (s.port (4 * (k - 1))).width == 8 then 4 * (k - 1) :: portsOf k else portsOf k

/-- A slice reset of physical slice n: what the slice it carries holds in flight is dropped, its ports that were not DOWN
train again, its SAs resume at their marks, and its replica is filled before it takes traffic (R350). Tables, epoch count and port
configuration stay. -/
def State.sliceReset (s : State) (n : Nat) : State :=
  match s.carried n with
  | none => s
  | some k =>
    let s := s.sliceDrops k
    let s := (s.fillReplica k).dropLocks (portsOf k)
    let s := s.forEach (portsOf k) fun s p =>
      let st := (s.port p).st
      if (s.port p).configured && st != .down && st != .quarantined then s.setLink p .training else s
    s.resumePorts (s.drawsOf k)

/-- The spare carries nothing, is awake and is not being tested (R410). -/
def State.spareFree (s : State) : Bool :=
  !s.top.spareCarrying && !s.top.spareBusy && !(s.sliceP 16).testing && s.isOn (dSLICE 16)

/-- R408, R409, R410: the crossbar gives logical slice k to the spare, or back to its own physical slice. The SAs resume at
their marks; the generations of the ports and of the slice's counters rise; the old carrier is reset and holds nothing. -/
def State.moveSlice (s : State) (k : Nat) (back : Bool) : State :=
  let old := s.carrier k
  let s := s.setTop { s.top with spareCarrying := !back, spareLogical := BitVec.ofNat 4 k, spareBusy := false, sparePhase := 0,
                                 spareCount := satInc s.top.spareCount }
  let s := s.resumePorts (s.drawsOf k)
  let s := s.forEach (portsOf k) fun s p => s.setPort p { s.port p with gen := (s.port p).gen + 1 }
  let s := s.setSliceL k { s.sliceL k with gen := (s.sliceL k).gen + 1 }
  let s := s.setSliceP (s.carrier k) { s.sliceP (s.carrier k) with idle := [] }
  s.setSliceP old { s.sliceP old with passed := false, testing := false, idle := [] }

/-- Kinds 0x5 to 0x8 of R430 name a table entry. -/
def tableKind (kind : BitVec 4) : Bool := decide (5 ≤ kind.toNat ∧ kind.toNat ≤ 8)

/-- An uncorrectable table word: the entry acts as not valid until it is next written. A rule's word lies in one bank (log entry 71). -/
def State.tableError (s : State) (n : Nat) (kind : BitVec 4) (entry : BitVec 13) (bank : Bool) : State :=
  let e := (kind, bank && (kind == 5 || kind == 6), entry.toNat)
  let s := s.setSliceP n { s.sliceP n with faultValid := true, faultKind := kind, faultEntry := entry }
  match s.carried n with
  | some k => s.setSliceL k { s.sliceL k with badEntries := e :: ((s.sliceL k).badEntries.filter (· != e)) }
  | none => s

/-- The third slice fault within a second: the ports of the slice are held in DOWN; the spare takes over where that is
enabled, at once, since no port of the slice has traffic or lanes to move (log entry 136); a pair that carries an 8-lane port is lost with its second slice (R424). -/
def State.holdSlice (s : State) (n : Nat) : State :=
  let s := s.setSliceP n { s.sliceP n with faultHeld := true }
  match s.carried n with
  | none => s
  | some k =>
    let s := s.forEach (s.drawsOf k) fun s p =>
      if (s.port p).configured && (s.port p).st != .quarantined then (s.setLink p .down).resetLanes p else s
    let pair := if k % 2 == 0 then k + 1 else k - 1
    let wide := (s.port (4 * min k pair)).width == 8
    let s := if s.top.spareAuto && s.spareFree && n != 16 then (s.fillReplica k).moveSlice k false else s
    if wide && (s.sliceP (s.carrier pair)).faultHeld then s.raiseFault 4 (BitVec.ofNat 8 n) else s

/-- SLICE_FAULT: a fault of physical slice n. -/
def State.sliceFault (s : State) (n : Nat) (kind : BitVec 4) (entry : BitVec 13) (bank : Bool) : State :=
  if 16 < n || !s.isOn (dSLICE n) || kind = 0 || 8 < kind.toNat then s
  else if tableKind kind then s.tableError n kind entry bank
  else
    let times := s.clock :: ((s.sliceP n).faults.filter fun t => !s.msPassed 1000 t).take 2
    let s := s.setSliceP n { s.sliceP n with faultValid := true, faultKind := kind, faultEntry := 0, faults := times }
    let s := s.sliceReset n
    if 3 ≤ times.length then s.holdSlice n else s

/-- SLICE_FAULT. -/
def execSliceFault (n : BitVec 5) (kind : BitVec 4) (entry : BitVec 13) (bank : Bool) (s : State) :
    Host.Outcome State Fault Refusal := .next (s.sliceFault n.toNat kind entry bank)

/-- INTERNAL_CHANNEL_FAULT: internal channel 28 + c reads HALTED and stays out of use; its work goes on, on the next one, from
its last commit point, and a parity reload in flight is made again (R407). -/
def execInternalChannelFault (c : BitVec 2) (s : State) : Host.Outcome State Fault Refusal :=
  let n := 28 + c.toNat
  let lost (r : Req) : Bool := r.chan == some 28 && s.workerOf 28 == n && match r.owner with | .reload _ _ => true | _ => false
  let s := s.setDma { s.dma with reqs := s.dma.reqs.map fun r => if lost r then { r with owner := .none } else r
                                 backlog := s.dma.backlog.filter fun r => !lost r }
  let s := s.setChan n { s.chan n with st := .halted, failed := true }
  .next (s.forEach ((s.dma.reqs ++ s.dma.backlog).filterMap fun r => r.chan.filter (28 ≤ ·)) State.internalRuns)

/-! ### SPARE (R410, R411) -/

/-- The mirrored lanes of slice k, and of its partner for an 8-lane port, are locked. -/
def State.spareLocked (s : State) (k : Nat) : Bool :=
  let ps := (portsOf k) ++ (if k % 2 == 1 then [4 * (k - 1)] else [])
  ps.all fun p => (s.port p).st == .down || (s.lanesOf p).all fun l => l / 4 != k || (s.lane l).lock

/-- The cut would fall within 20 µs before an armed instant. -/
def State.cutBarred (s : State) : Bool :=
  let near (o : Option Armed) : Bool := match o with
    | some a => a.fired.isNone && !a.held && decide (s.now16 ≤ s.instant16 a.instant)
        && decide (s.instant16 a.instant < s.now16 + 20 * 65536000)
    | none => false
  near s.time.armedEpoch || near s.time.armedSnap

/-- R411: a frame that the old slice k took in before the cut, which came before identifier `mark`, and that it still stages. -/
def heldBeforeCut (k mark : Nat) (f : RxFr) : Bool := f.slice.toNat == k && decide (f.fid < mark)

/-- A step of SPARE: 1 fills the new carrier's tables and replica, 2 waits for the lanes, 1 µs a step, 3 chooses the cut, 4 is
the cut, after which the frames of the old slice have 10 µs to leave its staging (R411), and 5 the fence. -/
def stepSpare (i : Ins) (phase since mark : Nat) (s : State) : Ran :=
  let k := i.target.toNat
  let back := bitOf i.a 0
  match phase with
  | 1 => .more (.spare 2 s.pm.micros 0) ((s.fillReplica k).setTop { s.top with sparePhase := 2 })
  | 2 => if s.spareLocked k || 210 ≤ s.pm.micros - since then .more (.spare 3 0 0) s else .more (.spare 2 since 0) s.microPasses
  | 3 => if s.cutBarred then .more (.spare 3 0 0) s.microPasses else .more (.spare 4 0 0) (s.setTop { s.top with sparePhase := 3 })
  | 4 => .more (.spare 5 s.pm.micros s.nextId) s
  | _ =>
    if s.frames.rx.any (heldBeforeCut k mark) && decide (s.pm.micros - since < 10) then .more (.spare 5 since mark) s.microPasses else
    let s := (s.freeFrames (heldBeforeCut k mark)).moveSlice k back
    .ok (at' 64 (BitVec.ofNat 5 (s.carrier k)) 16 ||| at' 64 (s.sliceL k).gen 0) 0 s

/-- A substitution or a return begins. -/
def spareBegins (k : Nat) (s : State) : Ran :=
  .wait (.spare 1 0 0) (s.setTop { s.top with spareBusy := true, sparePhase := 1, spareLogical := BitVec.ofNat 4 k })

/-- SPARE with A[0] = 0. -/
def runSpareMove (_ : Nat) (_ : BitVec 16) (i : Ins) (s : State) : Ran :=
  let k := i.target.toNat
  if 16 ≤ k || s.top.spareCarrying || s.top.spareBusy || (s.sliceP 16).testing then .bad .badOperand s
  else if !s.isOn (dSLICE 16) || !s.sliceOn k then .bad .targetAsleep s
  else spareBegins k s

/-- SPARE_MOVE. -/
def execSpareMove (q : QId) (i : Ins) (s : State) : Host.Outcome State Fault Refusal :=
  begins q 0x23 (!bitOf i.a 0) i runSpareMove s

/-- SPARE with A[0] = 1: physical slice k must have passed SLICETEST since it last carried a slice. -/
def runSpareReturn (_ : Nat) (_ : BitVec 16) (i : Ins) (s : State) : Ran :=
  let k := i.target.toNat
  if 16 ≤ k || !s.top.spareCarrying || s.top.spareLogical.toNat != k || s.top.spareBusy || !(s.sliceP k).passed
      || (s.sliceP k).testing then .bad .badOperand s
  else if !s.isOn (dSLICE 16) || !s.isOn (dSLICE k) then .bad .targetAsleep s
  else spareBegins k s

/-- SPARE_RETURN. -/
def execSpareReturn (q : QId) (i : Ins) (s : State) : Host.Outcome State Fault Refusal :=
  begins q 0x23 (bitOf i.a 0) i runSpareReturn s

/-! ### SLICETEST (R412) -/

/-- Steps of 100 µs that the tests of an operand take. -/
def testSteps (a : Word) : Nat :=
  (if bitOf a 0 then 15 else 0) + (if bitOf a 1 then 3 else 0) + (if bitOf a 2 then 3 else 0)

/-- A step of SLICETEST. What the tests find is a free value (log entry 46); a slice reset follows them. -/
def stepSlicetest (i : Ins) (steps : Nat) (s : State) : Ran :=
  let n := i.target.toNat
  if 1 < steps then .more (.slicetest (steps - 1)) s
  else
    let (x, s) := s.takeFree 3
    let asked := fld i.a 0 3
    let pass := x &&& asked
    .ok (z64 pass) 0 (s.setSliceP n { s.sliceP n with testing := false, passed := pass == asked && asked != 0 })

/-- SLICETEST. -/
def runSlicetest (_ : Nat) (_ : BitVec 16) (i : Ins) (s : State) : Ran :=
  let n := i.target.toNat
  if 17 ≤ n || (s.carried n).isSome || (s.top.spareBusy && (n == 16 || n == s.top.spareLogical.toNat)) then .bad .badOperand s
  else if !s.isOn (dSLICE n) then .bad .targetAsleep s
  else stepSlicetest i (testSteps i.a) (s.setSliceP n { s.sliceP n with testing := true })

/-- SLICETEST. -/
def execSlicetest (q : QId) (i : Ins) (s : State) : Host.Outcome State Fault Refusal := begins q 0x24 true i runSlicetest s

end Machine
end Sys2Proof
end

