-- ==== Sys2Proof/Machine/Resets.lean ====
section
/-! DEFINITION. Warm and cold reset and their release (R399 to R404, R453), AON power-up and brown-out (R379, R435, R486). -/

namespace Sys2Proof
namespace Machine

/-! ### What both resets do to traffic (R400 to R402, R464) -/

/-- Every staged frame, every frame on a wire and every recirculated frame ends; the credit counts start anew. -/
def State.dropTraffic (s : State) : State :=
  let s := (s.freeFrames fun _ => true).dropRecirc fun _ => true
  let s := s.forEach s.configuredPorts fun s p => (s.flushTx p).cutWire p
  let s := s.forEach allSlices State.drained
  { s with frames := { s.frames with creditsUsed := [] } }

/-- R402: every accepted INJECT entry without an outcome is reported NOT_SENT reason 0x05; those cut have theirs. -/
def State.reportInjected (s : State) : State :=
  s.forEach (s.qs.inj.filter fun e => e.outcome.isNone) fun s e => s.notSent e.iid 5

/-- The entries of rings that still lack their phase. -/
def State.unpublished (s : State) : List (Nat × RIdx × Bool) :=
  s.qs.tab.flatMap fun kv => match kv.2 with
    | some x => (x.inflight.filter fun f => !f.2.phased).map fun f => (kv.1, f.1, f.2.fire)
    | none => []

/-- No request is outstanding or waits for a tag. -/
def State.noRequests (s : State) : State := s.setDma { s.dma with reqs := [], backlog := [] }

/-- A write that has been issued, and so leaves the port although it still waits for a tag: every one but those of the channels. -/
def Req.leaves (r : Req) : Bool := r.isWrite && match r.owner with | .chanWrite _ _ => false | _ => true

/-- R400 step 4: every posted write already issued leaves the fabric port, and the entries of rings whose writing has begun are written
whole (log entry 54). -/
def State.settleRings (s : State) : State :=
  let s := (s.dma.backlog.filter Req.leaves).foldl (fun s r => s.emit (.write r.tag r.addr r.data r.relaxed)) s.noRequests
  let s := s.forEach s.unpublished fun s e => (s.publishEntry e.1 e.2.1 e.2.2).noRequests
  s.forEach (s.qs.tab.map (·.1)) fun s q => match s.queue q with
    | some x => (s.setQueue q { x with inflight := x.inflight.map fun kv => (kv.1, { kv.2 with answered := true }) }).settleFront q
    | none => s

/-- R400 step 4: posted writes already issued have left the fabric port, and count as answered; requests and prefetched entries
of the logic that is reset are gone. -/
def State.settleWrites (s : State) : State :=
  let s := s.settleRings.loseFetches
  let s := s.setJournal (s.pm.journal.map fun e => match e.rd, e.st with
    | some r, .committing => { e with rd := some { r with got := (List.range r.need).map fun i => (i, 0) } }
    | _, _ => e)
  { s with
    dma := { s.dma with latches := [], staged := [] }
    qs := { s.qs with
      tab := s.qs.tab.map fun kv => (kv.1, kv.2.map fun x => { x with retrying := false })
      vectors := (s.qs.vectors.map fun kv =>
        (kv.1, if kv.2.sent then { kv.2 with sent := false, pending := kv.2.pending && kv.2.due } else kv.2)).filter fun kv => kv.2 != {} } }

/-- Every DMA channel is HALTED with reason reset (R329); a failed internal channel is tested again (R407). -/
def State.resetDma (s : State) : State :=
  let s := s.haltChannels
  s.setDma { s.dma with chans := s.dma.chans.map fun kv => (kv.1, { kv.2 with failed := false }) }

/-! ### Warm reset -/

/-- WARM_RESET: steps 1 to 5 of R400. Ports that were not DOWN train again once it is released. It is ignored in COLD and while a
cold reset is in progress (R453). -/
def State.warmReset (s : State) : State :=
  if s.top.mode = .cold || s.top.resetting = .cold then s
  else
    let s := s.setTop { s.top with resetting := .warm }
    let s := (s.rollBackAll.takeAll.dropTraffic.reportInjected).settleWrites.losePigeonholes
    let s := s.forEach s.configuredPorts fun s p =>
      let s := s.resetLanes p
      if (s.port p).st != .down && (s.port p).st != .quarantined then s.setLink p .training else s
    let s := s.setReg { s.reg with probes := [] }
    let s := { s with pm := { s.pm with burst := 0, failedReturns := 0, testing := false, testFor := none } }
    (s.resetDma).setTop { s.top with previous := s.top.mode, cause := 0x05 }

/-- WARM_RESET. -/
def execWarmReset (s : State) : Host.Outcome State Fault Refusal := .next s.warmReset

/-! ### Cold reset -/

/-- R403: an accepted command is reported ABANDONED_COLD, with its progress mark and whether its last step had committed. -/
def JEntry.abandon (e : JEntry) : JEntry :=
  { e with st := .completed, routine := none, rd := none, held := false, posting := false, replay := false,
           slot := some ⟨.abandonedCold, at' 64 e.step 48 ||| at' 64 e.cursor 0, if e.st = .completed then 1 else 0⟩ }

/-- A queue context and its indexes in caddy 1 (R80, R435). A completion of a stopped ring waited in its pigeonhole, which is lost: its
command is reported ABANDONED_COLD (R403, R503). -/
def Queue.keptCold (x : Queue) : Queue := { x with fetches := [], ready := [], inflight := [], retrying := false, unsignalled := 0,
                                                      heldWrites := x.heldWrites.filter (fun e => e.owner.isNone),
                                                      closing := x.closing && x.notice.isSome }

/-- What REG's caddy banks keep (R222): the cache, with its write-back owed. An armed SNAP is gone. -/
def Registry.keptCold (r : Registry) : Registry :=
  { r with learn := true, limit := 0x1000000, age := 0x05A0, share := 0xA0, window := 0, probes := [], pending := 0, uncorr := 0,
           unreachable := false, writebackOwed := true }

/-- The power unit: every domain but AON in retention, no votes (log entry 47); the cause of the last wake and the brown-out mark
are AON power-up's. -/
def Power.afterCold (p : Power) : Power :=
  { doms := allDomains.map fun d => (d, { st := .retention true }), wakeSource := p.wakeSource, wakeDetail := p.wakeDetail,
    brownout := p.brownout, capIn := p.capIn, capSample := p.capSample }

/-- The inputs of the block, whose levels no reset changes: lane signal detect, XOFF, held banks, DBG_EN. -/
def State.pinsOf (s : State) (t : State) : State :=
  { t with
    lanes := (s.lanes.filter fun kv => kv.2.signal).map fun kv => (kv.1, { signal := true })
    ports := (s.ports.filter fun kv => kv.2.xoff != 0).map fun kv => (kv.1, { xoff := kv.2.xoff })
    sorter := { t.sorter with logical := (s.sorter.logical.filter fun kv => kv.2.held0 || kv.2.held1).map fun kv =>
      (kv.1, { held0 := kv.2.held0, held1 := kv.2.held1 }) }
    mon := { t.mon with dbgEn := s.mon.dbgEn } }

/-- Postmark keeps its power-up count, and the record queue of R504; the state becomes UNSET. -/
def Time.afterCold (t : Time) : Time :=
  { powerup := t.powerup, pipeTsQueue := t.pipeTsQueue, previous := if t.state = .unset then t.previous else t.state }

/-- What a cold reset keeps (R399): caddy 1, 2 and 3, the doorbells, the record-queue parameters, the bring-up parameters and the
power-up count; everything else as after power-up. `mode.state` previous is the mode the instance was in: R28 gives the field that meaning and
a reset value of 0x0, and the model takes the meaning (log entry 81). -/
def State.coldKeep (s : State) : State :=
  s.pinsOf
    { pending := s.pending, out := s.out, fresh := s.fresh, nextId := s.nextId, clock := s.clock
      top := { aqBase := s.top.aqBase, aqHeadWb := s.top.aqHeadWb, acqBase := s.top.acqBase, ready := s.top.ready,
               bootError := s.top.bootError, aqSize := s.top.aqSize, acqSize := s.top.acqSize, bootIrqEn := s.top.bootIrqEn,
               bootVector := s.top.bootVector, previous := s.top.mode, resetting := .cold, pbRst := s.top.pbRst }
      pm := { journal := (s.pm.journal.filter fun e => e.queue != 0xFFFF && !e.awaits && e.st != .skipped).map JEntry.abandon }
      qs := { tab := s.qs.tab.map fun kv => (kv.1, kv.2.map Queue.keptCold), doorbells := s.qs.doorbells
              inj := s.qs.inj.map fun e => { e with held := false, posting := false, replay := false } }
      dma := { chans := (List.range 32).map fun c => (c, { st := .halted, reason := 7 }) }
      reg := s.reg.keptCold
      stats := { native := s.stats.native, slice := s.stats.slice, compat := s.stats.compat, macsec := s.stats.macsec }
      time := s.time.afterCold
      sec := { eventQueue := s.sec.eventQueue, erasures := satInc s.sec.erasures }
      guardQueue := s.guardQueue
      power := s.power.afterCold
      casc := { self := s.casc.self } }

/-- COLD_RESET. -/
def State.coldReset (s : State) : State := ((s.rollBackAll.dropTraffic.reportInjected.settleRings).leftService).ppsLow.releaseScl.coldKeep

/-- COLD_RESET. -/
def execColdReset (s : State) : Host.Outcome State Fault Refusal := .next s.coldReset

/-! ### Release (R400 step 6, R404, R435, R453) -/

/-- RESET_RELEASE: the identity strap is taken at the release of a cold reset; after a warm reset completions and notices that
had not reached their rings are written before any instruction starts, the SAs resume at their marks (R291), and the replicas are filled
(R350). -/
def State.release (s : State) (cascId : BitVec 3) : State :=
  match s.top.resetting with
  | .none => s
  | .cold => { s.setTop { s.top with resetting := .none } with casc := { s.casc with self := cascId } }
  | .warm =>
    let s := s.setTop { s.top with resetting := .none }
    let s := (s.resumePorts allPorts).refreshReplicas
    if s.isOn dHOST then s.rewriteCompletions.forEach (s.qs.tab.map (·.1)) fun s q => s.fetchBelow q else s

/-- RESET_RELEASE. -/
def execResetRelease (cascId : BitVec 3) (s : State) : Host.Outcome State Fault Refusal := .next (s.release cascId)

/-! ### AON power-up and brown-out -/

/-- The state after AON has powered up. The levels of the block's inputs, and the model's own fields, stay. -/
def State.powerUp (s : State) (bootCount : BitVec 16) (brownout : Bool) (region : BitVec 2) : State :=
  s.pinsOf { pending := s.pending, out := s.ppsLow.releaseScl.out, fresh := s.fresh, nextId := s.nextId, time := { powerup := bootCount + 1 },
             power := { brownout := brownout }, reg := { region := region } }

/-- AON_POWER_UP: with the cold reset input asserted until RESET_RELEASE. -/
def execAonPowerUp (bootCount : BitVec 16) (bodLatch : Bool) (lmRegion : BitVec 2) (s : State) : Host.Outcome State Fault Refusal :=
  let t := s.powerUp bootCount bodLatch lmRegion
  .next (t.setTop { t.top with resetting := .cold })

/-- BROWN_OUT: the detector's reset is an AON power-up; PW_BOD tells the chip's latch (R379, R486). The identity strap was taken at
the release of the cold reset. -/
def execBrownOut (bootCount : BitVec 16) (s : State) : Host.Outcome State Fault Refusal :=
  let t := (s.powerUp bootCount true s.reg.region).emit .bod
  .next { t with casc := { t.casc with self := s.casc.self } }

end Machine
end Sys2Proof
end

