-- ==== Sys2Proof/Machine/ControlStore.lean ====
section
/-! DEFINITION. The control store (R347 to R354): CSLOAD, CSSWAP, CSVERIFY, the reload of a word with a parity error, and the
scrubber. -/

namespace Sys2Proof
namespace Machine

/-- R350: the control store changes; where a visible sort word has changed, every slice that is on refreshes its replica. -/
def State.changeCs (s : State) (c : Cs) : State :=
  let s' := s.setCs c
  if c.replicaOf = s.cs.replicaOf then s' else s'.refreshReplicas

/-- R351: `cs.version` takes what is now visible. -/
def State.stampCs (s : State) : State := s.setCs s.cs.stamp

/-- The DMA domain runs and no reset holds it. -/
def State.dmaRuns (s : State) : Bool := s.isOn dDMA && s.top.resetting == .none

/-! ### CSLOAD (R347, R348, R351) -/

/-- Words into a table from an index on. -/
def putWords (t : Tab QWord) (n : Nat) : List QWord → Tab QWord
  | [] => t
  | w :: ws => putWords (Tab.put 0 t n w) (n + 1) ws

/-- The 16-byte words of a host image. -/
def imageQWords (bs : List Byte) (n : Nat) : List QWord :=
  (List.range n).map fun k => BitVec.ofNat 128 (leNat (slice bs (16 * k) 16))

/-- Loaded words, as held and as received. A word that is loaded has its parity anew (R347). -/
def Cs.load (c : Cs) (overlayBank : Bool) (first : Nat) (ws : List QWord) : Cs :=
  let c := { c with reloads := c.reloads.filter fun r =>
    r.ovl != overlayBank || decide (r.word < first) || decide (first + ws.length ≤ r.word) }
  if overlayBank then { c with bank := putWords c.bank first ws, recvBank := putWords c.recvBank first ws }
  else { c with store := putWords c.store first ws, recv := putWords c.recv first ws }

/-- First word and count of a CSLOAD. -/
def loadFirst (i : Ins) : Nat := (fld i.a 0 16).toNat
def loadCount (i : Ins) : Nat := (fld i.a 16 16).toNat + 1

/-- A step of CSLOAD: up to 512 words after the `done` already loaded, which channel 28 reads (R312). -/
def stepCsload (jid : Nat) (i : Ins) (done : Nat) (s : State) : Ran :=
  let n := min 512 (loadCount i - done)
  match s.fetchHost jid (i.b.setWidth 57 + BitVec.ofNat 57 (16 * done)) (16 * n) (some 28) with
  | .wait s => .wait (.csload done) s
  | .failed at_ s => .done .dmaBusError (BitVec.ofNat 64 done) (z64 at_) s.stampCs
  | .data bs s =>
    let s := s.changeCs (s.cs.load (i.target == 1) (loadFirst i + done) (imageQWords bs n))
    if loadCount i ≤ done + n then .ok (BitVec.ofNat 64 (loadCount i)) 0 s.stampCs else .more (.csload (done + n)) s

/-- CSLOAD. The image base is recorded, and verified is cleared, at its first step. -/
def runCsload (jid : Nat) (_ : BitVec 16) (i : Ins) (s : State) : Ran :=
  let bank := i.target == 1
  if 1 < i.target.toNat || (if bank then 8192 else 65536) < loadFirst i + loadCount i || (bank && s.cs.mapped) || !hostAddrOk i.b 64 then
    .bad .badOperand s
  else if !s.isOn dDMA then .bad .targetAsleep s
  else
    let base : HostAddr := i.b.setWidth 57 - BitVec.ofNat 57 (16 * loadFirst i)
    let c := { s.cs with verified := false }
    stepCsload jid i 0 (s.setCs (if bank then { c with imageOvl := base } else { c with image := base }))

/-- CSLOAD. -/
def execCsload (q : QId) (i : Ins) (s : State) : Host.Outcome State Fault Refusal := begins q 0x90 true i runCsload s

/-! ### CSSWAP (R349, R351) -/

/-- The mapping changes. -/
def swapTo (mapped : Bool) (page : BitVec 3) (s : State) : Ran :=
  let s := (s.changeCs { s.cs with mapped := mapped, page := page, verified := false }).stampCs
  .ok (z64 (fld (csMapWord s.cs) 0 8)) 0 s

/-- CSSWAP with A[7] = 0: the overlay bank lies over the page that A[2:0] names. -/
def runCsswapMap (_ : Nat) (_ : BitVec 16) (i : Ins) (s : State) : Ran := swapTo true (fld i.a 0 3) s

/-- CSSWAP_MAP. -/
def execCsswapMap (q : QId) (i : Ins) (s : State) : Host.Outcome State Fault Refusal :=
  begins q 0x91 (!bitOf i.a 7) i runCsswapMap s

/-- CSSWAP with A[7] = 1: the bank is unmapped. -/
def runCsswapUnmap (_ : Nat) (_ : BitVec 16) (_ : Ins) (s : State) : Ran := swapTo false 0 s

/-- CSSWAP_UNMAP. -/
def execCsswapUnmap (q : QId) (i : Ins) (s : State) : Host.Outcome State Fault Refusal :=
  begins q 0x91 (bitOf i.a 7) i runCsswapUnmap s

/-! ### CSVERIFY (R351) -/

/-- A step of CSVERIFY: 4,096 visible words. -/
def stepCsverify (done : Nat) (crc : Word) (s : State) : Ran :=
  let crc := crcWords s.cs.word done 4096 crc
  if done + 4096 < 65536 then .more (.csverify (done + 4096) crc) s
  else
    let v := ~~~ crc
    if v != s.cs.crc || !s.cs.vendorLoaded then .done .compareMismatch (z64 v) 0 s
    else .ok (z64 v) 0 (s.setCs { s.cs with verified := true })

/-- CSVERIFY. -/
def runCsverify (_ : Nat) (_ : BitVec 16) (_ : Ins) (s : State) : Ran := stepCsverify 0 0xFFFFFFFF#32 s

/-- CSVERIFY. -/
def execCsverify (q : QId) (i : Ins) (s : State) : Host.Outcome State Fault Refusal := begins q 0x92 true i runCsverify s

/-! ### Parity and the scrubber (R352 to R354) -/

/-- Changes the reload of a word. -/
def State.updReload (s : State) (ovl : Bool) (word : Nat) (f : Reload → Reload) : State :=
  s.setCs { s.cs with reloads := updFirst (fun r => r.ovl == ovl && r.word == word) f s.cs.reloads }

/-- The reload of a word is over. -/
def State.dropReload (s : State) (ovl : Bool) (word : Nat) : State :=
  s.setCs { s.cs with reloads := dropFirst (fun r => r.ovl == ovl && r.word == word) s.cs.reloads }

/-- A read of channel 28 for that reload is on its way. -/
def Reload.asked (r : Reload) (q : Req) : Bool := match q.owner with | .reload o w => o == r.ovl && w == r.word | _ => false

/-- R352: channel 28 reads the words that have a parity error from the images; one whose reload has failed again after 1 µs. -/
def State.issueReloads (s : State) : State :=
  if !s.dmaRuns then s
  else s.forEach s.cs.reloads fun s r =>
    if s.dma.reqs.any r.asked || s.dma.backlog.any r.asked || r.failedAt.any (fun t => !s.usPassed 1 t) then s
    else
      let base := if r.ovl then s.cs.imageOvl else s.cs.image
      (s.internalRuns 28).sendReq { addr := base + BitVec.ofNat 57 (16 * r.word), len := 16, owner := .reload r.ovl r.word,
                                    tries := s.attempts (some 28), chan := some 28 }

/-- R352: the Postmaster has fetched a word with a parity error for queue q: a machine check; the instruction waits for the
reload. -/
def State.parityCheck (s : State) (ovl : Bool) (word : Nat) (q : QId) : State :=
  match s.stepping q with
  | some e =>
    let s := { s with pm := { s.pm with mcheckCount := satInc s.pm.mcheckCount, lastOpcode := e.op } }
    ((s.updEntry e.id fun e => { e.rollBack with rolled := true }).updReload ovl word fun r => { r with waiters := r.waiters ++ [e.q] }).takeAll
  | none => s

/-- R352: three reloads of one word have failed: the instructions that wait for it end. -/
def State.reloadGivesUp (s : State) (r : Reload) : State :=
  let s := (s.dropReload r.ovl r.word).forEach r.waiters fun s q =>
    match s.oldest q with | some e => s.endForced e.id .machineCheckFatal | none => s
  (s.raiseFault 2 0xFF).takeDue

/-- Channel 28 has read a word for its reload, or has failed. -/
def State.reloadDone (s : State) (ovl : Bool) (word : Nat) (data : Option QWord) : State :=
  match s.cs.reloads.find? fun r => r.ovl == ovl && r.word == word with
  | none => s
  | some r => match data with
    | some d =>
      let s := s.dropReload ovl word
      let c := { s.cs with parityStore := satInc s.cs.parityStore }
      s.setCs (if ovl then { c with bank := Tab.put 0 c.bank word d } else { c with store := Tab.put 0 c.store word d })
    | none =>
      if 3 ≤ r.fails + 1 then s.reloadGivesUp r
      else s.updReload ovl word fun r => { r with fails := r.fails + 1, failedAt := some s.clock }

/-- CS_PARITY_RELOAD: a word of the store (`ovl` false) or of the bank, counted from 0, has a parity error; `fetched` names the queue for
which the Postmaster has fetched it, none where the scrubber or a replica's reload has found it (R352 to R354). -/
def State.csParity (s : State) (ovl : Bool) (word : Nat) (fetched : Option QId) : State :=
  if !s.isOn dHOST || s.top.resetting != .none || (ovl && 8192 ≤ word) then s
  else
    let s := if s.cs.reloads.any fun r => r.ovl == ovl && r.word == word then s
      else s.setCs { s.cs with reloads := s.cs.reloads ++ [{ ovl := ovl, word := word }] }
    let s := match fetched with
      | some q => if (s.cs.visibleAt ovl word).isSome && !s.reloading q.toNat then s.parityCheck ovl word q else s
      | none => s
    s.issueReloads

/-- CS_PARITY_RELOAD: a page has 8,192 words. -/
def execCsParityReload (ovl : Bool) (page : BitVec 3) (word : BitVec 13) (fetched : Bool) (q : QId) (s : State) :
    Host.Outcome State Fault Refusal := .next (s.csParity ovl (8192 * page.toNat + word.toNat) (if fetched then some q else none))

/-- R354: replica word `n` of slice k is reloaded where it differs from its master or has a parity error; not from a master that has one
itself (R353). -/
def State.scrubReplica (s : State) (n k : Nat) : State :=
  let x := s.sliceL k
  if s.cs.badWords.contains n then s
  else if Tab.get 0 x.replica n = s.cs.word n && !x.badReplica.contains n then s
  else
    (s.setSliceL k { x with replica := Tab.put 0 x.replica n (s.cs.word n), badReplica := x.badReplica.filter (· != n) }).setCs
      { s.cs with parityReplica := satInc s.cs.parityReplica }

/-- The scrubber reads the next word: of the visible store, and the replicas of it, or of the bank (R354, R360). -/
def State.scrubWord (s : State) : State :=
  let n := s.cs.scrubAt
  let s := if sortWord n && n < 65536 then s.forEach (allSlices.filter s.sliceOn) fun s k => s.scrubReplica n k else s
  if n + 1 < 73728 then s.setCs { s.cs with scrubAt := n + 1 }
  else s.setCs { s.cs with scrubAt := 0, passes := s.cs.passes + 1 }

/-- SCRUB: the words of one µs. A store word with a parity error is CS_PARITY_RELOAD's. -/
def execScrub (s : State) : Host.Outcome State Fault Refusal :=
  .next (if s.pmOn && s.top.resetting == .none then s.forEach (List.range s.cs.rate.toNat) fun s _ => s.scrubWord else s)

end Machine
end Sys2Proof
end

