-- ==== Sys2Proof/Machine/Dma.lean ====
section
/-! DEFINITION. The DMA channels (R312 to R335): the states, the program reads, each channel instruction and its accesses, the
shadow and ARM, END and its re-read, doorbells; DMARUN and DMASTOP. -/

namespace Sys2Proof
namespace Machine

/-- Changes channel c. -/
def State.updChan (s : State) (c : Nat) (f : Chan → Chan) : State := s.setChan c (f (s.chan c))

/-! ### Requests of a channel -/

/-- Accesses of the channel's instruction are on their way. -/
def State.chanBusy (s : State) (c : Nat) : Bool := s.dma.reqs.any (Req.ofXfer c) || s.dma.backlog.any (Req.ofXfer c)

/-- The next accesses of a range of which `rem` bytes from `a` on are left: those that end within the next `lim` bytes (R320). -/
def nextAccesses (a rem lim : Nat) : List (Nat × Nat) := (splitRange 128 a rem).takeWhile fun an => decide (an.1 + an.2 ≤ a + lim)

/-- The bytes of a list of accesses. -/
def accessBytes (l : List (Nat × Nat)) : Nat := (l.map (·.2)).sum

/-- Reads of channel c, the first of them at `a`, whose bytes stand in its buffer from `key` on. -/
def State.chanReads (s : State) (c a key : Nat) (l : List (Nat × Nat)) : State :=
  s.forEach l fun s an =>
    s.sendReq { addr := BitVec.ofNat 57 an.1, len := an.2, owner := .chanRead c (key + (an.1 - a)), tries := s.attempts (some c),
                chan := some c }

/-- Writes of channel c, the first of them at `a` with the first of the bytes, which is byte `off` of the instruction; the data of MOVE and
FILL are relaxed (R470). -/
def State.chanWrites (s : State) (c a off : Nat) (bs : List Byte) (relaxed : Bool) (l : List (Nat × Nat)) : State :=
  s.forEach l fun s an =>
    s.sendReq { isWrite := true, addr := BitVec.ofNat 57 an.1, len := an.2, data := slice bs (an.1 - a) an.2, relaxed := relaxed,
                owner := .chanWrite c (off + (an.1 - a)), tries := s.attempts (some c), chan := some c }

/-- R328: the read of the 64-byte program line at the channel's pc. A doorbell that came before it needs no re-read. -/
def State.readLine (s : State) (c : Nat) : State :=
  let a := (s.chan c).pc
  (s.updChan c fun x => { x with reread := false, line := none }).sendReq
    { addr := BitVec.ofNat 57 (a.toNat - a.toNat % 64), len := 64, owner := .chanLine c, tries := s.attempts (some c), chan := some c }

/-- R314: the fields of an instruction's 16 bytes. A LINK has only its target. -/
def chIns (w : BitVec 128) : BitVec 4 × ChIns :=
  if fld w 124 4 = 7 then (7, { addr := fld w 64 57 })
  else (fld w 124 4, { flags := fld w 120 4, x := fld w 88 32, y := fld w 64 24, addr := fld w 0 57 })

/-- The channel's next instruction, once its line has been read. -/
def Chan.next (x : Chan) : Option (BitVec 4 × ChIns) :=
  x.line.map fun l => chIns (BitVec.ofNat 128 (leNat (slice l (x.pc.toNat % 64) 16)))

/-! ### Halting, going on -/

/-- R324: the channel halts with a reason; irq_halt fires its vector. -/
def State.haltChan (s : State) (c : Nat) (reason : BitVec 4) : State :=
  let s := (s.orphan c).updChan c fun x =>
    { x with st := .halted, reason := reason, line := none, xfer := none, buf := [], failAt := none, waitFor := none, waitUs := 0,
             waitAt := 0, stopping := none, reread := false }
  let s := s.endBackground 2 c
  if (s.chan c).irqHalt then s.fireVector (s.chan c).vector.toNat else s

/-- The next instruction stands at `a`; a jump, and a new line, is read. A stop that waited for the instruction's end takes
place (R326). -/
def State.chanGoesTo (s : State) (c : Nat) (a : HostAddr) (jump : Bool) : State :=
  let old := (s.chan c).pc
  let s := s.updChan c fun x => { x with pc := a, st := .running, xfer := none, buf := [], failAt := none, waitFor := none,
                                         waitUs := 0, waitAt := 0 }
  if (s.chan c).stopping == some false then s.haltChan c 6
  else if jump || old.toNat / 64 != a.toNat / 64 then s.readLine c else s

/-- The instruction is done and the next one follows it. -/
def State.chanNext (s : State) (c : Nat) : State := s.chanGoesTo c ((s.chan c).pc + 16) false

/-- R324, R325: a program starts at `a`: reason none, counters inactive. The manual gives its cursors no value (log
entry 50). -/
def State.startProgram (s : State) (c : Nat) (a : HostAddr) (prio : BitVec 2) : State :=
  let (src, s) := s.takeFree 57
  let (dst, s) := s.takeFree 57
  let s := (s.orphan c).updChan c fun x =>
    { x with pc := a, prio := prio, st := .running, reason := 0, active0 := false, active1 := false, src := src, dst := dst,
             xfer := none, buf := [], failAt := none, waitFor := none, waitUs := 0, waitAt := 0, stopping := none }
  s.readLine c

/-- R57: the armed program of a channel, noted as unit 32 + c, becomes the one that runs. -/
def State.shadowRuns (s : State) (c : Nat) : State :=
  let s := s.endBackground 2 c
  { s with pm := { s.pm with background := s.pm.background.map fun b => if b.2.1 == 2 && b.2.2 == 32 + c then (b.1, b.2.1, c) else b } }

/-- R325: the armed shadow is taken. -/
def State.takeShadow (s : State) (c : Nat) : State :=
  let x := s.chan c
  let s := s.shadowRuns c
  (s.updChan c fun x => { x with armed := false }).startProgram c x.shadow x.shadowPrio

/-- R324, R325: the program has ended at an END word. -/
def State.programEnds (s : State) (c : Nat) : State :=
  let s := if (s.chan c).irqEnd then s.fireVector (s.chan c).vector.toNat else s
  if (s.chan c).armed then (s.updChan c fun x => { x with hoEnd := true }).takeShadow c
  else (s.updChan c fun x => { x with st := .idle, reason := 1, line := none, xfer := none, stopping := none }).endBackground 2 c

/-- R328: the read of the END word that a doorbell has made necessary. -/
def State.rereadEnd (s : State) (c : Nat) : State :=
  let x := s.chan c
  (s.updChan c fun x => { x with reread := false, xfer := some .reread }).sendReq
    { addr := x.endAt, len := 16, owner := .chanReread c, tries := x.retries.toNat, chan := some c }

/-! ### MOVE, FILL, COMPARE -/

/-- R315, R322: the H point of floor(Y / 2) bytes and the F point, once they have been reached. -/
def State.pointsReached (s : State) (c : Nat) (x : Span) : Span × State :=
  let vec := (s.chan c).vector.toNat
  let atHalf := x.h && decide (x.total / 2 ≤ x.done)
  let atFull := x.f && decide (x.total ≤ x.done)
  let s := if atHalf then (s.updChan c fun y => { y with half := true }).fireVector vec else s
  let s := if atFull then (s.updChan c fun y => { y with full := true }).fireVector vec else s
  ({ x with h := x.h && !atHalf, f := x.f && !atFull }, s)

/-- The bytes of a pattern at a fabric address (R315). -/
def patternBytes (x : Word) (a n : Nat) : List Byte := (List.range n).map fun i => fld x (8 * ((a + i) % 4)) 8

/-- Where the bytes that COMPARE reads at SRC stand in the buffer, above those at DST. -/
def srcArea : Nat := 0x1000000

/-- The fabric addresses of byte `o` of the instruction, from the cursors at byte `done`. -/
def Chan.srcOf (x : Chan) (sp : Span) (o : Nat) : Nat := (x.src + BitVec.ofNat 57 (o - sp.done)).toNat
def Chan.dstOf (x : Chan) (sp : Span) (o : Nat) : Nat := (x.dst + BitVec.ofNat 57 (o - sp.done)).toNat

/-- The `n` bytes of the buffer from `key` on. -/
def Chan.bufBytes (x : Chan) (key n : Nat) : List Byte := (List.range n).map fun i => Tab.get 0 x.buf (key + i)

/-- Bytes below byte `n` of the instruction have left the buffer. -/
def Chan.freeBelow (x : Chan) (n : Nat) : Chan := { x with buf := x.buf.filter fun kv => decide (n ≤ kv.1 % srcArea) }

/-- The bytes of the instruction before the first that failed. -/
def Chan.limit (x : Chan) (n : Nat) : Nat := match x.failAt with | some o => min o n | none => n

/-- MOVE reads on, as far as the 4 KiB of the funnel buffer go (R316, R321). -/
def State.moveReads (s : State) (c : Nat) (x : Span) : State :=
  let a := (s.chan c).srcOf x x.asked
  let l := nextAccesses a (x.total - x.asked) (4096 - (x.asked - x.issued))
  (s.updChan c fun y => { y with xfer := some (.move { x with asked := x.asked + accessBytes l }) }).chanReads c a x.asked l

/-- MOVE writes what it has read: the accesses of R320 that are complete; before a byte that failed, all that lies before it. -/
def State.moveWrites (s : State) (c : Nat) (x : Span) : Option State :=
  let ch := s.chan c
  let stop := ch.limit x.asked
  let a := ch.dstOf x x.issued
  let l := nextAccesses a ((if ch.failAt.isSome then stop else x.total) - x.issued) (stop - x.issued)
  let n := accessBytes l
  if n = 0 then none
  else some ((s.updChan c fun y => { y.freeBelow (x.issued + n) with xfer := some (.move { x with issued := x.issued + n }) }).chanWrites c a
    x.issued (ch.bufBytes x.issued n) true l)

/-- FILL writes on, 4 KiB at a time. -/
def State.fillWrites (s : State) (c : Nat) (v : Word) (x : Span) : State :=
  let a := (s.chan c).dstOf x x.issued
  let l := nextAccesses a (x.total - x.issued) 4096
  let n := accessBytes l
  (s.updChan c fun y => { y with xfer := some (.fill v { x with issued := x.issued + n }) }).chanWrites c a x.issued (patternBytes v a n)
    true l

/-- COMPARE reads on at DST and, without a pattern, at SRC. -/
def State.compareReads (s : State) (c : Nat) (v : Option Word) (cont : Bool) (x : Span) (seen : Bool) : State :=
  let ch := s.chan c
  let a := ch.dstOf x x.asked
  let l := nextAccesses a (x.total - x.asked) (4096 - (x.asked - x.done))
  let b := ch.srcOf x x.issued
  let m := if v.isSome then [] else nextAccesses b (x.total - x.issued) (4096 - (x.issued - x.done))
  let y : Span := { x with asked := x.asked + accessBytes l, issued := x.issued + accessBytes m }
  ((s.updChan c fun z => { z with xfer := some (.compare v cont y seen) }).chanReads c a x.asked l).chanReads c b (srcArea + x.issued) m

/-- Both cursors advance. -/
def State.advanceCursors (s : State) (c n : Nat) : State :=
  s.updChan c fun x => { x with src := x.src + BitVec.ofNat 57 n, dst := x.dst + BitVec.ofNat 57 n }

/-- The first offset at which two byte lists differ. -/
def firstDiff : List Byte → List Byte → Nat → Option Nat
  | a :: as, b :: bs, k => if a = b then firstDiff as bs (k + 1) else some k
  | _, _, _ => none

/-- R315: bytes of COMPARE have been read. On a halting mismatch the manual gives the cursors no value (log entry 50). -/
def State.compareOn (s : State) (c : Nat) (v : Option Word) (cont : Bool) (x : Span) (seen : Bool) : State :=
  let ch := s.chan c
  let n := ch.limit (if v.isSome then x.asked else min x.asked x.issued) - x.done
  let want := match v with | some w => patternBytes w ch.dst.toNat n | none => ch.bufBytes (srcArea + x.done) n
  let diff := firstDiff (ch.bufBytes x.done n) want 0
  let s := match diff with
    | some k => s.updChan c fun y => { y with mismatch := true, cmp := if seen then y.cmp else ch.dst + BitVec.ofNat 57 k }
    | none => s
  if diff.isSome && !cont then
    let (src, s) := s.takeFree 57
    let (dst, s) := s.takeFree 57
    (s.updChan c fun y => { y with src := src, dst := dst }).haltChan c 3
  else
    let y : Span := { x with done := x.done + n }
    let s := (s.advanceCursors c n).updChan c fun z => z.freeBelow y.done
    if ch.failAt.isSome then s.haltChan c 2
    else if x.total ≤ y.done then s.chanNext c
    else s.compareReads c v cont y (seen || diff.isSome)

/-- Every access that the channel's instruction has issued has been answered: what follows. -/
def State.chanProgress (s : State) (c : Nat) : State :=
  let x := s.chan c
  if !s.dmaRuns || x.st != .running || s.chanBusy c then s
  else if x.stopping == some true then s.haltChan c (if x.failAt.isSome then 2 else 6)
  else match x.xfer with
    | some (.move y) =>
      (match s.moveWrites c y with
        | some t => t
        | none => if x.failAt.isSome then s.haltChan c 2 else if y.total ≤ y.issued then s.chanNext c else s.moveReads c y)
    | some (.fill v y) =>
      if x.failAt.isSome then s.haltChan c 2 else if y.total ≤ y.issued then s.chanNext c else s.fillWrites c v y
    | some (.compare v k y seen) => s.compareOn c v k y seen
    | some (.signal fire) => (match fire with | some v => s.fireVector v.toNat | none => s).chanNext c
    | _ => s

/-- R315: the address goes to SRC, to DST or to neither; none for a code the table does not allow. -/
def loadCursor (code : BitVec 2) (a : HostAddr) (x : Chan) : Option Chan :=
  match code.toNat with | 0 => some { x with src := a } | 1 => some { x with dst := a } | 2 => some x | _ => none

/-- The channel is at an instruction boundary of a running program, and its next instruction, as its line was read, has that opcode
(R314, R328). -/
def State.chanReady (s : State) (c : Nat) (op : BitVec 4) (w : ChIns) : Bool :=
  s.dmaRuns && decide (c < 28) && (s.chan c).st == .running && (s.chan c).xfer.isNone && (s.chan c).next == some (op, w)

/-- A transfer instruction begins: its cursor is loaded, and its points at byte 0 are taken. Flags the table does not allow halt it. -/
def State.beginXfer (s : State) (c : Nat) (w : ChIns) (allowed : Bool) (h f : Bool) (x : Span → Xfer) : State :=
  match if allowed then loadCursor (fld w.flags 0 2) w.addr (s.chan c) else none with
  | some ch =>
    let (sp, s) := (s.setChan c ch).pointsReached c { total := w.y.toNat, h := h, f := f }
    (s.updChan c fun y => { y with xfer := some (x sp) }).chanProgress c
  | none => s.haltChan c 5

/-- MOVE. -/
def State.chanMove (s : State) (c : Nat) (w : ChIns) : State :=
  if s.chanReady c 1 w then s.beginXfer c w true (bitOf w.flags 3) (bitOf w.flags 2) .move else s

/-- MOVE: the channel's next instruction, as its program read returned it. -/
def execMove (c : BitVec 5) (w : ChIns) (s : State) : Host.Outcome State Fault Refusal := .next (s.chanMove c.toNat w)

/-- FILL. -/
def State.chanFill (s : State) (c : Nat) (w : ChIns) : State :=
  if s.chanReady c 2 w then s.beginXfer c w (fld w.flags 0 2 != 0) (bitOf w.flags 3) (bitOf w.flags 2) (.fill w.x) else s

/-- FILL. -/
def execFill (c : BitVec 5) (w : ChIns) (s : State) : Host.Outcome State Fault Refusal := .next (s.chanFill c.toNat w)

/-- COMPARE. -/
def State.chanCompare (s : State) (c : Nat) (w : ChIns) : State :=
  if s.chanReady c 3 w then
    s.beginXfer c w true false false fun x => .compare (if bitOf w.flags 3 then some w.x else none) (bitOf w.flags 2) x false
  else s

/-- COMPARE. -/
def execCompare (c : BitVec 5) (w : ChIns) (s : State) : Host.Outcome State Fault Refusal := .next (s.chanCompare c.toNat w)

/-! ### LOOP, WAIT, SIGNAL, LINK, NOP, END -/

/-- R317: one loop counter: whether the program jumps. -/
def loopStep (active : Bool) (lc count : BitVec 24) : Bool × Bool × BitVec 24 :=
  let lc := if active then lc else count
  if count = 0 then (true, true, lc)
  else if lc - 1 != 0 then (true, true, lc - 1) else (false, false, lc - 1)

/-- LOOP (R317). -/
def State.chanLoop (s : State) (c : Nat) (w : ChIns) : State :=
  if !s.chanReady c 4 w then s
  else if w.addr.toNat % 16 != 0 then s.haltChan c 5
  else
    let x := s.chan c
    let one := bitOf w.flags 0
    let (jump, active, lc) := if one then loopStep x.active1 x.lc1 w.y else loopStep x.active0 x.lc0 w.y
    let s := s.setChan c (if one then { x with active1 := active, lc1 := lc } else { x with active0 := active, lc0 := lc })
    if jump then s.chanGoesTo c w.addr true else s.chanNext c

/-- LOOP. -/
def execLoop (c : BitVec 5) (w : ChIns) (s : State) : Host.Outcome State Fault Refusal := .next (s.chanLoop c.toNat w)

/-- WAIT (R318). -/
def State.chanWait (s : State) (c : Nat) (w : ChIns) : State :=
  if !s.chanReady c 5 w then s
  else match (fld w.flags 0 2).toNat with
    | 0 =>
      if w.x = 0 then s.chanNext c
      else s.updChan c fun x => { x with st := .waiting, waitFor := none, waitUs := w.x.toNat, waitAt := s.clock }
    | 1 =>
      let x := s.chan c
      if w.y.toNat ≤ x.credits.toNat then (s.setChan c { x with credits := x.credits - w.y.setWidth 8 }).chanNext c
      else s.setChan c { x with st := .waiting, waitFor := some w.y.toNat, waitUs := w.x.toNat, waitAt := s.clock }
    | _ => s.haltChan c 5

/-- WAIT. -/
def execWait (c : BitVec 5) (w : ChIns) (s : State) : Host.Outcome State Fault Refusal := .next (s.chanWait c.toNat w)

/-- DMA_WAIT_TIME_END: the X µs of a WAIT of kind 0b00 have passed (R318). -/
def execDmaWaitTimeEnd (c : BitVec 5) (s : State) : Host.Outcome State Fault Refusal :=
  let x := s.chan c.toNat
  .next (if s.dmaRuns && x.st == .waiting && x.waitFor.isNone && s.usPassed x.waitUs x.waitAt then s.chanNext c.toNat else s)

/-- DMA_WAIT_TIMEOUT: the X µs of a WAIT for credits have passed (R318). -/
def execDmaWaitTimeout (c : BitVec 5) (s : State) : Host.Outcome State Fault Refusal :=
  let x := s.chan c.toNat
  .next (if s.dmaRuns && x.st == .waiting && x.waitFor.isSome && x.waitUs != 0 && s.usPassed x.waitUs x.waitAt then s.haltChan c.toNat 4
    else s)

/-- SIGNAL: a write, then the vector (R315). -/
def State.chanSignal (s : State) (c : Nat) (w : ChIns) : State :=
  if !s.chanReady c 6 w then s
  else if w.addr.toNat % 4 != 0 then s.haltChan c 5
  else
    let fire := if bitOf w.flags 2 then some (fld w.y 0 11) else none
    if bitOf w.flags 3 then
      (s.updChan c fun x => { x with xfer := some (.signal fire) }).chanWrites c w.addr.toNat 0 (leBytes 4 w.x.toNat) false
        (nextAccesses w.addr.toNat 4 4)
    else (match fire with | some v => s.fireVector v.toNat | none => s).chanNext c

/-- SIGNAL of a channel. -/
def execDmaSignal (c : BitVec 5) (w : ChIns) (s : State) : Host.Outcome State Fault Refusal := .next (s.chanSignal c.toNat w)

/-- LINK. -/
def State.chanLink (s : State) (c : Nat) (w : ChIns) : State :=
  if !s.chanReady c 7 w then s
  else if w.addr.toNat % 16 != 0 then s.haltChan c 5
  else s.chanGoesTo c w.addr true

/-- LINK. -/
def execLink (c : BitVec 5) (w : ChIns) (s : State) : Host.Outcome State Fault Refusal := .next (s.chanLink c.toNat w)

/-- NOP, and the opcodes above it, which are illegal (R315). -/
def State.chanNop (s : State) (c : Nat) (op : BitVec 4) (w : ChIns) : State :=
  if !s.chanReady c op w || decide (op.toNat < 8) then s
  else if op = 8 then s.chanNext c else s.haltChan c 5

/-- NOP of a channel. -/
def execDmaNop (c : BitVec 5) (op : BitVec 4) (w : ChIns) (s : State) : Host.Outcome State Fault Refusal :=
  .next (s.chanNop c.toNat op w)

/-- END (R324, R325, R328). -/
def State.chanEnd (s : State) (c : Nat) (w : ChIns) : State :=
  if !s.chanReady c 0 w then s
  else
    let s := s.updChan c fun x => { x with endAt := x.pc, endValid := true }
    if (s.chan c).reread then s.rereadEnd c else s.programEnds c

/-- END. -/
def execEndProg (c : BitVec 5) (w : ChIns) (s : State) : Host.Outcome State Fault Refusal := .next (s.chanEnd c.toNat w)

/-- R328: the re-read has returned a LINK to `target`, or an END. A further doorbell since its issue causes another. -/
def State.rereadDone (s : State) (c : Nat) (isLink : Bool) (target : HostAddr) : State :=
  let x := s.chan c
  if !s.dmaRuns || x.xfer != some .reread then s
  else if isLink then
    if target.toNat % 16 != 0 then (s.updChan c fun x => { x with pc := x.endAt }).haltChan c 5
    else s.chanGoesTo c target true
  else if x.reread then s.rereadEnd c
  else if x.st = .running then s.programEnds c
  else s.updChan c fun x => { x with reason := 1, xfer := none }

/-- END_REREAD: the answer to a channel's re-read. -/
def execEndReread (c : BitVec 5) (isLink : Bool) (target : HostAddr) (s : State) : Host.Outcome State Fault Refusal :=
  let mine (r : Req) : Bool := r.owner == .chanReread c.toNat
  .next (if s.dmaRuns && (s.chan c.toNat).xfer == some .reread then
      (s.setDma { s.dma with reqs := dropFirst mine s.dma.reqs, backlog := dropFirst mine s.dma.backlog }).rereadDone c.toNat
        isLink target
    else s)

/-- DMA_IDLE_CHECK (R325). -/
def State.idleCheck (s : State) (c : Nat) : State :=
  let x := s.chan c
  if s.dmaRuns && x.st == .idle && x.armed && x.xfer.isNone then (s.updChan c fun x => { x with hoIdle := true }).takeShadow c
  else s

/-- DMA_IDLE_CHECK. -/
def execDmaIdleCheck (c : BitVec 5) (s : State) : Host.Outcome State Fault Refusal := .next (s.idleCheck c.toNat)

/-! ### Doorbells (R318, R319, R328) -/

/-- Credits have come: a WAIT that they satisfy ends. -/
def State.creditsCome (s : State) (c : Nat) : State :=
  let x := s.chan c
  match x.st, x.waitFor with
  | .waiting, some n =>
    if n ≤ x.credits.toNat then (s.setChan c { x with credits := x.credits - BitVec.ofNat 8 n }).chanNext c else s
  | _, _ => s

/-- R328: what a doorbell does to an END word. -/
def State.bellRings (s : State) (c : Nat) : State :=
  let x := s.chan c
  if x.armed then s
  else match x.st with
    | .idle =>
      if !x.endValid then s
      else if x.xfer == some .reread then s.updChan c fun x => { x with reread := true } else s.rereadEnd c
    | .halted => s
    | _ => s.updChan c fun x => { x with reread := true }

/-- The word address of a DMA doorbell (R319, R492). -/
def bellAddr (c : Nat) : Nat := 0x40001000 + c

/-- A write of a DMA doorbell: dropped and logged for the internal channels (R319, R493), and while DMA is asleep (R376). -/
def State.dmaBell (s : State) (c : Nat) (w : Word) : State :=
  if 28 ≤ c then s.logAccess 4 (BitVec.ofNat 34 (bellAddr c))
  else if !s.isOn dDMA then s.logAsleep true (BitVec.ofNat 32 (bellAddr c))
  else ((s.updChan c fun x => { x with credits := satAdd x.credits (fld w 0 8).toNat }).bellRings c).creditsCome c

/-- DMA_DOORBELL. -/
def execDmaDoorbell (c : BitVec 5) (w : Word) (s : State) : Host.Outcome State Fault Refusal := .next (s.dmaBell c.toNat w)

/-! ### Answers of the fabric (R323) -/

/-- Bytes into the buffer from an offset on. -/
def putBytes (t : Tab Byte) (off : Nat) : List Byte → Tab Byte
  | [] => t
  | b :: bs => putBytes (Tab.put 0 t off b) (off + 1) bs

/-- Data of a channel's read. -/
def State.chanData (s : State) (c off : Nat) (bs : List Byte) : State :=
  (s.updChan c fun x => { x with buf := putBytes x.buf off bs }).chanProgress c

/-- R328: a line of the program has been read. -/
def State.lineDone (s : State) (c : Nat) (bs : List Byte) : State := s.updChan c fun x => { x with line := some bs }

/-- The first byte that failed is at an offset of the instruction, unless one before it has failed already. Accesses of the channel that
have not been made are not made any more. -/
def State.failsAt (s : State) (c off : Nat) : State :=
  let s := s.updChan c fun x => { x with failAt := some (x.limit off) }
  s.setDma { s.dma with backlog := s.dma.backlog.filter fun r => match r.owner with
    | .chanWrite d o => d != c || decide (o < off)
    | _ => true }

/-- A read has failed after its retries: what lies before it is still moved or compared. -/
def State.chanReadFails (s : State) (c key : Nat) : State := (s.failsAt c (key % srcArea)).chanProgress c

/-- The offset of a write of channel c in its instruction; `d` for any other request. -/
def Req.writeAt (c d : Nat) (r : Req) : Nat := match r.owner with | .chanWrite e o => if e = c then o else d | _ => d

/-- The bytes of an instruction before the first that has not been written. -/
def State.writtenTo (s : State) (c : Nat) (x : Span) : Nat :=
  (s.dma.reqs ++ s.dma.backlog).foldl (fun m r => min m (r.writeAt c m)) ((s.chan c).limit x.issued)

/-- R322, R323: the cursors follow the bytes that have been written, and the points among them are taken. -/
def State.spanWritten (s : State) (c : Nat) (x : Span) (mk : Span → Xfer) : State :=
  let n := s.writtenTo c x
  let (y, s) := (s.advanceCursors c (n - x.done)).pointsReached c { x with done := max x.done n }
  s.updChan c fun z => { z with xfer := some (mk y) }

/-- A write of a channel has been answered. -/
def State.chanWritten (s : State) (c : Nat) : State :=
  (match (s.chan c).xfer with
    | some (.move x) => s.spanWritten c x .move
    | some (.fill v x) => s.spanWritten c x (.fill v)
    | _ => s).chanProgress c

/-- A write has failed after its retries: once the writes before it have been answered the cursors hold the first byte of the access.
SIGNAL uses no cursor. -/
def State.chanWriteFails (s : State) (c off : Nat) : State :=
  match (s.chan c).xfer with
  | some (.signal _) => s.haltChan c 2
  | _ => (s.failsAt c off).chanWritten c

/-- R323: a program read or a re-read has failed. -/
def State.chanFetchFails (s : State) (c : Nat) : State :=
  if (s.chan c).xfer == some .reread then (s.updChan c fun x => { x with pc := x.endAt }).haltChan c 2
  else if (s.chan c).st == .running || (s.chan c).st == .waiting then s.haltChan c 2 else s

/-! ### DMARUN and DMASTOP (R313, R324 to R326) -/

/-- A program of the channel runs, waits or is armed. -/
def Chan.inUse (c : Chan) : Bool := c.st == .running || c.st == .waiting || c.armed

/-- DMARUN's operands. -/
def dmarunOk (i : Ins) : Bool := targetBelow i 28 && hostAddrOk i.b 16

/-- DMARUN with A[8] = 0. -/
def runDmarun (_ : Nat) (queue : BitVec 16) (i : Ins) (s : State) : Ran :=
  let c := i.target.toNat
  if !dmarunOk i || (s.chan c).inUse then .bad .badOperand s
  else if !s.isOn dDMA then .bad .targetAsleep s
  else if !(s.chan c).isIdle then .bad .badOperand s
  else .ok 0 0 ((s.startProgram c (i.b.setWidth 57) (fld i.a 0 2)).beginBackground queue 2 c)

/-- DMARUN. -/
def execDmarun (q : QId) (i : Ins) (s : State) : Host.Outcome State Fault Refusal := begins q 0x70 (!bitOf i.a 8) i runDmarun s

/-- DMARUN with A[8] = 1: the shadow and ARM. -/
def runDmarunArm (_ : Nat) (queue : BitVec 16) (i : Ins) (s : State) : Ran :=
  let c := i.target.toNat
  if !dmarunOk i || (s.chan c).armed then .bad .badOperand s
  else if !s.isOn dDMA then .bad .targetAsleep s
  else
    .ok 0 0 ((s.updChan c fun x => { x with shadow := i.b.setWidth 57, shadowPrio := fld i.a 0 2, armed := true }).beginBackground queue 2
      (32 + c))

/-- DMARUN_ARM. -/
def execDmarunArm (q : QId) (i : Ins) (s : State) : Host.Outcome State Fault Refusal :=
  begins q 0x70 (bitOf i.a 8) i runDmarunArm s

/-- R326: a stop at the next beat: what has crossed the port is written, and then the channel halts; the rest of the buffer is not
written. -/
def State.stopNow (s : State) (c : Nat) : State :=
  let cut (x : Span) : Span :=
    { x with issued := s.dma.backlog.foldl (fun m r => min m (r.writeAt c m)) x.issued }
  let xfer := match (s.chan c).xfer with
    | some (.move x) => some (Xfer.move (cut x))
    | some (.fill v x) => some (.fill v (cut x))
    | x => x
  let reading (r : Req) : Bool := r.ofChan c && !r.isWrite
  let s := s.setDma { s.dma with backlog := s.dma.backlog.filter fun r => !r.ofChan c,
                                 reqs := s.dma.reqs.map fun r => if reading r then { r with owner := .none } else r }
  (s.updChan c fun x => { x with xfer := xfer, stopping := some true }).chanWritten c

/-- DMASTOP waits for the end of the channel's instruction, or of its beat; its result is the status after the stop. -/
def stepDmastop (i : Ins) (s : State) : Ran :=
  let x := s.chan i.target.toNat
  if s.isOn dDMA && x.stopping.isSome && x.st == .running then .wait .dmastop s else .ok (z64 (chStatusWord x)) 0 s

/-- DMASTOP (R326). -/
def runDmastop (_ : Nat) (_ : BitVec 16) (i : Ins) (s : State) : Ran :=
  let c := i.target.toNat
  if !targetBelow i 28 then .bad .badOperand s
  else if !s.isOn dDMA then .bad .targetAsleep s
  else
    let s := (s.updChan c fun x => { x with armed := false }).endBackground 2 (32 + c)
    let x := s.chan c
    stepDmastop i (match x.st with
      | .running =>
        if bitOf i.a 0 then s.stopNow c
        else if x.xfer.isNone then s.haltChan c 6
        else s.updChan c fun x => { x with stopping := some false }
      | .waiting => s.haltChan c 6
      | _ => s)

/-- DMASTOP. -/
def execDmastop (q : QId) (i : Ins) (s : State) : Host.Outcome State Fault Refusal := begins q 0x71 true i runDmastop s

end Machine
end Sys2Proof
end

