-- ==== Sys2Proof/Machine/OpenCode.lean ====
section
/-! DEFINITION. Open microcode (R339 to R346): the micro-engine's registers and operations, the step of an open routine, and the
instructions it may invoke. -/

namespace Sys2Proof
namespace Machine

/-- The micro-engine within a step. `after` is the state with the step's effects so far, which its commit releases (R342);
`pc` the word to execute next. -/
structure Micro where
  g : List DWord
  f : ZNC := {}
  pc : BitVec 16
  /-- Effects buffered in this step (R345). -/
  effects : Nat := 0
  /-- The parameter words the step has read (R342), and what its invoked instructions of several steps have answered. -/
  params : List (Nat × DWord) := []
  answers : List (Nat × Status × DWord) := []
  after : State

/-- Register n; g0 reads 0 (R340). -/
def Micro.reg (m : Micro) (n : BitVec 4) : DWord := if n = 0 then 0 else m.g.getD n.toNat 0
/-- A write of a register; g0 discards it. -/
def Micro.setReg (m : Micro) (n : BitVec 4) (v : DWord) : Micro := { m with g := if n = 0 then m.g else m.g.set n.toNat v }

/-- How a step's run ends. -/
inductive MicroEnd where
  /-- COMMIT; the next word. -/
  | commit (m : Micro)
  /-- DONE. -/
  | done (st : Status) (a b : DWord) (m : Micro)
  /-- A fault of R345 at a word. -/
  | fault (reason : BitVec 4) (word : BitVec 16)
  /-- The routine ends with a status; the step's effects are dropped. -/
  | ends (st : Status) (b : DWord)
  /-- A host read is needed. -/
  | needs (a : HostAddr) (m : Micro)
  /-- An invoked instruction takes steps of its own. -/
  | begins (op : Byte) (i : Ins) (m : Micro)
  /-- A word with a parity error has been fetched (R352). -/
  | parity (word : Nat)

/-- What one operation does. -/
inductive MicroDone where
  | next (m : Micro)
  | stop (e : MicroEnd)

/-- R346: the opcodes INVOKE accepts. -/
def invokable (op : Byte) : Bool :=
  let n := op.toNat
  n == 0x01 || n == 0x02 || n == 0x07 || n == 0x20 || n == 0x31 || n == 0x51 || n == 0x52 || n == 0x61 || n == 0x70 || n == 0x71
    || n == 0x82 || n == 0x83

/-- The invoked instructions' meanings. -/
def runInvoked (op : Byte) (jid : Nat) (queue : BitVec 16) (i : Ins) (s : State) : Ran :=
  match op.toNat with
  | 0x01 => runSet jid queue i s
  | 0x02 => runGet jid queue i s
  | 0x07 => runSignal jid queue i s
  | 0x20 => runPortcfg jid queue i s
  | 0x31 => runEpoch jid queue i s
  | 0x51 => runTimeadj jid queue i s
  | 0x52 => runTimestep jid queue i s
  | 0x61 => runKeyretire jid queue i s
  | 0x70 => if bitOf i.a 8 then runDmarunArm jid queue i s else runDmarun jid queue i s
  | 0x71 => runDmastop jid queue i s
  | 0x82 => if fld i.a 0 8 == 0 then runHintCancel jid queue i s else runHint jid queue i s
  | _ => runCapset jid queue i s

/-- The instruction of INVOKE (R340). -/
def Micro.invoked (m : Micro) (a b : DWord) : Byte × Ins :=
  insOfEntry ((m.reg 7 ++ m.reg 6 ++ (m.reg 5 ++ m.reg 4) ++ a ++ b : BitVec 384).setWidth 512)

/-- The answer of INVOKE (R340). -/
def Micro.answer (m : Micro) (d : BitVec 4) (st : Status) (v : DWord) (s : State) : Micro :=
  let m := { m with after := s, f := { m.f with c := decide (st ≠ Status.ok) } }
  m.setReg d (if st = Status.ok then v else z64 st.code)

/-- R346: INVOKE. An instruction that takes steps of its own is carried through before the step goes on (log entry 48). -/
def Micro.invoke (m : Micro) (jid : Nat) (queue : BitVec 16) (d : BitVec 4) (a b : DWord) : MicroDone :=
  let (op, i) := m.invoked a b
  match m.answers.find? fun x => x.1 == m.effects with
  | some (_, st, v) => .next (m.answer d st v m.after)
  | none =>
    if !invokable op then .stop (.fault 5 m.pc)
    else match preCheck m.after op queue i with
      | some st => .next (m.answer d st 0 m.after)
      | none =>
        if i.s then .next (m.answer d .badOperand 0 m.after)
        else match runInvoked op jid queue i m.after with
          | .done st v _ s => .next (m.answer d st v s)
          | _ => .stop (.begins op i m)

/-- Z of a value alone. -/
def ZNC.setZ (f : ZNC) (v : DWord) : ZNC := { f with z := v = 0 }

/-- The statuses DONE may carry (R345). -/
def doneStatus (c : Byte) : Option Status :=
  if c = 0x00 then some .ok else if c = 0x11 then some .badOperand else if c = 0x12 then some .targetAsleep
  else if c = 0x21 then some .compareMismatch else if c = 0x22 then some .timeout else none

/-- R340: PSET, under the rules of SET. -/
def Micro.pset (m : Micro) (addr mask v : Word) : MicroDone :=
  if !permits 0x01 {} m.after.top.mode then .stop (.ends .modeForbids 0)
  else match setCheck m.after addr.toNat mask v with
    | some st => .stop (.ends st 0)
    | none => .next { m with after := m.after.applySet addr.toNat mask v }

/-- R340: PGET reads the value from before the step, the same in every run of it (R342); a read's side effects are the step's. An unmapped word is
BAD_OPERAND (R493). -/
def Micro.pget (m : Micro) (before : State) (d : BitVec 4) (addr : Word) : MicroDone :=
  match describe before addr.toNat with
  | none => .stop (.ends .badOperand 0)
  | some desc =>
    if !before.regionOn addr.toNat then .stop (.ends .targetAsleep 0)
    else
      let v := match m.params.find? fun x => x.1 == addr.toNat with
        | some x => x.2
        | none => z64 (before.readMapped .postmaster desc addr.toNat).1
      let after := match describe m.after addr.toNat with
        | some x => (m.after.readMapped .postmaster x addr.toNat).2
        | none => m.after
      .next { (m.setReg d v) with f := m.f.setZ v, after := after, params := (addr.toNat, v) :: m.params }

/-- One operation (R340). The effects of R345 count before they are buffered, and HWRITE and FIRE as emissions (R344). -/
def Micro.operate (m : Micro) (before : State) (jid : Nat) (queue : BitVec 16) (host : List (Nat × Option DWord)) (w : QWord) :
    MicroDone :=
  let op := (fld w 122 6).toNat
  let d := fld w 118 4
  let a := m.reg (fld w 114 4)
  let b := if bitOf w 109 then fld w 0 64 else m.reg (fld w 110 4)
  let res (v : DWord) (f : ZNC) : MicroDone := .next { (m.setReg d v) with f := f }
  let plain (v : DWord) : MicroDone := res v (m.f.ofResult v)
  let at8 : HostAddr := a.setWidth 57
  let buffer (k : Micro → MicroDone) : MicroDone :=
    if 64 ≤ m.effects then .stop (.fault 4 m.pc) else k { m with effects := m.effects + 1 }
  match op with
  | 0x00 => .next m
  | 0x01 => res (a + b) (ZNC.ofAdd a b)
  | 0x02 => res (a - b) (ZNC.ofSub a b)
  | 0x03 => plain (a &&& b)
  | 0x04 => plain (a ||| b)
  | 0x05 => plain (a ^^^ b)
  | 0x06 => plain (a <<< (b.toNat % 64))
  | 0x07 => plain (a >>> (b.toNat % 64))
  | 0x08 => plain b
  | 0x10 => m.pget before d (a.setWidth 32)
  | 0x11 => buffer fun m => m.pset (a.setWidth 32) ((m.reg d).setWidth 32) (b.setWidth 32)
  | 0x12 =>
    if at8.toNat % 8 != 0 then .stop (.fault 6 m.pc)
    else match host.find? (fun kv => kv.1 == at8.toNat) with
      | some (_, some v) => .next { (m.setReg d v) with f := m.f.setZ v }
      | some (_, none) => .stop (.ends .dmaBusError (m.reg 15))
      | none => .stop (.needs at8 m)
  | 0x13 =>
    if at8.toNat % 8 != 0 then .stop (.fault 6 m.pc)
    else buffer fun m => .next { m with after := (m.after.queueWrite at8 (leBytes 8 b.toNat) false .none).countEmission jid }
  | 0x14 => buffer fun m => .next { m with after := (m.after.fireVector (fld b 0 11).toNat).countEmission jid }
  | 0x18 => buffer fun m => m.invoke jid queue d a b
  | 0x20 => .stop (.commit (m.setReg 14 (m.reg 14 + 1)))
  | 0x21 => (match doneStatus (b.setWidth 8) with
    | some st => .stop (.done st a (z64 (fld (m.reg d) 0 56)) m)
    | none => .stop (.fault 2 m.pc))
  | _ => .stop (.fault 2 m.pc)

/-- The words an open routine may fetch (R345). -/
def openWord (n : BitVec 16) : Bool := decide (0xE009 ≤ n.toNat) && decide (n.toNat ≤ 0xFDEF)

/-- R339: the word that follows. -/
def Micro.goesOn (m : Micro) (w : QWord) : Micro :=
  { m with pc := if (condHolds (fld w 105 4) m.f).getD false then fld w 80 16 else m.pc + 1 }

/-- The words of a step, at most `fuel` of them (R345). -/
def Micro.run (before : State) (jid : Nat) (queue : BitVec 16) (host : List (Nat × Option DWord)) : Nat → Micro → MicroEnd
  | 0, m => .fault 3 m.pc
  | fuel + 1, m =>
    if !openWord m.pc then .fault 1 m.pc
    else if before.cs.badWords.contains m.pc.toNat then .parity m.pc.toNat
    else
      let w := before.cs.word m.pc.toNat
      if (condHolds (fld w 105 4) m.f).isNone then .fault 2 m.pc
      else match m.operate before jid queue host w with
        | .next m => Micro.run before jid queue host fuel (m.goesOn w)
        | .stop (.commit m) => .commit (m.goesOn w)
        | .stop e => e

/-- R341: the registers at step 0 and at a resume. -/
def openRegs (e : JEntry) (saved : List DWord) : List DWord :=
  let i := e.ins
  [0, z64 i.a, i.b, z64 i.target, fld i.e0 0 64, fld i.e0 64 64, fld i.e1 0 64, fld i.e1 64 64,
   at' 64 (flagsByte i) 0 ||| at' 64 (fld e.queue 0 12) 16 ||| at' 64 e.gen 32] ++ (List.range 7).map fun k => saved.getD k 0

/-- R341: what COMMIT saves: g9 to g13, and as the progress mark the 16 bits of g14 that it holds (R42) and g15[47:0]. -/
def savedRegs (g : List DWord) : List DWord :=
  (List.range 7).map fun k =>
    if k = 6 then z64 (fld (g.getD 15 0) 0 48) else if k = 5 then z64 (fld (g.getD 14 0) 0 16) else g.getD (9 + k) 0

/-- R345: an open routine's fault. -/
def State.openFault (s : State) (reason : BitVec 4) (op : Byte) (word : BitVec 16) : State :=
  s.setCs { s.cs with faultValid := true, faultReason := reason, faultOpcode := op, faultWord := word }

/-- The word at which an opcode's routine starts and resumes (R338). -/
def Cs.start (c : Cs) (op : Byte) : BitVec 16 := fld (c.dispatch op) 0 16

/-- The steps of an invoked instruction after its first (R346). -/
def SubRun.step (r : SubRun) (jid : Nat) (queue : BitVec 16) (i : Ins) (s : State) : Ran :=
  match r with
  | .epoch phase lead => stepEpoch jid queue i phase lead s
  | .keyretire n => stepKeyretire n s
  | .dmastop => stepDmastop i s
  | .signal => stepSignal jid queue i s

/-- Where an invoked instruction stands after a step of its own. -/
def Routine.sub : Routine → Option SubRun
  | .epoch phase lead => some (.epoch phase lead)
  | .keyretire n => some (.keyretire n)
  | .dmastop => some .dmastop
  | .signal => some .signal
  | _ => none

/-- After a step of the INVOKE numbered `n`: its answer is kept for the open step, or it goes on. -/
def OpenSt.invoked (o : OpenSt) (n : Nat) (i : Ins) : Ran → Ran
  | .done st a _ s => .wait (.openRun { o with sub := none, answers := o.answers ++ [(n, st, a)] }) s
  | .more r s => .wait (.openRun { o with sub := r.sub.map fun r => (n, i, r) }) s
  | .wait r s => .wait (.openRun { o with sub := r.sub.map fun r => (n, i, r) }) s
  | .release r s => .wait (.openRun { o with sub := r.sub.map fun r => (n, i, r) }) s

/-- R352: an open step has fetched a word with a parity error: a machine check, and the routine waits for its reload. -/
def State.openParity (s : State) (e : JEntry) (word : Nat) : State :=
  let s := { s with pm := { s.pm with mcheckCount := satInc s.pm.mcheckCount, lastOpcode := e.op } }
  let mine (r : Reload) : Bool := s.cs.visibleAt r.ovl r.word == some word
  let s := s.updEntry e.id fun e => { e with rolled := true }
  s.setCs { s.cs with reloads := updFirst mine (fun r => { r with waiters := r.waiters ++ [e.q] }) s.cs.reloads }

/-- A run of a step of an open routine as far as its reads have come. A routine that nothing has interrupted since its COMMIT
goes on behind it; another starts at its start word (R341, R52). A COMMIT releases the step's effects (R49). -/
def openRun (jid : Nat) (e : JEntry) (o : OpenSt) (s : State) : Ran :=
  let (g, pc) := o.cont.getD (openRegs e o.saved, s.cs.start e.op)
  match Micro.run s jid e.queue o.host 4096 { g := g, pc := pc, params := o.params, answers := o.answers, after := s } with
  | .commit m => .release (.openRun { saved := savedRegs m.g, released := some (m.g, m.pc) }) m.after
  | .done st a b m => .done st a b m.after
  | .fault r w => .bad .badOperand (s.openFault r e.op w)
  | .ends st b => .done st 0 b s
  | .needs a m =>
    let o := { o with params := m.params }
    match s.fetchHost jid a 8 with
    | .wait s => .wait (.openRun o) s
    | .data _ s => .wait (.openRun o) s
    | .failed _ s => .wait (.openRun o) s
  | .begins op i m => ({ o with params := m.params } : OpenSt).invoked m.effects i (runInvoked op jid e.queue i s)
  | .parity w => .wait (.openRun { saved := o.saved, answers := o.answers }) (s.openParity e w)

/-- A step of an open routine: first what its commit, its invoked instruction or its host read still owes. -/
def stepOpen (jid : Nat) (o : OpenSt) (s : State) : Ran :=
  match s.entry jid with
  | none => .bad .badOperand s
  | some e =>
    match o.released, o.sub with
    | some (g, pc), _ => .more (.openRun { saved := o.saved, cont := some (g, pc) }) s
    | none, some (n, i, r) => o.invoked n i (r.step jid e.queue i s)
    | none, none =>
      -- a routine that has yielded resumes at its start word (R44, R52)
      let o := if s.pm.burstOf = some jid then o else { o with cont := none }
      match e.rd with
      | none => openRun jid e o s
      | some r => match s.fetchHost jid r.base 8 with
        | .wait s => .wait (.openRun o) s
        | .data bs s => openRun jid e { o with host := o.host ++ [(r.base.toNat, some (BitVec.ofNat 64 (leNat bs)))] } s
        | .failed _ s => openRun jid e { o with host := o.host ++ [(r.base.toNat, none)] } s

/-- An open-region opcode: step 0, with g9 to g15 at 0. -/
def runOpen (jid : Nat) (_ : BitVec 16) (_ : Ins) (s : State) : Ran := stepOpen jid { saved := List.replicate 7 0 } s

/-- OPEN_ROUTINE: the queue's next instruction, if it has this opcode and these operands. An opcode that has a row of its own is
not served here. -/
def execOpenRoutine (q : QId) (op : Byte) (i : Ins) (s : State) : Host.Outcome State Fault Refusal :=
  begins q op (!vendorOpcode op.toNat) i runOpen s

end Machine
end Sys2Proof
end

