-- ==== Sys2Proof/Machine/Fabric.lean ====
section
/-! DEFINITION. The answers of the fabric port (R469): retries, tags, and what each answered access brings about (R83, R98,
R323, R503). -/

namespace Sys2Proof
namespace Machine

/-- A submission queue stops after a failed ring or head_wb access: reason 0x6, and a notice where its completion ring is
reachable. The manual gives the notice no cookie, ring index or results (log entry 26). -/
def State.queueStops (s : State) (q : Nat) : State :=
  match s.queue q with
  | none => s
  | some x =>
    if x.stopped then s
    else
      let s := (s.setQueue q { x with stopped := true, fetches := [] }).queueFault 6 (qid q)
      match s.queue x.cq.toNat with
      | some y =>
        if y.stopped || x.notice.isSome then s
        else
          let (cookie, s) := s.takeFree 64
          let (slot, s) := s.takeFree 16
          let (a, s) := s.takeFree 64
          let (b, s) := s.takeFree 64
          let n : Compl := { cookie := cookie, queue := BitVec.ofNat 16 q, slot := slot, status := .dmaBusError, flags := 0x08, gen := x.gen,
                             a := a, b := b }
          (match s.queue q with | some x => s.setQueue q { x with notice := some n } | none => s).place x.cq (.notice (qid q))
      | none => s

/-- A request of a ring write. -/
def Req.ofRing (q : QId) (p : RIdx → Bool) (r : Req) : Bool := match r.owner with | .ring q' i _ => q' == q && p i | _ => false

/-- A completion that waits in its pigeonhole has flags [1] set when it is written (R93, R503). -/
def RingEntry.inPigeonhole (x : Queue) (e : RingEntry) : RingEntry :=
  if x.kind = .completion then { e with body := e.body.mapIdx fun i b => if i = 13 then b ||| 0x02 else b } else e

/-- R503: a write of a COMPLETION or RECORD entry has failed: the ring stops with its tail at the entry, which is held with
every later one behind it. -/
def State.ringFails (s : State) (q : QId) (idx : RIdx) : State :=
  match s.queue q.toNat with
  | none => s
  | some x =>
    let later (i : RIdx) : Bool := decide (x.dist idx x.head ≤ x.dist i x.head)
    let back := (x.inflight.filter fun f => later f.1).map fun f => { f.2.inPigeonhole x with phased := false, answered := false }
    let x := { x with stopped := true, retrying := false, tail := idx, inflight := x.inflight.filter fun f => !later f.1,
                      heldWrites := back ++ x.heldWrites }
    let s := (s.setQueue q.toNat x).queueFault 6 q
    s.setDma { s.dma with reqs := s.dma.reqs.map fun r => if r.ofRing q later then { r with owner := .none } else r,
                          backlog := s.dma.backlog.filter fun r => !r.ofRing q later }

/-- R503: a running ring writes its held entries in order. -/
def State.writeHeld : Nat → Nat → State → State
  | 0, _, s => s
  | fuel + 1, q, s =>
    match s.queue q with
    | some x => match x.heldWrites with
      | e :: t => if x.stopped then s else State.writeHeld fuel q ((s.setQueue q { x with heldWrites := t }).writeEntry q e)
      | [] => s
    | none => s

/-- Every access of the entry at an index has been answered. It leaves once those before it have (R503). -/
def State.ringDone (s : State) (q : QId) (idx : RIdx) : State :=
  if s.dma.reqs.any (Req.ofRing q (· == idx)) || s.dma.backlog.any (Req.ofRing q (· == idx)) then s
  else match s.queue q.toNat with
    | none => s
    | some x =>
      let again := x.stopped && x.retrying
      let x := x.updWritten idx fun e => { e with answered := true }
      let s := (s.setQueue q.toNat (if again then { x with stopped := false, retrying := false } else x)).settleFront q.toNat
      if again then
        let s := State.writeHeld x.heldWrites.length q.toNat s
        State.drainHeld s.qs.held.length q s
      else s

/-- A routine's read has brought bytes. -/
def State.routineData (s : State) (jid off : Nat) (bs : List Byte) : State :=
  s.updEntry jid fun e => match e.rd with
    | some r => { e with rd := some { r with got := r.got ++ bs.mapIdx fun i b => (off + i, b) } }
    | none => e

/-- An access of a routine has failed at an offset. -/
def State.routineFails (s : State) (jid off : Nat) : State :=
  s.updEntry jid fun e => match e.rd with
    | some r => { e with rd := some { r with failed := some (match r.failed with | some o => min o off | none => off) } }
    | none => e

/-- The offset of a routine's write in its buffer. -/
def State.routineOffset (s : State) (jid : Nat) (a : HostAddr) : Nat :=
  match (s.entry jid).bind (·.rd) with | some r => (a - r.base).toNat | none => 0

/-- A message of a vector has not been answered. -/
def State.messageOwed (s : State) (v : Nat) : Bool :=
  let mine (r : Req) : Bool := match r.owner with | .irq w => w.toNat == v | _ => false
  s.dma.reqs.any mine || s.dma.backlog.any mine

/-- R98: a message has been delivered: pending clears, unless the vector has fired again and that message is still to be sent or
answered. -/
def State.messageDone (s : State) (v : Nat) : State :=
  let x := s.vector v
  let more := s.messageOwed v
  s.setVector v { x with pending := x.pending && (x.due || more), sent := more }

/-- R98: a message has failed: pending stays set, and the next fire or unmask sends it again. -/
def State.messageFails (s : State) (v : Nat) : State :=
  s.setVector v { s.vector v with pending := true, due := true, sent := s.messageOwed v }

/-- The answer without error to an access. -/
def State.answered (s : State) (r : Req) (data : List Byte) : State :=
  let bs := slice data 0 r.len
  match r.owner with
  | .entry q idx => (match (s.queue q.toNat).bind fun x => x.fetches.find? fun f => f.idx == idx with
      | some f => s.fetched q.toNat f (BitVec.ofNat 512 (leNat bs))
      | none => s)
  | .routine jid off => s.routineData jid off bs
  | .hostWrite jid => s.routineData jid (s.routineOffset jid r.addr / 64) [0]
  | .chanRead c off => s.chanData c off bs
  | .chanWrite c _ => s.chanWritten c
  | .chanLine c => s.lineDone c bs
  | .chanReread c =>
    let w := leNat bs
    s.rereadDone c (w / 2 ^ 124 % 16 == 7) (BitVec.ofNat 57 (w / 2 ^ 64))
  | .ring q _ false => (match s.queue q.toNat with | some x => State.publishReady q x.inflight s | none => s)
  | .ring q idx true => s.ringDone q idx
  | .puntBuf _ fid _ _ => s.puntAnswered fid
  | .headWb _ => s
  | .irq v => s.messageDone v.toNat
  | .inject _ => s
  | .reload ovl word => s.reloadDone ovl word (some (BitVec.ofNat 128 (leNat bs)))
  | .none => s

/-- An access has failed after its retries. -/
def State.failedAccess (s : State) (r : Req) : State :=
  match r.owner with
  | .entry q idx => if (s.queue q.toNat).any fun x => x.fetches.any fun f => f.idx == idx then s.queueStops q.toNat else s
  | .routine jid off => s.routineFails jid off
  | .hostWrite jid => s.routineFails jid (s.routineOffset jid r.addr)
  | .chanRead c off => s.chanReadFails c off
  | .chanWrite c off => s.chanWriteFails c off
  | .chanLine c => s.chanFetchFails c
  | .chanReread c => s.chanFetchFails c
  | .ring q idx _ => s.ringFails q idx
  | .puntBuf q _ idx _ => s.puntFailed q.toNat idx
  | .headWb q => s.queueStops q.toNat
  | .irq v => (s.messageFails v.toNat).queueFault 7 (v.setWidth 12)
  | .inject iid => (match s.injEntry iid with
      | some e => if e.outcome.isNone then s.injUnreadable e else s
      | none => s)
  | .reload ovl word => s.reloadDone ovl word none
  | .none => s

/-- R321: the priority level of a channel's accesses: that of its program; of the internal channels' work 2, and 0 for that of channel 31. -/
def State.level (s : State) (c : Nat) : Nat := if c < 28 then (s.chan c).prio.toNat else if c = 31 then 0 else 2

/-- R321: the channel of the highest level that wins, the next one after the last winner in turn. -/
def State.grant (s : State) (last : Nat) (waiting : List Nat) : Nat :=
  let top := waiting.foldl (fun m c => max m (s.level c)) 0
  (((List.range 32).map fun k => (last + 1 + k) % 32).find? fun c => waiting.contains c && s.level c == top).getD last

/-- R321: who wins the next beat among the requests of one direction that wait: the queue path, at most its share while a channel waits,
or a channel; and the grants after it. -/
def State.arbitrate (s : State) (a : Arb) (rs : List Req) : Option Nat × Arb :=
  let waiting := rs.filterMap (·.chan)
  let path := rs.any (·.chan.isNone)
  let claim := a.claim + s.dma.qshare.toNat
  if waiting.isEmpty || (path && decide (256 ≤ claim)) then (none, { a with claim := if waiting.isEmpty then a.claim else claim - 256 })
  else
    let c := s.grant a.last waiting
    (some c, { last := c, claim := if path then claim else a.claim })

/-- A tag is free for a request that waits for one: in the direction of the one that has waited longest (log entry 128), the oldest of
whoever wins there. -/
def State.sendBacklog (s : State) : State :=
  match s.dma.backlog with
  | r :: _ =>
    let g := s.arbitrate (if r.isWrite then s.dma.writeArb else s.dma.readArb) (s.dma.backlog.filter (·.isWrite == r.isWrite))
    let wins (x : Req) : Bool := x.isWrite == r.isWrite && x.chan == g.1
    match s.dma.backlog.find? wins with
    | some x =>
      let rest := dropFirst wins s.dma.backlog
      let s := (s.setDma { s.dma with backlog := [] }).sendReq x
      s.setDma { s.dma with backlog := rest, readArb := if r.isWrite then s.dma.readArb else g.2,
                            writeArb := if r.isWrite then g.2 else s.dma.writeArb }
    | none => s
  | [] => s

/-- R323, R324: an access of an internal channel has failed after its retries: it halts with reason bus error, and runs again with its next
work. -/
def State.internalFails (s : State) (r : Req) : State :=
  match r.chan with
  | some w => if 28 ≤ w then s.setChan (s.workerOf w) { s.chan (s.workerOf w) with st := .halted, reason := 2 } else s
  | none => s

/-- The fabric answers a request: an error is retried at once while attempts are left (R323); otherwise its tag is free
again and the answer takes effect. -/
def State.masterAnswer (s : State) (tag : BitVec 10) (err : Bool) (data : List Byte) : State :=
  match s.dma.reqs.find? fun r => r.tag == tag with
  | none => s
  | some r =>
    if err && r.tries != 0 then
      (s.setDma { s.dma with reqs := updFirst (fun r => r.tag == tag) (fun r => { r with tries := r.tries - 1 }) s.dma.reqs }).emit
        (if r.isWrite then .write tag r.addr r.data r.relaxed else .read tag r.addr r.len)
    else
      let s := (s.setDma { s.dma with reqs := dropFirst (fun r => r.tag == tag) s.dma.reqs }).sendBacklog
      (if err then (s.internalFails r).failedAccess r else s.answered r data).internalEnds

/-- MASTER_RESPONSE. -/
def execMasterResponse (tag : BitVec 10) (err : Bool) (data : List Byte) (s : State) : Host.Outcome State Fault Refusal :=
  .next (s.masterAnswer tag err data)

end Machine
end Sys2Proof
end

