-- ==== Sys2Proof/Machine/Twin.lean ====
section
/-! DEFINITION. The twin (R419 to R423): binding and release, what is mirrored and how the partner takes it, adoption, the loss of the
partner, and the sweep of the shadow table. -/

namespace Sys2Proof
namespace Machine

/-- R419: the partner of an identity: 2k and 2k + 1. -/
def twinOf (m : BitVec 3) : BitVec 3 := m ^^^ 1

def State.setOther (s : State) (o : Partner) : State := s.setCasc { s.casc with other := o }
def State.setTwin (s : State) (t : TwinSt) : State := s.setCasc { s.casc with twin := t }

/-- The binding is over: nothing is mirrored any more, and entries wait for no twin. -/
def State.unbind (s : State) : State :=
  (s.setCasc { s.casc with twin := .unbound, answer := none, other := {}, deltas := [], mirrorAt := none }).retainHeld

/-! ### What goes to the partner -/

/-- The unsorted counters as deltas: each set that a sweep has still to emit. -/
def State.unsortedDeltas (s : State) : List Delta :=
  s.reg.unsorted.flatMap fun ku =>
    let i := Config.pairEntries + ku.1
    let u := ku.2
    let prev : Delta := { index := i, epoch := u.prevEpoch, frames := u.prev.frames.toNat, bytes := u.prev.bytes.toNat }
    let cur : Delta := { index := i, epoch := u.curEpoch, frames := u.cur.frames.toNat, bytes := u.cur.bytes.toNat }
    (if u.swept || u.prev.frames = 0 then [] else [prev]) ++ (if u.cur.frames = 0 then [] else [cur])

/-- R419 part 1: the queue contexts, the journal and the INJECT words, in one step. -/
def State.sendContexts (s : State) : State :=
  let s := s.forEach (s.qs.tab.map (·.1)) fun s q => s.mirrorQueue q
  let s := s.forEach s.pm.journal fun s e => s.mirrorEntry e false
  let s := s.forEach s.qs.inj fun s e => s.mirrorInj e false
  s.setCasc { s.casc with deltas := s.unsortedDeltas }

/-- R419 part 2: the entries of one 4,096th of the pair table. They carry what their deltas would have said. -/
def State.sendChunk (s : State) (n : Nat) : State :=
  let lo := 4096 * n
  let es := ((s.listed lo (lo + 4096)).map fun i => (i, s.pairEntry i)).filter fun ie => !ie.2.isEmpty
  let s := s.toTwin (.shadow n (es.map fun ie => (ie.1, pairImage ie.2)))
  s.setCasc { s.casc with deltas := s.casc.deltas.filter fun d => decide (d.index < lo) || decide (lo + 4096 ≤ d.index) }

/-- R419 part 3, R409: mirroring is synchronous from now on; every queue generation rises. -/
def State.twinSwitch (s : State) : State :=
  (s.setCasc { s.casc with twin := .bound, answer := none, mirrorAt := some s.now16 }).bumpQueues

/-- What the conditions of R419 ask of this instance. -/
def State.twinFit (s : State) : Bool :=
  (s.top.mode == .provision || s.top.mode == .service) && s.casc.twin == .unbound && decide (2 ≤ s.reg.region.toNat)

/-- MIRROR_INTERVAL (R420): the deltas since the last interval, and each port's accepted counters and latches. Where no link is up
they wait, merged with those of the next interval. -/
def State.mirrorNow (s : State) : State :=
  if !s.mirrors || !s.ringUp then s
  else
    let port (p : Nat) : Nat × DWord × DWord × DWord × DWord × BitVec 16 :=
      let l := s.latchPort p
      let o := Tab.get {} s.reg.atOpen p
      (p, l.frames, l.bytes, o.frames, o.bytes, l.gen)
    let configured : DWord := s.configuredPorts.foldl (fun m p => setBit m p true) 0
    let s' := s.toTwin (.deltas s.casc.deltas (allPorts.map port) configured s.reg.recordQueue s.reg.epoch)
    s'.setCasc { s'.casc with deltas := [] }

/-! ### TWINBIND and TWINRELEASE -/

/-- A step of TWINBIND: part 0 waits for the partner's answer, part 1 copies 4,096 entries a step, and the switch ends it. -/
def stepTwinbind (queue : BitVec 16) (part done : Nat) (s : State) : Ran :=
  if s.casc.twin != .binding then .bad .badOperand s
  else if part = 0 then match s.casc.answer with
    | none => .wait (.twinbind 0 0) s
    | some false => .bad .badOperand s.unbind
    | some true => .more (.twinbind 1 0) s.sendContexts
  else if done < 4096 then .more (.twinbind 1 (done + 1)) ((s.sendChunk done).toTwin (.twin (.part done)))
  else
    let s := (s.toTwin (.twin .switch)).twinSwitch
    .ok (match s.queue queue.toNat with | some x => z64 x.gen | none => 0) 0 s

/-- TWINBIND (R419). The partner's own conditions come with its answer. -/
def runTwinbind (_ : Nat) (_ : BitVec 16) (i : Ins) (s : State) : Ran :=
  let m := twinOf s.casc.self
  if i.target.toNat != m.toNat || !s.twinFit || !s.ringUp || !bitOf s.casc.present m.toNat then .bad .badOperand s
  else if !s.isOn dREG then .bad .targetAsleep s
  else
    .wait (.twinbind 0 0)
      ((s.setCasc { s.casc with twin := .binding, partner := m, answer := none, other := {}, deltas := [] }).sendFlit (.twin .ask) (memberBit m))

/-- TWINBIND. -/
def execTwinbind (q : QId) (i : Ins) (s : State) : Host.Outcome State Fault Refusal := begins q 0xA0 true i runTwinbind s

/-- TWINRELEASE (R419). -/
def runTwinrelease (_ : Nat) (_ : BitVec 16) (_ : Ins) (s : State) : Ran :=
  if s.casc.twin = .serving || s.casc.twin = .adopted then .bad .modeForbids s
  else .ok 0 0 (s.toTwin (.twin .release)).unbind.bumpQueues

/-- TWINRELEASE. -/
def execTwinrelease (q : QId) (i : Ins) (s : State) : Host.Outcome State Fault Refusal := begins q 0xA1 true i runTwinrelease s

/-! ### What comes from the partner -/

/-- A delta (R420, R216): an entry learned begins without counts; the increments follow. -/
def PairEntry.applyDelta (e : PairEntry) (d : Delta) : PairEntry :=
  let e := match d.key with
    | none => e
    | some w =>
      let k := pairOfImage (w.setWidth 512)
      let fresh := k.isValid && !(e.isValid && e.key == k.key)
      let e := if fresh then { e with cur := {}, prev := {}, curEpoch := d.epoch, swept := true } else { e with swept := k.swept }
      { e with state := k.state, fixed := k.fixed, lost := k.lost, learned := k.learned, key := k.key,
               learnedIn := if fresh then d.epoch else e.learnedIn }
  if d.frames = 0 && d.bytes = 0 then e else e.withSets (e.sets.update d.epoch d.frames d.bytes)

/-- The partner's shadow, or its unsorted counters, take a delta. -/
def State.applyDelta (s : State) (d : Delta) : State :=
  if d.index < Config.pairEntries then
    let j := Config.pairEntries + d.index
    s.ledgerPut j ((Tab.get {} s.reg.ledger j).applyDelta d)
  else
    let k := d.index - Config.pairEntries
    let o := s.casc.other
    s.setOther { o with unsorted := Tab.put {} o.unsorted k ((Tab.get {} o.unsorted k).update d.epoch d.frames d.bytes) }

/-- A chunk of the partner's pair table replaces that of the shadow table. -/
def State.takeChunk (s : State) (n : Nat) (es : List (Nat × BitVec 512)) : State :=
  let lo := Config.pairEntries + 4096 * n
  let stale := (s.listed lo (lo + 4096)).filter fun j => !es.any fun e => Config.pairEntries + e.1 == j
  let s := s.forEach stale fun s j => s.ledgerPut j {}
  s.forEach es fun s e => s.ledgerPut (Config.pairEntries + e.1) (pairOfImage e.2)

/-- A journal entry of the partner. -/
def Partner.takeEntry (o : Partner) (e : JEntry) (gone : Bool) : Partner :=
  let same (x : JEntry) : Bool := x.queue == e.queue && x.idx == e.idx
  { o with journal := if gone then dropFirst same o.journal
                      else if o.journal.any same then updFirst same (fun _ => e) o.journal else o.journal ++ [e] }

/-- An INJECT word of the partner. -/
def Partner.takeInj (o : Partner) (e : Inj) (gone : Bool) : Partner :=
  let same (x : Inj) : Bool := x.queue == e.queue && x.idx == e.idx
  { o with inj := if gone then dropFirst same o.inj else if o.inj.any same then updFirst same (fun _ => e) o.inj else o.inj ++ [e] }

/-- A queue of the partner from its context, its `q.idx`, its record count and its skip count. -/
def queueOfMirror (c : BitVec 256 × DWord × DWord × Byte) : Option Queue :=
  (queueOfCtx c.1).map fun x =>
    { x with tail := fld c.2.1 47 17, head := fld c.2.1 30 17, gen := fld c.2.1 14 16, stopped := bitOf c.2.1 0, recSeq := c.2.2.1,
             skip := c.2.2.2 }

/-- The mirrored messages of the partner. -/
def State.takeMirror (s : State) : Payload → State
  | .journal q idx gen op i state step outcome gone =>
    let e : JEntry := { queue := q.setWidth 16, idx := idx, gen := gen, ran := gen, op := op, ins := i, st := JSt.ofCode state, step := step,
                        slot := outcome.map fun o => ⟨Status.ofCode o.1, o.2.1, o.2.2⟩ }
    s.setOther (s.casc.other.takeEntry e gone)
  | .context q c => s.setOther { s.casc.other with qs := Tab.put none s.casc.other.qs q.toNat (c.bind queueOfMirror) }
  | .injWord q idx gen cookie started sent len gone =>
    let e : Inj := { queue := q, idx := idx, gen := gen, cookie := cookie, started := started, sent := sent, lenMinus1 := len }
    s.setOther (s.casc.other.takeInj e gone)
  | .shadow n es => s.takeChunk n es
  | .deltas ds ports configured recordQueue epoch =>
    let s := s.forEach ds State.applyDelta
    let latch (f b : DWord) (g : BitVec 16) : PortLatch := { frames := f, bytes := b, gen := g }
    let o := { s.casc.other with
      ports := ports.foldl (fun t x => Tab.put {} t x.1 (latch x.2.1 x.2.2.1 x.2.2.2.2.2)) []
      atOpen := ports.foldl (fun t x => Tab.put {} t x.1 (latch x.2.2.2.1 x.2.2.2.2.1 x.2.2.2.2.2)) []
      configured := configured, recordQueue := recordQueue, epoch := epoch }
    s.setCasc { s.casc with other := o, mirrorAt := some s.now16 }
  | _ => s

/-- The adoption-control messages (R419, R421, R28). -/
def State.takeTwin (s : State) (src : BitVec 3) : TwinMsg → State
  | .ask =>
    if src = twinOf s.casc.self && s.twinFit then
      let s := s.setCasc { s.casc with twin := .binding, partner := src, answer := some true, other := {}, deltas := [] }
      (s.sendFlit (.twin .accept) (memberBit src)).sendContexts
    else s.sendFlit (.twin .refuse) (memberBit src)
  | .accept => if s.casc.twin = .binding && src = s.casc.partner then s.setCasc { s.casc with answer := some true } else s
  | .refuse => if s.casc.twin = .binding && src = s.casc.partner then s.setCasc { s.casc with answer := some false } else s
  | .part n => if s.casc.twin = .binding && src = s.casc.partner then s.sendChunk n else s
  | .switch => if s.casc.twin = .binding && src = s.casc.partner then s.twinSwitch else s
  | .release => if s.casc.twin = .bound && src = s.casc.partner then s.unbind.bumpQueues else s
  | .adopt =>
    if s.casc.twin = .bound && src = s.casc.partner && s.top.mode = .service then
      ((s.rollBackAll.enterMode .adopted 0x02).setTwin .adopted).bumpQueues
    else s

/-! ### Adoption (R421) and the loss of the partner (R422) -/

/-- TWIN_ADOPT: the partner's beats report its Postmaster pair failed while its datapath runs. -/
def State.twinAdopt (s : State) : State :=
  if s.casc.twin = .bound && bitOf s.casc.pmFailed s.casc.partner.toNat then (s.toTwin (.twin .adopt)).setTwin .serving else s

/-- TWIN_ADOPT. -/
def execTwinAdopt (s : State) : Host.Outcome State Fault Refusal := .next s.twinAdopt

/-- The gap record of cause 0x01: the partner's configured ports, from its last applied mirror to now. -/
def State.lostGap (s : State) : Gap :=
  let o := s.casc.other
  let ps := allPorts.filter fun p => bitOf o.configured p
  { cause := 1, firstPort := (ps.head?.map (BitVec.ofNat 8)).getD 0xFF, lastPort := (ps.getLast?.map (BitVec.ofNat 8)).getD 0xFF,
    who := s.casc.partner, epoch := o.epoch, fromAt := (s.casc.mirrorAt.map instantOf16).getD 0, toAt := s.nowInstant,
    state := s.stampNow.state, powerup := s.time.powerup }

/-- An entry into a ring of the partner: every byte but the last, then the last with the phase; false where the ring has no free
entry or has stopped. -/
def State.otherPut (s : State) (q : Nat) (body : List Byte) (f : Queue → Queue) : Bool × State :=
  match Tab.get none s.casc.other.qs q with
  | none => (false, s)
  | some x =>
    if x.stopped || x.room = 0 then (false, s)
    else
      let o := s.casc.other
      let s := s.setOther { o with qs := Tab.put none o.qs q (some (f { x with tail := x.advance x.tail 1 })) }
      let a := x.entryAddr x.tail
      let s := s.queueWrite a body false .none
      (true, s.queueWrite (a + BitVec.ofNat 57 (x.entrySize - 1)) [phaseByte (x.phase x.tail)] false .none)

/-- A completion of the partner's, with flags [2] set. -/
def State.otherPost (s : State) (q : QId) (idx : RIdx) (c : Compl) : Bool × State :=
  match Tab.get none s.casc.other.qs q.toNat with
  | none => (false, s)
  | some x => s.otherPut x.cq.toNat
      (complBytes { c with queue := q.setWidth 16, slot := BitVec.ofNat 16 (x.slotOf idx), flags := 0x04 }) id

/-- How a mirrored command of a lost partner ends: as it had ended, or as a command whose steps need none of the partner's
hardware, or MACHINE_CHECK_FATAL. -/
def State.otherOutcome (s : State) (e : JEntry) : Done × State :=
  match e.slot with
  | some d => (d, s)
  | none => match preCheck s e.op e.queue e.ins with
    | some st => (⟨st, 0, 0⟩, s)
    | none =>
      if e.op = 0x00 then (⟨.ok, 0, 0⟩, s)
      else if e.op = 0x07 && e.ins.target = 0xFFFF && signalOk e.ins then (⟨.ok, 0, 0⟩, s.signal e.id e.ins)
      else (⟨.machineCheckFatal, 0, 0⟩, s)

/-- A mirrored command of a lost partner is completed; its entry stays where its ring has no free entry. -/
def State.otherCommand (s : State) (e : JEntry) : State :=
  let (d, s) := s.otherOutcome e
  let gone (s : State) : State := s.setOther (s.casc.other.takeEntry e true)
  if d.status = .ok && !e.ins.c then gone s
  else match s.otherPost (e.queue.setWidth 12) e.idx { cookie := e.ins.cookie, status := d.status, gen := e.gen, a := d.a, b := d.b } with
    | (true, s) => gone s
    | (false, s) => s.setOther (s.casc.other.takeEntry { e with slot := some d } false)

/-- A mirrored INJECT word of a lost partner is reported (R402, R422). -/
def State.otherInject (s : State) (e : Inj) : State :=
  let reason : Byte := if e.sent then 0 else if e.started || e.cut then 6 else 5
  match s.otherPost e.queue e.idx { cookie := e.cookie, status := if e.sent then .ok else .notSent, gen := e.gen,
                                    a := if e.sent then BitVec.ofNat 64 (e.lenMinus1.toNat + 1) else 0, b := z64 reason } with
  | (true, s) => s.setOther (s.casc.other.takeInj e true)
  | (false, s) => s

/-- The commands and INJECT words of a lost partner that have not been completed are; those whose ring has no free entry stay. -/
def State.settleOther (s : State) : State :=
  (s.forEach s.casc.other.journal State.otherCommand).forEach s.casc.other.inj State.otherInject

/-- The survivor takes the queues of a lost partner (R422, R409): first the gap record, then the generations, those
of the ports' counter sets too, whose counting moves here (R408), then what was accepted. -/
def State.takeOver (s : State) : State :=
  let s := ((s.emitGap s.lostGap).setTwin .partnerLost).retainHeld
  let o := s.casc.other
  (s.setOther { o with qs := o.qs.map fun kv => (kv.1, kv.2.map fun x => { x with gen := x.gen + 1 })
                       ports := o.ports.map fun kv => (kv.1, { kv.2 with gen := kv.2.gen + 1 }) }).settleOther

/-- MIRROR_INTERVAL: with the partner lost, its reports that found no free entry are tried again (R33, log entry 134). -/
def execMirrorInterval (s : State) : Host.Outcome State Fault Refusal :=
  .next (if s.casc.twin = .partnerLost then s.settleOther else s.mirrorNow)

/-- The partner has been declared failed: a binding comes to nothing, a bound instance takes over. An ADOPTED instance whose
Postmaster pair has itself failed executes nothing further. -/
def State.partnerFails (s : State) : State :=
  if s.casc.twin = .binding then s.unbind else if s.mirrors then s.takeOver else s

/-! ### The sweep of the shadow table (R422) -/

/-- A record of the partner's, in its record queue, with its identity as the source. -/
def State.otherRecord (s : State) (gen : BitVec 16) (body : List Byte) : Bool × State :=
  let q := s.casc.other.recordQueue.toNat
  match Tab.get none s.casc.other.qs q with
  | none => (false, s)
  | some x =>
    if x.kind != .record then (false, s)
    else s.otherPut q
      (leBytes 2 1 ++ [s.casc.partner.setWidth 8, 0] ++ leBytes 8 x.recSeq.toNat ++ leBytes 2 gen.toNat ++ slice body 0 49)
      fun x => { x with recSeq := x.recSeq + 1 }

/-- The visit of a shadow entry. -/
def State.shadowVisit (s : State) (j : Nat) : Bool × State :=
  let e := Tab.get {} s.reg.ledger j
  let c := s.casc.other.epoch
  if !e.isValid then (true, s)
  else match e.sets.visit c with
    | none => (true, s)
    | some (none, u) => (true, s.ledgerPut j (e.withSets u))
    | some (some set, u) => match s.otherRecord 0 (pairRecord c (j - Config.pairEntries) e set) with
      | (false, s) => (false, s)
      | (true, s) =>
        let s := s.ledgerPut j (e.withSets u)
        (true, s.setOther { s.casc.other with pairRecs := s.casc.other.pairRecs + 1 })

/-- Visits shadow entries in order; those left from the first that has to wait. -/
def shadowList : List Nat → State → List Nat × State
  | [], s => ([], s)
  | j :: t, s => match s.shadowVisit j with
    | (true, s) => shadowList t s
    | (false, s) => (j :: t, s)

/-- An item of the final step, in the order of R218. -/
def State.shadowItem (s : State) (n : Nat) : Bool × State :=
  let o := s.casc.other
  let c := o.epoch
  let p := n / 6
  if n % 6 < 5 && n < 384 then
    let r : BitVec 3 := BitVec.ofNat 3 (n % 6 + 1)
    let k := 8 * p + r.toNat
    match (Tab.get {} o.unsorted k).visit c with
    | none => (true, s)
    | some (none, u) => (true, s.setOther { o with unsorted := Tab.put {} o.unsorted k u })
    | some (some set, u) => match s.otherRecord (Tab.get {} o.ports p).gen (unsortedRecord c p r set) with
      | (false, s) => (false, s)
      | (true, s) =>
        let o := s.casc.other
        (true, s.setOther { o with unsorted := Tab.put {} o.unsorted k u, unsortRecs := o.unsortRecs + 1 })
  else if n < 384 then
    let l := Tab.get {} o.ports p
    s.otherRecord l.gen (portCloseRecord c p (Tab.get {} o.atOpen p) l)
  else
    s.otherRecord 0
      ([3, 0] ++ leBytes 2 c.toNat ++ leBytes 4 o.pairRecs.toNat ++ leBytes 4 o.unsortRecs.toNat ++ leBytes 8 s.reg.epochAt.toNat
        ++ leBytes 8 s.nowInstant.toNat ++ [s.reg.closeState.code.setWidth 8] ++ leBytes 2 s.time.powerup.toNat)

/-- The items of the final step that are left; `fuel` bounds them. -/
def State.shadowItems : Nat → State → State
  | 0, s =>
    let o := s.casc.other
    s.setOther { o with left := 0, epoch := o.epoch + 1, atOpen := o.ports }
  | fuel + 1, s => match s.shadowItem (384 - fuel) with
    | (true, s) => State.shadowItems fuel s
    | (false, s) => s.setOther { s.casc.other with left := fuel + 1 }

/-- The next part of the sweep of the shadow table: up to 4,096 entries, or the final step. -/
def State.shadowPart (s : State) : State :=
  let o := s.casc.other
  if o.left = 0 || !s.isOn dREG then s
  else match o.sweep with
    | [] => State.shadowItems o.left s
    | l =>
      let (rest, s) := shadowList (l.take 4096) s
      s.setOther { s.casc.other with sweep := rest ++ l.drop 4096 }

/-- SWEEP_STEP: the next 4,096 entries, or the final step; after this instance's own entries those of the shadow table. -/
def execSweepStep (uncorrectable : List Nat) (s : State) : Host.Outcome State Fault Refusal :=
  .next (if s.reg.phase == .idle then s.shadowPart else s.sweepOn uncorrectable)

end Machine
end Sys2Proof
end

