-- ==== Sys2Proof/Machine/Cascade.lean ====
section
/-! DEFINITION. The cascade ring: links and flits (R477, R478), heartbeats and failed members (R416), the head and its succession
(R417, R418), and what a member does with each message. -/

namespace Sys2Proof
namespace Machine

/-! ### The head (R417, R418) -/

/-- Every other member whose beats arrive. -/
def State.othersPresent (s : State) : Byte := setBit s.casc.present s.casc.self.toNat false

/-- The members that may be head: in SERVICE or ADOPTED, and not yielded. -/
def State.eligibleNow (s : State) : Byte :=
  setBit (s.othersPresent &&& s.casc.serving &&& ~~~ s.casc.yields) s.casc.self.toNat (s.serves && !s.casc.yielded)

/-- A new head rebuilds what it waits for from the members that serve. -/
def State.rebuildColls (s : State) : State :=
  s.setColls (s.casc.colls.map fun c =>
    { c with reported := 0, notReady := 0, members := c.members &&& s.servingNow, lost := c.lost || c.members &&& ~~~ s.servingNow != 0 })

/-- A member tells a new head where it stands: its reports, its readiness, and the collectives that the old head never sent. One
sent again is treated as one that has waited (R67). -/
def State.reReport (s : State) : State :=
  let s := if s.isHead then s.rebuildColls else s
  let s := s.forEach s.casc.colls fun s c =>
    if c.mine then s.toHead (.report c.issuer c.cid) else if c.told then s.toHead (.notReady c.issuer c.cid) else s
  let s := s.forEach s.casc.issued fun s x =>
    if x.ended.isNone && (s.coll s.casc.self x.jid).isNone then match s.entry x.jid with
      | some e => s.toHead (.pass x.jid x.op e.ins.a e.ins.target e.ins.b true)
      | none => s
    else s
  if s.isHead then s.forEach s.casc.colls fun s c => s.headCheck c.issuer c.cid else s

/-- Another member becomes head. Followers hold time over (R267); a new head keeps its own time. -/
def State.newHead (s : State) (h : BitVec 3) : State :=
  let s := (s.setCasc { s.casc with head := h, successions := s.casc.successions + 1, queued := [] }).timeHeadLost
  let s := if h = s.casc.self then (if s.othersPresent = 0 then s else s.setTimeUnit { s.time with role := 1, headId := h })
    else if s.time.role = 1 then s.setTimeUnit { s.time with role := 2, joined := false, aligned := false, alignedRow := 0 } else s
  s.reReport

/-- The lowest member of a set. -/
def lowestMember (m : Byte) : Option (BitVec 3) := ((List.range 8).find? fun i => bitOf m i).map (BitVec.ofNat 3)

/-- The head follows from who is eligible. A yielder is eligible again when no other member is (R418). -/
def State.elect (s : State) : State :=
  let s := if s.eligibleNow = 0 && s.casc.yielded && s.serves then s.setCasc { s.casc with yielded := false } else s
  let s := s.setCasc { s.casc with eligible := s.eligibleNow }
  match lowestMember s.eligibleNow with
  | some h => if h = s.casc.head then s else s.newHead h
  | none => s

/-- `time.casc` role of a member (R266, R281): alone, head of others, or from now on a follower, which has its step to the head's time still
before it. -/
def State.cascRole (s : State) : State :=
  if s.othersPresent = 0 then s.setTimeUnit { s.time with role := 0, joined := false }
  else if s.isHead then (if s.serves then s.setTimeUnit { s.time with role := 1, joined := false, headId := s.casc.self } else s)
  else if bitOf s.othersPresent s.casc.head.toNat && !s.time.follows then
    s.setTimeUnit { s.time with role := 2, joined := false, aligned := false, alignedRow := 0, headId := s.casc.head }
  else s

/-- HEADYIELD. -/
def runHeadyield (_ : Nat) (_ : BitVec 16) (_ : Ins) (s : State) : Ran :=
  let s := if s.isHead then (s.setCasc { s.casc with yielded := true }).elect else s
  .ok (z64 s.casc.head) 0 s

/-- HEADYIELD. -/
def execHeadyield (q : QId) (i : Ins) (s : State) : Host.Outcome State Fault Refusal := begins q 0xA2 true i runHeadyield s

/-! ### Heartbeats (R416) -/

/-- A beat of member m, from either direction. -/
def State.beat (s : State) (m : BitVec 3) (mode : BitVec 4) (pmOk dpOk yielded : Bool) : State :=
  let n := m.toNat
  let serves := mode == Mode.code .service || mode == Mode.code .adopted
  let left := bitOf s.casc.serving n && !serves
  let c := s.casc
  let s := s.setCasc { c with
    present := setBit c.present n true, beaten := setBit c.beaten n true, serving := setBit c.serving n serves,
    yields := setBit c.yields n yielded, pmFailed := setBit c.pmFailed n (!pmOk && dpOk) }
  let s := if left && s.isHead then s.headLose m else s
  let s := if s.casc.twin = .serving && m = s.casc.partner && mode = Mode.code .service && pmOk then s.setTwin .bound else s
  s.elect

/-- A beat of this member in both directions. -/
def State.sendBeats (s : State) : State :=
  let p : Payload := .heartbeat s.top.mode.code s.pm.fit (s.top.mode != .quarantine) s.casc.yielded
  let dest := setBit (0xFF#8) s.casc.self.toNat false
  (s.sendOn .a p s.casc.self dest).sendOn .b p s.casc.self dest

/-- The beats missing since the last check. -/
def State.countMissing (s : State) : State :=
  let c := s.casc
  let one (t : Tab Nat) (m : Nat) : Tab Nat :=
    Tab.put 0 t m (if bitOf s.othersPresent m && !bitOf c.beaten m then Tab.get 0 t m + 1 else 0)
  s.setCasc { c with missing := (List.range 8).foldl one c.missing, beaten := 0 }

/-- R374: the head relays the match that it took while HOST was asleep. -/
def State.relayMatch (s : State) : State :=
  if !s.power.relayOwed || (s.isHead && s.othersPresent = 0) then s
  else
    let t : State := { s with power := { s.power with relayOwed := false } }
    if s.isHead then t.sendFlit .relay s.othersPresent else t

/-- HEARTBEAT: this member's beats, and the check of the others'. The head tells its time and state too. -/
def State.heartbeat (s : State) : State :=
  if !s.isOn dHOST then s
  else
    let s := s.sendBeats.countMissing
    let s := if s.isHead && !s.serves then s.headLose s.casc.self else s
    (s.elect.cascRole.tellTime false).relayMatch

/-- HEARTBEAT. -/
def execHeartbeat (s : State) : Host.Outcome State Fault Refusal := .next s.heartbeat

/-- MEMBER_DECLARED_FAILED: three consecutive beats of member m are missing in both directions. -/
def State.memberFails (s : State) (m : BitVec 3) : State :=
  let n := m.toNat
  if !s.isOn dHOST || m = s.casc.self || !bitOf s.casc.present n || Tab.get 0 s.casc.missing n < 3 then s
  else
    let c := s.casc
    let s := s.setCasc { c with
      present := setBit c.present n false, serving := setBit c.serving n false, yields := setBit c.yields n false,
      pmFailed := setBit c.pmFailed n false, missing := Tab.put 0 c.missing n 0 }
    let s := if s.isHead then s.headLose m else s
    let s := if m = s.casc.partner then s.partnerFails else s
    let s := s.elect
    let s := if s.casc.head = m then s.timeHeadLost else s
    s.cascRole.readiness

/-- MEMBER_DECLARED_FAILED. -/
def execMemberDeclaredFailed (m : BitVec 3) (s : State) : Host.Outcome State Fault Refusal := .next (s.memberFails m)

/-! ### Messages -/

/-- A collective message (R63 to R67). -/
def State.takeColl (s : State) (src : BitVec 3) (m : CollMsg) : State :=
  (match m with
    | .arm issuer cid op a target instant members postponed =>
      if src = s.casc.head then
        s.memberArm { issuer := issuer, cid := cid, op := op, a := a, target := target, instant := instant, members := members,
                      postponed := postponed }
      else s
    | .hold issuer cid => if src = s.casc.head then s.memberHold issuer cid else s
    | .ended issuer cid status t map => s.memberEnded issuer cid status t map
    | .report issuer cid => if s.isHead then s.headTake src m else s.noteReport src issuer cid
    | _ => if s.isHead then s.headTake src m else s).readiness

/-- A flit for this member is acted on by type (R477). A vote of another member has no effect that the manual gives. -/
def State.deliver (s : State) (src : BitVec 3) (p : Payload) : State :=
  match p with
  | .idle => s
  | .heartbeat mode pmOk dpOk yielded => s.beat src mode pmOk dpOk yielded
  | .time now state step correction => if src = s.casc.head then s.headTime now (TimeSt.ofCode state) step correction else s
  | .collective m => s.takeColl src m
  | .vote _ _ => s
  | .relay => s.wake 6 (src.setWidth 16)
  | .twin m => s.takeTwin src m
  | p => if s.mirrors && src = s.casc.partner then s.takeMirror p else s

/-! ### Links (R478) -/

/-- The neighbour has received in order up to `ack`: those flits need no resend. -/
def LinkSt.acked (x : LinkSt) (ack : BitVec 16) : LinkSt :=
  { x with unacked := x.unacked.filter fun f => decide (32768 ≤ (ack - f.seq).toNat) }

/-- A flit with a bad CRC: eight in a row take the link down. -/
def LinkSt.sawBad (x : LinkSt) : LinkSt :=
  { x with good := 0, bad := min 8 (x.bad + 1), up := x.up && decide (x.bad + 1 < 8) }

/-- A good flit: 64 in a row bring the link up. -/
def LinkSt.sawGood (x : LinkSt) : LinkSt :=
  { x with bad := 0, good := min 64 (x.good + 1), up := x.up || decide (64 ≤ x.good + 1) }

/-- R479: a forwarded time flit carries this member's residence time too, for which the manual gives no value (log entry 137). -/
def State.forwarded (s : State) : Payload → Payload × State
  | .time now state step correction =>
    let (r, s) := s.takeFree 32
    (.time now state step (correction + r.toNat), s)
  | p => (p, s)

/-- A flit in order is delivered where this member is a destination, and forwarded, on the link that goes on in its direction, to
those that are left. One that has come round to its source, or has no destination, is dropped. -/
def State.route (s : State) (l : Link) (f : Flit) : State :=
  if f.dest = 0 || f.source = s.casc.self then s
  else
    let rest := setBit f.dest s.casc.self.toNat false
    let s := if rest = 0 then s else
      let (p, s) := s.forwarded f.payload
      s.sendOn l p f.source rest
    if bitOf f.dest s.casc.self.toNat then s.deliver f.source f.payload else s

/-- CASCADE_FLIT_RECEIVE: checked, acknowledged, forwarded and acted on. The ack it carries is for what this member sends the
neighbour, which is on the other link (R477). -/
def State.flitIn (s : State) (l : Link) (f : Flit) : State :=
  if !s.isOn dHOST then s
  else if !f.crcOk then s.setLinkSt l (s.link l).sawBad
  else
    let s := s.setLinkSt l (s.link l).sawGood
    let s := (s.setLinkSt (otherLink l) ((s.link (otherLink l)).acked f.ack)).retainHeld
    if f.payload = .idle || f.seq != (s.link l).lastRecv + 1 then s
    else (s.setLinkSt l { s.link l with lastRecv := f.seq }).route l f

/-- CASCADE_FLIT_RECEIVE. -/
def execCascadeFlitReceive (l : Link) (f : Flit) (s : State) : Host.Outcome State Fault Refusal := .next (s.flitIn l f)

/-- CASCADE_RESEND: the ack has not advanced for 512 ns. -/
def State.resend (s : State) (l : Link) : State :=
  let x := s.link l
  match x.unacked with
  | f :: _ => if s.isOn dHOST then (s.setLinkSt l { x with resends := satInc x.resends }).emit (.flit l f) else s
  | [] => s

/-- CASCADE_RESEND. -/
def execCascadeResend (l : Link) (s : State) : Host.Outcome State Fault Refusal := .next (s.resend l)

/-- CASCADE_LINK_DOWN: eight bad flits, or 1 µs without one. -/
def execCascadeLinkDown (l : Link) (s : State) : Host.Outcome State Fault Refusal :=
  .next (s.setLinkSt l { s.link l with up := false, good := 0 })

end Machine
end Sys2Proof
end

