-- ==== Sys2Proof/Machine/Statistics.lean ====
section
/-! DEFINITION. STATREAD (R68, R228, R229, R231, R302, R312, R313): the blocks it copies and the writes of channel 29. -/

namespace Sys2Proof
namespace Machine

/-! ### The blocks (R231) -/

/-- The set of a STATREAD. -/
def statSet (i : Ins) : Nat := (fld i.a 0 2).toNat

/-- The counter set of a port and reason that is tagged with an epoch; zeros where none is. -/
def Unsorted.tagged (u : Unsorted) (e : BitVec 16) : CSet :=
  if u.curEpoch = e then u.cur else if u.prevEpoch = e then u.prev else {}

/-- The unsorted words of a port. -/
def State.unsortedWords (s : State) (p : Nat) : List DWord :=
  let e := s.reg.epoch
  ((List.range 5).map fun r =>
      let u := s.unsorted p (BitVec.ofNat 3 (r + 1))
      let now := u.tagged e
      let old := u.tagged (e - 1)
      [now.frames, now.bytes, old.frames, old.bytes]).flatten ++ [z64 e, z64 (e - 1)]

/-- The words of a unit in a set. -/
def State.statWords (s : State) (set unit : Nat) : List DWord :=
  if 64 ≤ unit then (List.range 16).map fun w => z64 (s.sliceCount (unit - 64) w)
  else match set with
    | 0 => (List.range 256).map fun w => z64 (s.native unit w)
    | 1 => (List.range 24).map fun n => z64 (s.compat unit n)
    | 2 => (List.range 22).map fun w => z64 (s.secCount unit w)
    | _ => s.unsortedWords unit

/-- The header. -/
def State.statHeader (s : State) (set unit words : Nat) : List Byte :=
  let gen := if 64 ≤ unit then (s.sliceL (unit - 64)).gen else (s.port unit).gen
  slice ([BitVec.ofNat 8 set, BitVec.ofNat 8 unit] ++ leBytes 2 gen.toNat ++ leBytes 2 words ++ [0, 0]
    ++ leBytes 8 s.nowInstant.toNat ++ [s.stampNow.state.code.setWidth 8] ++ leBytes 2 s.time.powerup.toNat) 0 64

/-- A block, padded to a multiple of 64 bytes. -/
def State.statBlock (s : State) (set unit : Nat) : List Byte :=
  let ws := s.statWords set unit
  let b := s.statHeader set unit ws.length ++ (ws.map fun w => leBytes 8 w.toNat).flatten
  slice b 0 ((b.length + 63) / 64 * 64)

/-- Reading the compatibility set clears it (R229). -/
def State.statClear (s : State) (set unit : Nat) : State :=
  if set = 1 && unit < 64 then
    s.forEach (List.range 24) fun s n => s.setStats { s.stats with compat := Tab.put 0 s.stats.compat (24 * unit + n) 0 }
  else s

/-! ### STATREAD -/

/-- The unit after the last one. -/
def statEnd (i : Ins) : Nat := if i.target = 0xFFFF then (if statSet i = 0 then 80 else 64) else i.target.toNat + 1

/-- Channel 29 writes a block; the step ends when every write has been answered. -/
def State.statWrite (s : State) (jid : Nat) (base : HostAddr) (b : List Byte) : State :=
  let n := b.length / 64
  let s := s.updEntry jid fun e => { e with rd := some { base := base, need := n } }
  s.queueWrite base b false (.hostWrite jid) (some 29)

/-- A step of STATREAD: one unit is copied at once and written; `bytes` of the units before it. -/
def stepStatread (jid : Nat) (i : Ins) (unit bytes : Nat) (s : State) : Ran :=
  let total := BitVec.ofNat 64 bytes
  match (s.entry jid).bind (·.rd) with
  | none =>
    if !s.isOn dREG || !s.isOn dDMA then .done .targetAsleep total 0 s
    else
      let b := s.statBlock (statSet i) unit
      .release (.statread unit bytes) ((s.statClear (statSet i) unit).statWrite jid (i.b.setWidth 57 + BitVec.ofNat 57 bytes) b)
  | some r =>
    let s' := s.updEntry jid fun e => { e with rd := none }
    match r.failed with
    | some o => .done .dmaBusError total (z64 (r.base + BitVec.ofNat 57 o)) s'
    | none =>
      if r.bytes.isNone then .release (.statread unit bytes) s
      else if statEnd i ≤ unit + 1 then .ok (BitVec.ofNat 64 (bytes + 64 * r.need)) 0 s'
      else .more (.statread (unit + 1) (bytes + 64 * r.need)) s'

/-- STATREAD. The counters belong to REG and channel 29 to DMA: with either asleep it completes TARGET_ASLEEP (log entry 43). -/
def runStatread (jid : Nat) (_ : BitVec 16) (i : Ins) (s : State) : Ran :=
  if (i.target != 0xFFFF && 64 ≤ i.target.toNat) || !hostAddrOk i.b 64 then .bad .badOperand s
  else stepStatread jid i (if i.target = 0xFFFF then 0 else i.target.toNat) 0 s

/-- STATREAD. -/
def execStatread (q : QId) (i : Ins) (s : State) : Host.Outcome State Fault Refusal := begins q 0x42 true i runStatread s

end Machine
end Sys2Proof
end

