-- ==== Sys2Proof/Machine/Window.lean ====
section
/-! DEFINITION. The fabric-port window and the management target (R12, R374, R376, R436 to R439, R471, R482, R492 to R494): direct
reads and writes, the doorbell and interrupt pages, and the bring-up of the administrative queue. -/

namespace Sys2Proof
namespace Machine

/-! ### The bring-up parameters (R436 to R439) -/

/-- R436: the bring-up parameters are open to direct writes. -/
def State.bootOpen (s : State) : Bool := s.top.mode == .cold && !s.top.ready

/-- The low or the high word of a bring-up address. -/
def addrWord (old : DWord) (high : Bool) (v : Word) : DWord :=
  if high then (((v &&& 0x01FFFFFF#32) ++ fld old 0 32 : BitVec 64)) else ((fld old 32 32 ++ v : BitVec 64))

/-- The byte ranges `[a, a + m)` and `[b, b + n)` share a byte. -/
def rangesMeet (a m b n : Nat) : Bool := decide (a < b + n) && decide (b < a + m)

/-- R438: why go is refused; 0 when it is not. -/
def bootCheck (u : Unit00) : BitVec 3 :=
  let base (x : DWord) : Bool := x != 0 && x.toNat % 4096 == 0
  if !base u.aqBase || !base u.acqBase then 1
  else if u.aqHeadWb = 0 || u.aqHeadWb.toNat % 8 != 0 then 2
  else if 12 < u.aqSize.toNat || 12 < u.acqSize.toNat then 3
  else if rangesMeet u.aqBase.toNat (1024 * 2 ^ u.aqSize.toNat) u.acqBase.toNat (512 * 2 ^ u.acqSize.toNat) then 4
  else 0

/-- R439: the contexts of queues 0 and 1. -/
def bootQueue0 (u : Unit00) : Queue :=
  { kind := .admin, base := u.aqBase.setWidth 57, size := u.aqSize, cq := 1, maxOut := 64, modCount := 0, headWb := u.aqHeadWb.setWidth 57 }
def bootQueue1 (u : Unit00) : Queue :=
  { kind := .completion, base := u.acqBase.setWidth 57, size := u.acqSize, vector := u.bootVector, irqEn := u.bootIrqEn, modCount := 1 }

/-- A write of `boot.aq_cfg` that R436 admits. -/
def State.bootCfg (s : State) (v : Word) : State :=
  let u := { s.top with aqSize := fld v 23 4, acqSize := fld v 19 4, bootIrqEn := bitOf v 18, bootVector := fld v 0 11 }
  if !bitOf v 30 then s.setTop u
  else if bootCheck u != 0 then s.setTop { u with bootError := bootCheck u }
  else ((s.setTop { u with ready := true, bootError := 0 }).setQueue 0 (bootQueue0 u)).setQueue 1 (bootQueue1 u)

/-- A write of a bring-up word that R436 admits. -/
def State.bootWrite (s : State) (w : Nat) (v : Word) : State :=
  let u := s.top
  if w = 0x30 || w = 0x31 then s.setTop { u with aqBase := addrWord u.aqBase (w == 0x31) v }
  else if w = 0x32 || w = 0x33 then s.setTop { u with aqHeadWb := addrWord u.aqHeadWb (w == 0x33) v }
  else if w = 0x34 || w = 0x35 then s.setTop { u with acqBase := addrWord u.acqBase (w == 0x35) v }
  else s.bootCfg v

/-! ### The pages (R78, R97, R492) -/

/-- Word addresses of the doorbells, the DMA doorbells and the interrupt vectors. -/
def isBell (a : Nat) : Bool := decide (0x40000000 ≤ a) && decide (a < 0x40001000)
def isDmaBell (a : Nat) : Bool := decide (0x40001000 ≤ a) && decide (a < 0x40001020)
def isVectorWord (a : Nat) : Bool := decide (0x40004000 ≤ a) && decide (a < 0x40006000)
/-- Word addresses of the parameter regions. -/
def isParam (a : Nat) : Bool := decide (a < 0x21000000)

/-- Word `i` of a vector. -/
def vectorWordOf (x : Vector97) (i : Nat) : Word :=
  if i = 0 then fld x.addr 0 32 else if i = 1 then fld x.addr 32 32 else if i = 2 then x.data else vectorCtl x

/-- A direct write of word `i` of vector v (R12, R97, R98). -/
def State.vectorWrite (s : State) (v i : Nat) (w : Word) : State :=
  let x := s.vector v
  if i = 0 then s.setVector v { x with addr := (fld x.addr 32 32 ++ w : BitVec 64) }
  else if i = 1 then s.setVector v { x with addr := (w ++ fld x.addr 0 32 : BitVec 64) }
  else if i = 2 then s.setVector v { x with data := w }
  else
    let s := if bitOf w 1 then s.clearPending v else s
    let s := s.setVector v { s.vector v with rsv := fld w 3 29, pin := bitOf w 2 }
    if bitOf w 0 then s.setVector v { s.vector v with mask := true } else s.unmask v

/-! ### Direct reads and writes -/

/-- The window front end answers, in AON, unless a cold reset holds it (R435, R471). -/
def State.windowRuns (s : State) : Bool := s.top.resetting != .cold

/-- A direct read (R10, R12, R376, R414, R492, R493). -/
def State.directRead (s : State) (path : Path) (addr : BitVec 34) : Word × State :=
  let a := addr.toNat
  if isBell a then ((s.doorbell (a - 0x40000000)).setWidth 32, s)
  else if isDmaBell a then ((s.chan (a - 0x40001000)).credits.setWidth 32, s)
  else if isVectorWord a then (vectorWordOf (s.vector ((a - 0x40004000) / 4)) (a % 4), s)
  else if isParam a && !s.regionOn a then (Config.asleepWord, s.logAsleep false (addr.setWidth 32))
  else match if isParam a then describe s a else none with
    | some d =>
      let (v, s) := s.readMapped path d a
      (v, d.onDirect s)
    | none => (0, s.logAccess 2 addr)

/-- A direct write (R12, R376, R436, R492, R493). -/
def State.directWrite (s : State) (addr : BitVec 34) (v : Word) : State :=
  let a := addr.toNat
  if isBell a then s.doorbellWrite (a - 0x40000000) (fld v 0 17)
  else if isDmaBell a then s.dmaBell (a - 0x40001000) v
  else if isVectorWord a then s.vectorWrite ((a - 0x40004000) / 4) (a % 4) v
  else if isParam a && !s.regionOn a then s.logAsleep true (addr.setWidth 32)
  else if decide (0x30 ≤ a) && decide (a ≤ 0x36) && s.bootOpen then s.bootWrite a v
  else if isParam a && (describe s a).isSome then s.logAccess 1 addr
  else s.logAccess 3 addr

/-- A read of a mapped word through the Postmaster's path (R494), which nothing logs. -/
def State.pathRead (s : State) (path : Path) (addr : BitVec 34) : State :=
  if path = .postmaster then
    match if s.pmRuns && s.regionOn addr.toNat then s.pmRead addr.toNat else none with
    | some (v, s) => s.emit (.answer path addr v)
    | none => s
  else if !s.windowRuns then s
  else
    let (v, s) := s.directRead path addr
    s.emit (.answer path addr v)

/-- A write through the window or the management target. -/
def State.pathWrite (s : State) (addr : BitVec 34) (v : Word) : State := if s.windowRuns then s.directWrite addr v else s

/-- DIRECT_WRITE. -/
def execDirectWrite (_path : Path) (addr : BitVec 34) (v : Word) (s : State) : Host.Outcome State Fault Refusal :=
  .next (s.pathWrite addr v)

/-- DIRECT_READ. -/
def execDirectRead (path : Path) (addr : BitVec 34) (s : State) : Host.Outcome State Fault Refusal := .next (s.pathRead path addr)

/-- PARAM_LOW_WORD_READ: a read of a 64-bit parameter's low word, which loads the path's latch (R10). -/
def execParamLowWordRead (path : Path) (addr : BitVec 34) (s : State) : Host.Outcome State Fault Refusal := .next (s.pathRead path addr)

/-- TIME_NOW_READ: a read of word 0 of `time.now` (R269). -/
def execTimeNowRead (path : Path) (s : State) : Host.Outcome State Fault Refusal := .next (s.pathRead path 0x06000000)

/-- COMPAT_COUNTER_READ: a read of a compatibility counter, which clears it (R229). -/
def execCompatCounterRead (path : Path) (addr : BitVec 34) (s : State) : Host.Outcome State Fault Refusal := .next (s.pathRead path addr)

/-- TABLE_WINDOW_READ: a read of word 0x53F of a physical slice (R414). -/
def execTableWindowRead (path : Path) (slice : BitVec 5) (s : State) : Host.Outcome State Fault Refusal :=
  .next (s.pathRead path (BitVec.ofNat 34 (0x1000053F + 0x1000000 * slice.toNat)))

/-- BOOT_GO: a direct write of `boot.aq_cfg` (R439). -/
def execBootGo (v : Word) (s : State) : Host.Outcome State Fault Refusal := .next (s.pathWrite 0x36 v)

/-- TARGET_READ: a read request of the target port (R471). -/
def State.targetRead (s : State) (tag : Byte) (addr : BitVec 34) : State :=
  if s.windowRuns then
    let (v, s) := s.directRead .window addr
    s.emit (.targetAnswer tag v)
  else s

/-- TARGET_READ. -/
def execTargetRead (tag : Byte) (addr : BitVec 34) (s : State) : Host.Outcome State Fault Refusal := .next (s.targetRead tag addr)

/-! ### The management target (R374, R482) -/

/-- MGMT_BLOCK_WRITE: a bad PEC is not acknowledged, and the write is dropped. The target belongs to HOST. -/
def State.mgmtWrite (s : State) (addr v : Word) (pec : Option Bool) : State :=
  if !s.isOn dHOST then s
  else if pec = some false then s.emit (.mgmtAck false)
  else (s.pathWrite (addr.setWidth 34) v).emit (.mgmtAck true)

/-- MGMT_BLOCK_WRITE. -/
def execMgmtBlockWrite (addr : Word) (v : Word) (pec : Option Bool) (s : State) : Host.Outcome State Fault Refusal :=
  .next (s.mgmtWrite addr v pec)

/-- MGMT_PROCESS_CALL. -/
def State.mgmtRead (s : State) (addr : Word) (pec : Option Bool) : State :=
  if !s.isOn dHOST then s
  else if pec = some false then s.emit (.mgmtAck false)
  else
    let (v, s) := s.directRead .mgmt (addr.setWidth 34)
    s.emit (.mgmtData v)

/-- MGMT_PROCESS_CALL. -/
def execMgmtProcessCall (addr : Word) (pec : Option Bool) (s : State) : Host.Outcome State Fault Refusal := .next (s.mgmtRead addr pec)

/-- MGMT_ADDRESS_MATCH: in the entry window of a domain of the wake set the address is not acknowledged; otherwise it is, SCL is
held while HOST is asleep, the match is wake source 0x5, and a head relays it: with HOST asleep, once HOST runs (log entry 133). -/
def State.mgmtMatch (s : State) : State :=
  if s.entryWindow then s.emit (.mgmtAck false)
  else
    let s := s.emit (.mgmtAck true)
    let relays := bitOf s.power.wakeCfg 27
    let s :=
      if s.isOn dHOST then (if s.isHead && relays then s.sendFlit .relay s.othersPresent else s)
      else { s with power := { s.power with sclHeld := true, relayOwed := relays } }.emit .mgmtHoldScl
    s.wake 5 0

/-- MGMT_ADDRESS_MATCH. -/
def execMgmtAddressMatch (s : State) : Host.Outcome State Fault Refusal := .next s.mgmtMatch

end Machine
end Sys2Proof
end

