-- ==== Sys2Proof/Machine/Monitor.lean ====
section
/-! DEFINITION. The service monitor and the test access port (R300, R444 to R450), and the meaning of every opcode for an instruction
that the monitor runs. -/

namespace Sys2Proof
namespace Machine

/-! ### The line (R444 to R446) -/

/-- R444: the monitor answers while HOST and a Postmaster unit are on. -/
def State.monOn (s : State) : Bool := s.isOn dHOST && s.pmOn && s.top.resetting == .none

/-- A command of the monitor, where it answers at all: it waits for a running exec (R446), and closed it accepts only some
commands (R445). -/
def State.monCommand (s : State) (closedToo : Bool) (f : State → State) : State :=
  if !s.monOn then s
  else if s.mon.busy.isSome then s.say .busy
  else if !closedToo && !s.mon.isOpen then s.say .locked
  else f s

/-- `ver`. -/
def State.sayVer (s : State) : State :=
  s.say (.ver Config.idDevice Config.idRelease s.cs.verBase s.cs.verPatch s.cs.verOpen s.cs.crc s.top.mode s.mon.isOpen)

/-- MON_VER. -/
def execMonVer (s : State) : Host.Outcome State Fault Refusal := .next (s.monCommand true State.sayVer)

/-- The rates of `baud`, in the order of their codes. -/
def baudRates : List Nat := [115200, 230400, 460800, 921600, 1000000, 1500000, 2000000, 3000000]

/-- `baud`: OK at the old rate. The manual gives no answer for another rate; this model answers BAD_OPERAND's. -/
def State.setBaud (rate : Nat) (s : State) : State :=
  match (List.range 8).find? fun k => baudRates.getD k 0 == rate with
  | some k => { s.say .ok with mon := { s.mon with baud := BitVec.ofNat 4 k } }
  | none => s.say (.status .badOperand)

/-- MON_BAUD. -/
def execMonBaud (rate : Nat) (s : State) : Host.Outcome State Fault Refusal := .next (s.monCommand false (State.setBaud rate))

/-- R47, R376: why a GET of a word fails. -/
def State.getCheck (s : State) (a : Nat) : Option Status :=
  if !permits 0x02 {} s.top.mode then some .modeForbids
  else if (describe s a).isNone then some .badOperand
  else if !s.regionOn a then some .targetAsleep
  else none

/-- `peek`: GET of words in turn, up to the first that fails. -/
def peekWords : Nat → Nat → State → State
  | 0, _, s => s.say .ok
  | n + 1, a, s => match s.getCheck a with
    | some st => s.say (.status st)
    | none => match s.pmRead a with
      | some (v, s) => peekWords n (a + 1) (s.say (.word (BitVec.ofNat 32 a) v))
      | none => s.say (.status .badOperand)

/-- MON_PEEK. -/
def execMonPeek (addr : Word) (n : Nat) (s : State) : Host.Outcome State Fault Refusal :=
  .next (s.monCommand false fun s => if n = 0 || 64 < n then s.say (.status .badOperand) else peekWords n addr.toNat s)

/-- `poke`: SET, and the value after it. -/
def State.poke (a : Nat) (v m : Word) (s : State) : State :=
  if !permits 0x01 {} s.top.mode then s.say (.status .modeForbids)
  else match setCheck s a m v with
    | some st => s.say (.status st)
    | none => let s := s.applySet a m v; s.say (.value (s.peek a))

/-- MON_POKE. -/
def execMonPoke (addr : Word) (v m : Word) (s : State) : Host.Outcome State Fault Refusal :=
  .next (s.monCommand false (State.poke addr.toNat v m))

/-! ### `exec` (R446) -/

/-- The meaning of each opcode, as its own row gives it. -/
def runOp (op : Byte) (jid : Nat) (queue : BitVec 16) (i : Ins) (s : State) : Ran :=
  match op.toNat with
  | 0x00 => runNop jid queue i s | 0x01 => runSet jid queue i s | 0x02 => runGet jid queue i s
  | 0x03 => runSetblk jid queue i s | 0x04 => runFence jid queue i s | 0x05 => runWaitfor jid queue i s
  | 0x06 => runSkipif jid queue i s | 0x07 => runSignal jid queue i s | 0x10 => runQcreate jid queue i s
  | 0x11 => runQdestroy jid queue i s | 0x12 => runQmodify jid queue i s | 0x18 => runMode jid queue i s
  | 0x20 => runPortcfg jid queue i s | 0x21 => runPortup jid queue i s | 0x22 => runPortdown jid queue i s
  | 0x23 => if bitOf i.a 0 then runSpareReturn jid queue i s else runSpareMove jid queue i s
  | 0x24 => runSlicetest jid queue i s | 0x30 => runRulewr jid queue i s | 0x31 => runEpoch jid queue i s
  | 0x32 => runBindwr jid queue i s | 0x33 => runPattwr jid queue i s | 0x40 => runSnap jid queue i s
  | 0x41 => runPairwr jid queue i s | 0x42 => runStatread jid queue i s | 0x50 => runTimeset jid queue i s
  | 0x51 => runTimeadj jid queue i s | 0x52 => runTimestep jid queue i s | 0x60 => runKeyload jid queue i s
  | 0x61 => runKeyretire jid queue i s | 0x62 => runGuardset jid queue i s | 0x63 => runGuardlock jid queue i s
  | 0x70 => if bitOf i.a 8 then runDmarunArm jid queue i s else runDmarun jid queue i s
  | 0x71 => runDmastop jid queue i s | 0x80 => runVote jid queue i s | 0x81 => runUnvote jid queue i s
  | 0x82 => if fld i.a 0 8 == 0 then runHintCancel jid queue i s else runHint jid queue i s
  | 0x83 => runCapset jid queue i s | 0x90 => runCsload jid queue i s
  | 0x91 => if bitOf i.a 7 then runCsswapUnmap jid queue i s else runCsswapMap jid queue i s
  | 0x92 => runCsverify jid queue i s | 0xA0 => runTwinbind jid queue i s | 0xA1 => runTwinrelease jid queue i s
  | 0xA2 => runHeadyield jid queue i s
  | _ => runOpen jid queue i s

/-- The monitor's entry starts when its turn has come. -/
def State.startMonitor (s : State) : State :=
  match s.startable 0xFFFF with
  | some e => s.launch e (runOp e.op)
  | none => s

/-- `exec`: the instruction is journaled with queue identifier 0xFFFF; the monitor waits for its end. With the journal full it
cannot be taken. -/
def State.monExec (op : Byte) (i : Ins) (s : State) : State :=
  if Config.journalSize ≤ s.pm.journal.length then s.say .busy
  else
    let (id, s) := s.takeId
    let e : JEntry := { id := id, queue := 0xFFFF, op := op, ins := i, raw := entryOfIns op i }
    ({ s.setJournal (s.pm.journal ++ [e]) with mon := { s.mon with busy := some id } }).startMonitor

/-- MON_EXEC. -/
def execMonExec (op : Byte) (i : Ins) (s : State) : Host.Outcome State Fault Refusal := .next (s.monCommand false (State.monExec op i))

/-! ### Dumps -/

/-- `n` lines of free bytes, 16 each (log entry 51). -/
def sayFree : Nat → Nat → State → State
  | 0, _, s => s
  | n + 1, off, s =>
    let (a, s) := s.takeFree 64
    let (b, s) := s.takeFree 64
    sayFree n (off + 16) (s.say (.bytes off (leBytes 8 a.toNat ++ leBytes 8 b.toNat)))

/-- The first 80 bytes of a journal entry (R42). -/
def journalBytes (e : JEntry) : List Byte :=
  leBytes 64 e.raw.toNat ++ leBytes 2 e.queue.toNat ++ leBytes 2 e.idx.toNat ++ leBytes 2 e.gen.toNat ++ [e.st.code, e.emitted]
    ++ leBytes 8 ((e.step ++ e.cursor : BitVec 64)).toNat

/-- Bytes 80 to 119 of the entry of an open routine that has come to a COMMIT: its g9 to g13 (R341). -/
def JEntry.savedBytes (e : JEntry) : Option (List Byte) :=
  match e.routine with
  | some (.openRun o) => if o.cont.isSome || o.released.isSome || e.step != 0 then
      some ((List.range 5).map fun k => leBytes 8 (o.saved.getD k 0).toNat).flatten else none
  | _ => none

/-- `journal`: eight lines an entry. The manual gives the other bytes 80 to 127 no layout: they are free (log entry 51). -/
def State.sayEntry (s : State) (e : JEntry) : State :=
  let bs := journalBytes e
  let s := s.forEach (List.range 5) fun s k => s.say (.bytes (16 * k) (slice bs (16 * k) 16))
  match e.savedBytes with
  | some bs =>
    let (a, s) := s.takeFree 64
    (s.say (.bytes 80 (slice bs 0 16))).say (.bytes 96 (slice bs 16 16)) |>.say (.bytes 112 (slice bs 32 8 ++ leBytes 8 a.toNat))
  | none => sayFree 3 80 s

/-- MON_JOURNAL. -/
def execMonJournal (n : Nat) (s : State) : Host.Outcome State Fault Refusal :=
  .next (s.monCommand false fun s =>
    if n = 0 || 4096 < n then s.say (.status .badOperand)
    else (s.forEach (s.pm.journal.take n) State.sayEntry).say .ok)

/-- `mcheck`. -/
def State.sayMcheck (s : State) : State :=
  (s.forEach [0x01000000, 0x01000002, 0x60, 0x01000018] fun s a => s.say (.word (BitVec.ofNat 32 a) (s.peek a))).say .ok

/-- MON_MCHECK. -/
def execMonMcheck (s : State) : Host.Outcome State Fault Refusal := .next (s.monCommand false State.sayMcheck)

/-- `lane`: the lane's two parameters on its present carrier, its four counters, and the eye figures of the PMA. A lane that no port
uses is counted under the port of its own number. -/
def State.sayLane (l : Nat) (eye : Word) (s : State) : State :=
  let base := 0x10000000 + 0x1000000 * s.carrier (l / 4) + 0x200 + 0x10 * (l % 4)
  if !s.sliceOn (l / 4) then s.say (.status .targetAsleep)
  else
    let p := (s.portOfLane l).getD l
    let s := s.emit (.eyeSel (BitVec.ofNat 6 l))
    let s := (s.say (.value (s.peek base))).say (.value (s.peek (base + 1)))
    let s := s.forEach [0x0C8, 0x0D0, 0x0D8, 0x0E0] fun s w => s.say (.count (s.native p (w + (l - p))))
    (s.say (.value eye)).say .ok

/-- MON_LANE. -/
def execMonLane (l : PortId) (eye : Word) (s : State) : Host.Outcome State Fault Refusal :=
  .next (s.monCommand false (State.sayLane l.toNat eye))

/-- MON_UNKNOWN_COMMAND: a line of more than 255 characters, or one that names no command; closed, the monitor answers such a
command as every other that it does not accept. -/
def execMonUnknownCommand (line : List Byte) (s : State) : Host.Outcome State Fault Refusal :=
  .next (if 255 < line.length then (if s.monOn then s.say .long else s) else s.monCommand false fun s => s.say .cmd)

/-! ### Unlocking (R300, R447 to R449) -/

/-- The level of DBG_EN: a fall closes the monitor and the test access port (R448). -/
def State.setDbg (s : State) (level : Bool) : State :=
  { s with mon := { s.mon with dbgEn := level, isOpen := s.mon.isOpen && level, tapOpen := s.mon.tapOpen && level } }

/-- R447: the conditions of an unlock on the mode. -/
def unlockMode (m : Mode) : Bool := m == .provision || m == .service || m == .quarantine

/-- An unlock attempt is refused. -/
def State.refuseUnlock (s : State) : State := { s with mon := { s.mon with refused := satInc s.mon.refused } }

/-- `unlock erase`. -/
def State.unlockErase (readBackFails : Nat) (s : State) : State :=
  if !s.mon.dbgEn then s.refuseUnlock.say .dbgEn
  else if !unlockMode s.top.mode then s.refuseUnlock.say .mode
  else
    ((s.placeVotes 0xC0 [dHOST, dPMA, dPMB]).startRails).unlock false readBackFails

/-- MON_UNLOCK_ERASE, with the level of DBG_EN. -/
def execMonUnlockErase (dbgEn : Bool) (readBackFails : Nat) (s : State) : Host.Outcome State Fault Refusal :=
  .next ((s.setDbg dbgEn).monCommand true (State.unlockErase readBackFails))

/-- An instruction is shifted into the test access port: what the instruction register has captured, 0b0000_0001, leaves it (R449). -/
def State.tapShift (s : State) : State := s.emit (.tdo 1)

/-- TAP_UNLOCK: instruction 0x7C, under the conditions of R447. In MAINTENANCE the erasure has already been done. -/
def State.tapUnlock (s : State) (readBackFails : Nat) : State :=
  if !s.mon.dbgEn then s.refuseUnlock
  else if s.top.mode = .maintenance then s.opens true
  else if !unlockMode s.top.mode then s.refuseUnlock
  else s.unlock true readBackFails

/-- TAP_UNLOCK, with the level of DBG_EN. -/
def execTapUnlock (dbgEn : Bool) (readBackFails : Nat) (s : State) : Host.Outcome State Fault Refusal :=
  .next ((s.setDbg dbgEn).tapShift.tapUnlock readBackFails)

/-- DBG_EN_FALL. -/
def execDbgEnFall (s : State) : Host.Outcome State Fault Refusal := .next (s.setDbg false)

/-- The instruction register of the test access port holds `ir`; while the port is locked every instruction acts as BYPASS (R449). -/
def State.tapLoad (s : State) (ir : Byte) : State :=
  { s.tapShift with mon := { s.mon with tapIr := if s.mon.tapOpen then ir else 0xFF } }

/-- TAP_INSTRUCTION (R449): BYPASS while the port is locked. Open, the mandatory instructions of IEEE 1149.1 take effect in the port's own
registers, and 0x7C finds the port open; an internal scan instruction acts on Kwetiral's scan chains, whose effect on the block the manual does
not give (log entry 8). -/
def execTapInstruction (ir : Byte) (s : State) : Host.Outcome State Fault Refusal :=
  if s.mon.tapOpen && ir != 0xFF && ir != 0x7C && Config.tapInternal ir then .refused .internalScan else .next (s.tapLoad ir)

end Machine
end Sys2Proof
end

