-- ==== Sys2Proof/Machine/Routines.lean ====
section
/-! DEFINITION. ROUTINE_STEP (R43, R44, R49): the next step of a routine that has begun, by where it stands; and what passes while no
command waits. -/

namespace Sys2Proof
namespace Machine

/-- The next step of an entry's routine. -/
def routineStep (e : JEntry) (r : Routine) (s : State) : Ran :=
  let jid := e.id
  let i := e.ins
  match r with
  | .fence since dirty recs before => stepFence jid i since dirty recs before s
  | .waitfor since last => stepWaitfor i since last s
  | .signal => stepSignal jid e.queue i s
  | .setblk done => stepSetblk jid i done s
  | .qdestroy head0 posted => stepQdestroy i head0 posted s
  | .portup since => stepPortup i since s
  | .portdown phase reported => stepPortdown i phase reported s
  | .spare phase since mark => stepSpare i phase since mark s
  | .slicetest steps => stepSlicetest i steps s
  | .rulewr ks done => stepRulewr jid i ks done s
  | .bindwr ks done => bindings.step jid i ks done s
  | .pattwr ks done => patterns.step jid i ks done s
  | .epoch phase lead => stepEpoch jid e.queue i phase lead s
  | .snap phase lead => stepSnap jid e.queue i phase lead s
  | .pairwr done w k => stepPairwr i done w k s
  | .statread unit bytes => stepStatread jid i unit bytes s
  | .keyload phase => stepKeyload jid e.queue i phase s
  | .keyretire n => stepKeyretire n s
  | .vote ds => stepVote ds s
  | .unvote todo stopped withdrawn => stepUnvote jid i todo stopped withdrawn s
  | .unvoteRefused stopped k d => stepUnvoteRefused stopped k d s
  | .csload done => stepCsload jid i done s
  | .csverify done crc => stepCsverify done crc s
  | .twinbind part done => stepTwinbind e.queue part done s
  | .dmastop => stepDmastop i s
  | .openRun o => stepOpen jid o s

/-- A queue's routine takes its turn and runs its next step. -/
def State.goOn (s : State) (e : JEntry) : State :=
  match e.routine with
  | some r => (State.absorb e.id (routineStep e r (s.takeTurn e))).takeDue
  | none => s

/-- ROUTINE_STEP of a queue; of the monitor's instruction under number 0xFFF where that queue has none that can go on. -/
def State.routineStep (s : State) (q : QId) : State :=
  match s.resumable q.toNat with
  | some e => s.goOn e
  | none =>
    if q = 0xFFF then match s.resumable 0xFFFF with
      | some e => s.goOn e
      | none => s.startMonitor
    else s

/-- ROUTINE_STEP. -/
def execRoutineStep (q : QId) (s : State) : Host.Outcome State Fault Refusal := .next (s.routineStep q)

/-! ### No command waits -/

/-- `n` periods of 1.25 ns on the block's clock and on the lanes (R101). -/
def State.periods : Nat → State → State
  | 0, s => s
  | n + 1, s => State.periods n { s with clock := s.clock + 1 }.laneTime

/-- One cycle of the TIME clock (R245, log entry 1), or of the reference in low-power holdover, which is 16 of them (R263): the
timebase advances, the token buckets fill (R153), the lanes carry their transfers (R101), a drain that nothing holds any more ends
(R195), and channel 28 makes the reloads that are due (R352). -/
def State.idle (s : State) : State :=
  let n := if s.time.lowPower then 16 else 1
  ((State.periods n (s.noteRegime.tick.fillBuckets n)).forEach allSlices State.drained).issueReloads

end Machine
end Sys2Proof
end

