-- ==== Sys2Proof/Machine/Dispatch.lean ====
section
/-! DEFINITION. One arm per command: each calls the meaning of its row. -/

namespace Sys2Proof
namespace Machine

/-- The effect of a command on everything but the queue. -/
def exec (i : Instr) (s : State) : Host.Outcome State Fault Refusal :=
  match i with
  | .nop q ins => Sys2Proof.Machine.execNop q ins s
  | .set q ins => Sys2Proof.Machine.execSet q ins s
  | .get q ins => Sys2Proof.Machine.execGet q ins s
  | .setblk q ins => Sys2Proof.Machine.execSetblk q ins s
  | .fence q ins => Sys2Proof.Machine.execFence q ins s
  | .waitfor q ins => Sys2Proof.Machine.execWaitfor q ins s
  | .skipif q ins => Sys2Proof.Machine.execSkipif q ins s
  | .signal q ins => Sys2Proof.Machine.execSignal q ins s
  | .qcreate q ins => Sys2Proof.Machine.execQcreate q ins s
  | .qdestroy q ins => Sys2Proof.Machine.execQdestroy q ins s
  | .qmodify q ins => Sys2Proof.Machine.execQmodify q ins s
  | .mode q ins => Sys2Proof.Machine.execMode q ins s
  | .portcfg q ins => Sys2Proof.Machine.execPortcfg q ins s
  | .portup q ins => Sys2Proof.Machine.execPortup q ins s
  | .portdown q ins => Sys2Proof.Machine.execPortdown q ins s
  | .spareMove q ins => Sys2Proof.Machine.execSpareMove q ins s
  | .spareReturn q ins => Sys2Proof.Machine.execSpareReturn q ins s
  | .slicetest q ins => Sys2Proof.Machine.execSlicetest q ins s
  | .rulewr q ins => Sys2Proof.Machine.execRulewr q ins s
  | .epoch q ins => Sys2Proof.Machine.execEpoch q ins s
  | .bindwr q ins => Sys2Proof.Machine.execBindwr q ins s
  | .pattwr q ins => Sys2Proof.Machine.execPattwr q ins s
  | .snap q ins => Sys2Proof.Machine.execSnap q ins s
  | .pairwrWrite q ins => Sys2Proof.Machine.execPairwrWrite q ins s
  | .pairwrFill q ins => Sys2Proof.Machine.execPairwrFill q ins s
  | .pairwrInvalidate q ins => Sys2Proof.Machine.execPairwrInvalidate q ins s
  | .statread q ins => Sys2Proof.Machine.execStatread q ins s
  | .timeset q ins => Sys2Proof.Machine.execTimeset q ins s
  | .timeadj q ins => Sys2Proof.Machine.execTimeadj q ins s
  | .timestep q ins => Sys2Proof.Machine.execTimestep q ins s
  | .keyload q ins => Sys2Proof.Machine.execKeyload q ins s
  | .keyretire q ins => Sys2Proof.Machine.execKeyretire q ins s
  | .guardset q ins => Sys2Proof.Machine.execGuardset q ins s
  | .guardlock q ins => Sys2Proof.Machine.execGuardlock q ins s
  | .dmarun q ins => Sys2Proof.Machine.execDmarun q ins s
  | .dmarunArm q ins => Sys2Proof.Machine.execDmarunArm q ins s
  | .dmastop q ins => Sys2Proof.Machine.execDmastop q ins s
  | .vote q ins => Sys2Proof.Machine.execVote q ins s
  | .unvote q ins => Sys2Proof.Machine.execUnvote q ins s
  | .hint q ins => Sys2Proof.Machine.execHint q ins s
  | .hintCancel q ins => Sys2Proof.Machine.execHintCancel q ins s
  | .capset q ins => Sys2Proof.Machine.execCapset q ins s
  | .csload q ins => Sys2Proof.Machine.execCsload q ins s
  | .csswapMap q ins => Sys2Proof.Machine.execCsswapMap q ins s
  | .csswapUnmap q ins => Sys2Proof.Machine.execCsswapUnmap q ins s
  | .csverify q ins => Sys2Proof.Machine.execCsverify q ins s
  | .twinbind q ins => Sys2Proof.Machine.execTwinbind q ins s
  | .twinrelease q ins => Sys2Proof.Machine.execTwinrelease q ins s
  | .headyield q ins => Sys2Proof.Machine.execHeadyield q ins s
  | .openRoutine q op ins => Sys2Proof.Machine.execOpenRoutine q op ins s
  | .routineStep q => Sys2Proof.Machine.execRoutineStep q s
  | .queueDoorbell q w => Sys2Proof.Machine.execQueueDoorbell q w s
  | .queuePoll q => Sys2Proof.Machine.execQueuePoll q s
  | .entryFetch q idx data => Sys2Proof.Machine.execEntryFetch q idx data s
  | .commandAccept q => Sys2Proof.Machine.execCommandAccept q s
  | .injectConsume q => Sys2Proof.Machine.execInjectConsume q s
  | .headWriteback q => Sys2Proof.Machine.execHeadWriteback q s
  | .completionPost q => Sys2Proof.Machine.execCompletionPost q s
  | .moderationTimeout q => Sys2Proof.Machine.execModerationTimeout q s
  | .vectorPendingClear v firesToo => Sys2Proof.Machine.execVectorPendingClear v firesToo s
  | .vectorUnmask v => Sys2Proof.Machine.execVectorUnmask v s
  | .directWrite path addr v => Sys2Proof.Machine.execDirectWrite path addr v s
  | .directRead path addr => Sys2Proof.Machine.execDirectRead path addr s
  | .paramLowWordRead path addr => Sys2Proof.Machine.execParamLowWordRead path addr s
  | .timeNowRead path => Sys2Proof.Machine.execTimeNowRead path s
  | .compatCounterRead path addr => Sys2Proof.Machine.execCompatCounterRead path addr s
  | .tableWindowRead path slice => Sys2Proof.Machine.execTableWindowRead path slice s
  | .bootGo v => Sys2Proof.Machine.execBootGo v s
  | .dmaDoorbell c w => Sys2Proof.Machine.execDmaDoorbell c w s
  | .move c w => Sys2Proof.Machine.execMove c w s
  | .fill c w => Sys2Proof.Machine.execFill c w s
  | .compare c w => Sys2Proof.Machine.execCompare c w s
  | .loop c w => Sys2Proof.Machine.execLoop c w s
  | .wait c w => Sys2Proof.Machine.execWait c w s
  | .dmaWaitTimeout c => Sys2Proof.Machine.execDmaWaitTimeout c s
  | .dmaSignal c w => Sys2Proof.Machine.execDmaSignal c w s
  | .link c w => Sys2Proof.Machine.execLink c w s
  | .dmaNop c op w => Sys2Proof.Machine.execDmaNop c op w s
  | .endProg c w => Sys2Proof.Machine.execEndProg c w s
  | .endReread c isLink target => Sys2Proof.Machine.execEndReread c isLink target s
  | .dmaIdleCheck c => Sys2Proof.Machine.execDmaIdleCheck c s
  | .masterResponse tag err data => Sys2Proof.Machine.execMasterResponse tag err data s
  | .targetRead tag addr => Sys2Proof.Machine.execTargetRead tag addr s
  | .mgmtBlockWrite addr v pec => Sys2Proof.Machine.execMgmtBlockWrite addr v pec s
  | .mgmtProcessCall addr pec => Sys2Proof.Machine.execMgmtProcessCall addr pec s
  | .mgmtAddressMatch => Sys2Proof.Machine.execMgmtAddressMatch s
  | .frameReceive p f => Sys2Proof.Machine.execFrameReceive p f s
  | .pauseFrameReceive p f => Sys2Proof.Machine.execPauseFrameReceive p f s
  | .pauseExpire p ins => Sys2Proof.Machine.execPauseExpire p ins s
  | .verifyReceive p => Sys2Proof.Machine.execVerifyReceive p s
  | .respondReceive p => Sys2Proof.Machine.execRespondReceive p s
  | .verifyTimer p => Sys2Proof.Machine.execVerifyTimer p s
  | .parse k parity => Sys2Proof.Machine.execParse k parity s
  | .replicaReload k word => Sys2Proof.Machine.execReplicaReload k word s
  | .ledgerResponse tag uncorrectable => Sys2Proof.Machine.execLedgerResponse tag uncorrectable s
  | .probeTimeout tag => Sys2Proof.Machine.execProbeTimeout tag s
  | .ledgerUnreachable tag => Sys2Proof.Machine.execLedgerUnreachable tag s
  | .cacheCleaner index => Sys2Proof.Machine.execCacheCleaner index s
  | .agingScan index uncorrectable => Sys2Proof.Machine.execAgingScan index uncorrectable s
  | .sweepStep uncorrectable => Sys2Proof.Machine.execSweepStep uncorrectable s
  | .pairTableClear => Sys2Proof.Machine.execPairTableClear s
  | .coldResetWriteback ok => Sys2Proof.Machine.execColdResetWriteback ok s
  | .handover k => Sys2Proof.Machine.execHandover k s
  | .punt k => Sys2Proof.Machine.execPunt k s
  | .recircReceive k p frame mw => Sys2Proof.Machine.execRecircReceive k p frame mw s
  | .rxCreditReturn k n => Sys2Proof.Machine.execRxCreditReturn k n s
  | .heldBankLow k bank => Sys2Proof.Machine.execHeldBankLow k bank s
  | .pipelineTxFrame k p word frame => Sys2Proof.Machine.execPipelineTxFrame k p word frame s
  | .injectFetch q ok frame => Sys2Proof.Machine.execInjectFetch q ok frame s
  | .txFrameStart p preempt => Sys2Proof.Machine.execTxFrameStart p preempt s
  | .preempt p offset => Sys2Proof.Machine.execPreempt p offset s
  | .txFrameEnd p preempt => Sys2Proof.Machine.execTxFrameEnd p preempt s
  | .xoffChange p ins high => Sys2Proof.Machine.execXoffChange p ins high s
  | .pfcRefresh p ins => Sys2Proof.Machine.execPfcRefresh p ins s
  | .dutyClip p ins => Sys2Proof.Machine.execDutyClip p ins s
  | .dutyRelease p ins => Sys2Proof.Machine.execDutyRelease p ins s
  | .stormWatchdogRx p ins => Sys2Proof.Machine.execStormWatchdogRx p ins s
  | .stormWatchdogTx p ins => Sys2Proof.Machine.execStormWatchdogTx p ins s
  | .stormHoldExpire p ins sent => Sys2Proof.Machine.execStormHoldExpire p ins sent s
  | .guardRefusalReport p guard => Sys2Proof.Machine.execGuardRefusalReport p guard s
  | .laneSignalDetect l high => Sys2Proof.Machine.execLaneSignalDetect l high s
  | .alignmentMarker l m => Sys2Proof.Machine.execAlignmentMarker l m s
  | .faultOrderedSet p remote present => Sys2Proof.Machine.execFaultOrderedSet p remote present s
  | .fecDegradeInterval p => Sys2Proof.Machine.execFecDegradeInterval p s
  | .laneCalibration l rx tx => Sys2Proof.Machine.execLaneCalibration l rx tx s
  | .ppsEdge phase => Sys2Proof.Machine.execPpsEdge phase s
  | .todMessage bytes inTime => Sys2Proof.Machine.execTodMessage bytes inTime s
  | .holdoverTimeout => Sys2Proof.Machine.execHoldoverTimeout s
  | .ppsOutput rise => Sys2Proof.Machine.execPpsOutput rise s
  | .armedInstant snap => Sys2Proof.Machine.execArmedInstant snap s
  | .alarmFire n => Sys2Proof.Machine.execAlarmFire n s
  | .collectiveTimeout op => Sys2Proof.Machine.execCollectiveTimeout op s
  | .cascadeFlitReceive l f => Sys2Proof.Machine.execCascadeFlitReceive l f s
  | .cascadeResend l => Sys2Proof.Machine.execCascadeResend l s
  | .cascadeLinkDown l => Sys2Proof.Machine.execCascadeLinkDown l s
  | .heartbeat => Sys2Proof.Machine.execHeartbeat s
  | .memberDeclaredFailed m => Sys2Proof.Machine.execMemberDeclaredFailed m s
  | .cascadeTimeExchange offset roundTrip => Sys2Proof.Machine.execCascadeTimeExchange offset roundTrip s
  | .mirrorInterval => Sys2Proof.Machine.execMirrorInterval s
  | .twinAdopt => Sys2Proof.Machine.execTwinAdopt s
  | .machineCheck what => Sys2Proof.Machine.execMachineCheck what s
  | .periodicSelfTest aFails bFails => Sys2Proof.Machine.execPeriodicSelfTest aFails bFails s
  | .csParityReload ovl page word fetched q => Sys2Proof.Machine.execCsParityReload ovl page word fetched q s
  | .scrub => Sys2Proof.Machine.execScrub s
  | .sliceFault n kind entry bank => Sys2Proof.Machine.execSliceFault n kind entry bank s
  | .internalChannelFault c => Sys2Proof.Machine.execInternalChannelFault c s
  | .postmasterWatchdog => Sys2Proof.Machine.execPostmasterWatchdog s
  | .warmReset => Sys2Proof.Machine.execWarmReset s
  | .coldReset => Sys2Proof.Machine.execColdReset s
  | .resetRelease cascId => Sys2Proof.Machine.execResetRelease cascId s
  | .aonPowerUp bootCount bodLatch lmRegion => Sys2Proof.Machine.execAonPowerUp bootCount bodLatch lmRegion s
  | .brownOut bootCount => Sys2Proof.Machine.execBrownOut bootCount s
  | .wake source detail => Sys2Proof.Machine.execWake source detail s
  | .domainRestoreStep d => Sys2Proof.Machine.execDomainRestoreStep d s
  | .domainEntry d => Sys2Proof.Machine.execDomainEntry d s
  | .railGood d => Sys2Proof.Machine.execRailGood d s
  | .capEvaluation o => Sys2Proof.Machine.execCapEvaluation o s
  | .powerMeasurement m mean => Sys2Proof.Machine.execPowerMeasurement m mean s
  | .measurementStale => Sys2Proof.Machine.execMeasurementStale s
  | .capInput v => Sys2Proof.Machine.execCapInput v s
  | .hintExpire n => Sys2Proof.Machine.execHintExpire n s
  | .monVer => Sys2Proof.Machine.execMonVer s
  | .monBaud rate => Sys2Proof.Machine.execMonBaud rate s
  | .monPeek addr n => Sys2Proof.Machine.execMonPeek addr n s
  | .monPoke addr v m => Sys2Proof.Machine.execMonPoke addr v m s
  | .monExec op ins => Sys2Proof.Machine.execMonExec op ins s
  | .monJournal n => Sys2Proof.Machine.execMonJournal n s
  | .monMcheck => Sys2Proof.Machine.execMonMcheck s
  | .monLane l eye => Sys2Proof.Machine.execMonLane l eye s
  | .monUnlockErase dbgEn readBackFails => Sys2Proof.Machine.execMonUnlockErase dbgEn readBackFails s
  | .tapUnlock dbgEn readBackFails => Sys2Proof.Machine.execTapUnlock dbgEn readBackFails s
  | .dbgEnFall => Sys2Proof.Machine.execDbgEnFall s
  | .fecCodewordDecode l corrected badBlocks uncorrectable => Sys2Proof.Machine.execFecCodewordDecode l corrected badBlocks uncorrectable s
  | .dmaWaitTimeEnd c => Sys2Proof.Machine.execDmaWaitTimeEnd c s
  | .corePllLock => Sys2Proof.Machine.execCorePllLock s
  | .selfTestEnd aFails bFails => Sys2Proof.Machine.execSelfTestEnd aFails bFails s
  | .heldBankHigh k bank => Sys2Proof.Machine.execHeldBankHigh k bank s
  | .sentPauseExpire p ins => Sys2Proof.Machine.execSentPauseExpire p ins s
  | .monUnknownCommand line => Sys2Proof.Machine.execMonUnknownCommand line s
  | .tapInstruction ir => Sys2Proof.Machine.execTapInstruction ir s

end Machine
end Sys2Proof
end

