-- ==== Sys2Proof/Safety.lean ====
section
/-! DEFINITION. What counts as a safe run of the block, and the terms the statements use. -/

namespace Sys2Proof

/-- The block answers the step with a next state: it neither faults nor refuses. -/
def Safety.goesOn (s : Machine.State) : Prop := ∃ t, Machine.step s = .next t

namespace Machine

/-- The state in which the start of an entry runs its checks and its step 0: the turn has passed to it (R44) and it runs, under its queue's
present generation (R93). -/
def State.begun (s : State) (e : JEntry) : State :=
  let gen := s.genOf e.q e.gen
  (s.takeTurn e).updEntry e.id fun x => { x with st := .running, ran := gen }

/-- The oldest entry of a queue may start (R43, R44, R57), holds this opcode and these operands, and passes checks 1 to 3
(R47). -/
def State.starts (s : State) (q : QId) (op : Byte) (i : Ins) (e : JEntry) : Prop :=
  s.startable q.toNat = some e ∧ e.op = op ∧ e.ins = i ∧ preCheck (s.begun e) op (if e.queue = 0xFFFF then 0 else e.queue) i = none

/-- The oldest entry of a queue may go on with its routine, which stands at `r` (R49). -/
def State.goesOnWith (s : State) (q : QId) (e : JEntry) (r : Routine) : Prop :=
  s.resumable q.toNat = some e ∧ e.routine = some r

/-- What a step leaves of the commands and the guards: the commands that wait, locked guard settings (R148), the canonical form
of the table of guard settings. -/
def GuardsStay (s t : State) : Prop :=
  t.pending = s.pending ∧ (s.guards.locked = true → t.guards = s.guards) ∧
    (Tab.wf {} s.guards.ports = true → Tab.wf {} t.guards.ports = true)

end Machine
end Sys2Proof
end

