-- ==== Sys2Proof/Certificates/Slice0/Obligations.lean ====
section
/-! DEFINITION. The statements for the provers: each is a Prop; its docstring says what it formalises. -/

open Sys2Proof Sys2Proof.Machine

/-! ### The step -/

/-- The block takes the command that waits longest and runs it with the rest of the queue. -/
def Obligations.QueueStepRunsFrontCommand : Prop :=
  ∀ (c : Instr) (s : State), step { s with pending := c :: s.pending } = exec c s

/-- With no command waiting, one cycle of the TIME clock passes (R245, R263; log entry 1: the model's choice): while TIME runs the
timebase advances by `time.inc`, in units of 2^-30 ns, 16 cycles at once in low-power holdover, carrying into the
seconds; the token buckets of the guards fill, the block's clock advances and the lanes carry their transfers (R101), drains that nothing holds
any more end (R195), and the reloads that are due are asked for (R352). -/
def Obligations.EmptyQueueLetsTimePass : Prop :=
  ∀ s : State, s.pending = [] →
    let n := if s.time.lowPower then 16 else 1
    step s = .next (((State.periods n (s.noteRegime.tick.fillBuckets n)).forEach allSlices State.drained).issueReloads) ∧
    (∀ k t, (State.periods k t).clock = t.clock + k) ∧
    (s.timeRuns = true → s.time.sub < 1073741824000000000 →
      s.tick.now30 = (s.now30 + (s.time.inc.toNat * if s.time.lowPower then 16 else 1) : Nat) % (2 ^ 48 * 1073741824000000000))

/-- Every command but an internal scan instruction on an open test access port is answered with a next state; that one, a code the
configuration names as such, is refused (R449; the refusal is the model's, log entry 8). -/
def Obligations.OnlyAnInternalScanStops : Prop :=
  ∀ (c : Instr) (s : State), (∃ t, exec c s = .next t) ∨
    ∃ ir, c = .tapInstruction ir ∧ s.mon.tapOpen = true ∧ ir ≠ 0xFF ∧ ir ≠ 0x7C ∧ Config.tapInternal ir = true ∧
      exec c s = .refused .internalScan

/-- Each step takes the front command from the queue and adds none: every effect of a command is on the rest of the
state. -/
def Obligations.EveryStepTakesOneCommand : Prop :=
  ∀ s t : State, step s = .next t → t.pending = s.pending.tail

/-- Once GUARDLOCK has set the lock, no step but a cold reset, AON power-up or a brown-out changes a guard setting or the
lock: no instruction, no window or management access, no monitor command, no warm reset, no end of a domain's
power (R148, R149, R446). -/
def Obligations.LockedGuardsOutlastEveryStep : Prop :=
  ∀ s t : State, s.guards.locked = true → step s = .next t →
    (∀ c ∈ s.pending.head?, c ≠ .coldReset ∧ (∀ b l r, c ≠ .aonPowerUp b l r) ∧ ∀ b, c ≠ .brownOut b) → t.guards = s.guards

/-- R148: slice, Postmaster and warm resets, and the entry of any domain into its rest state and its restore, leave the guard settings and the lock as they
are; a cold reset returns every setting to its reset value and clears the lock. -/
def Obligations.GuardSettingsAndResets : Prop :=
  ∀ (s : State) (n d : BitVec 5) (kind : BitVec 4) (entry : BitVec 13) (bank : Bool),
    (∃ t, exec (.sliceFault n kind entry bank) s = .next t ∧ t.guards = s.guards) ∧
    (∃ t, exec .postmasterWatchdog s = .next t ∧ t.guards = s.guards) ∧
    (∃ t, exec .warmReset s = .next t ∧ t.guards = s.guards) ∧
    (∃ t, exec (.domainEntry d) s = .next t ∧ t.guards = s.guards) ∧
    (∃ t, exec (.domainRestoreStep d) s = .next t ∧ t.guards = s.guards) ∧
    (∃ t, exec .coldReset s = .next t ∧ t.guards.locked = false ∧ ∀ p, t.guardPort p = {})

/-- The table of guard settings keeps its canonical form at every step: ports rising, none at its reset settings. -/
def Obligations.GuardTableStaysCanonical : Prop :=
  ∀ s t : State, Tab.wf {} s.guards.ports = true → step s = .next t → Tab.wf {} t.guards.ports = true

/-- After reset: COLD entered from COLD with cause 0, no pending command, the lock clear, every domain but AON off, TIME UNSET,
every port DOWN, no vector pending and every vector masked, no queue, caddies empty, the guard table canonical. -/
def Obligations.ResetState : Prop :=
  let r := State.reset
  r.pending = [] ∧ r.top.mode = .cold ∧ r.top.cause = 0 ∧ r.guards.locked = false ∧ Tab.wf {} r.guards.ports = true ∧
    (∀ p, r.guardPort p = {} ∧ (r.port p).st = .down ∧ (r.port p).mode = 0) ∧
    (∀ d, d ≠ 0 → r.isOn d = false) ∧ r.isOn 0 = true ∧ r.time.state = .unset ∧ r.time.inc = 0x50000000#32 ∧
    (∀ v, (r.vector v).mask = true ∧ (r.vector v).pending = false) ∧ (∀ q, r.queue q = none) ∧ r.pm.journal = [] ∧
    r.power.soft = 0xB3B0#16 ∧ r.out = []

/-! ### The start and the end of an instruction -/

/-- R47, checks 1 to 3: an instruction whose start fails a check completes with that check's status, zero results and none of its
own effect. BAD_OPCODE comes before the number of extension words, and that before the mode. -/
def Obligations.FailedChecksEndTheStart : Prop :=
  ∀ (s : State) (q : QId) (op : Byte) (i : Ins) (e : JEntry) (st : Status) (run : Nat → BitVec 16 → Ins → State → Ran),
    s.startable q.toNat = some e → e.op = op → e.ins = i →
    let b := s.begun e
    let from' : BitVec 16 := if e.queue = 0xFFFF then 0 else e.queue
    (preCheck b op from' i = some st → begins q op true i run s = .next (b.finish e.id st 0 0)) ∧
    (dispatchOk b op from' = false → preCheck b op from' i = some .badOpcode) ∧
    (dispatchOk b op from' = true → extOk b op i = false → preCheck b op from' i = some .badOperand) ∧
    (dispatchOk b op from' = true → extOk b op i = true → permits op i b.top.mode = false →
      preCheck b op from' i = some .modeForbids)

/-- R45, R93: the end of an instruction of a queue. OK without the C flag leaves the journal and reports nothing; any other status,
or C, fills the completion slot with the status and both results, and notes the generation of the queue under which it ran. -/
def Obligations.EndOfAnInstruction : Prop :=
  ∀ (s : State) (e : JEntry) (st : Status) (a b : DWord), s.entry e.id = some e → e.queue ≠ 0xFFFF → s.mirrors = false →
    e.rolled = false →
    (st = .ok → e.ins.c = false → (s.finish e.id st a b).pm.journal = dropFirst (fun x => x.id == e.id) s.pm.journal) ∧
    ((st ≠ .ok ∨ e.ins.c = true) →
      (s.finish e.id st a b).entry e.id = some { e with
        st := .completed, routine := none, rd := none, slot := some ⟨st, a, b⟩, ran := s.genOf e.q e.gen })

/-- R55: an instruction with a rollback behind it that ends OK ends exactly as one that ends RETRIED_AFTER_CHECK with the same results;
without a rollback it does not. -/
def Obligations.RollbackTurnsOkIntoRetried : Prop :=
  ∀ (s : State) (e : JEntry) (a b : DWord), s.entry e.id = some e →
    (e.rolled = true → s.finish e.id .ok a b = s.finish e.id .retriedAfterCheck a b) ∧
    (e.rolled = true → e.queue ≠ 0xFFFF → s.mirrors = false → (s.finish e.id .ok a b).entry e.id = some { e with
      st := .completed, routine := none, rd := none, slot := some ⟨.retriedAfterCheck, a, b⟩,
      ran := s.genOf e.q e.gen }) ∧
    (e.rolled = false → e.ins.c = true → e.queue ≠ 0xFFFF → s.mirrors = false → (s.finish e.id .ok a b).entry e.id = some { e with
      st := .completed, routine := none, rd := none, slot := some ⟨.ok, a, b⟩, ran := s.genOf e.q e.gen })

/-! ### Instructions that end in their start -/

/-- NOP, HINT, HINT_CANCEL and CAPSET: no effect; the hint is kept with the others (R386); all hints are withdrawn; the soft cap
is set and result A is the effective cap, the lower of the two caps, a cap input below 12,000 mW counting as
12,000 (R381). -/
def Obligations.NopHintAndCap : Prop :=
  ∀ (s : State) (q : QId) (i : Ins) (e : JEntry),
    let b := s.begun e
    (s.starts q 0x00 i e → exec (.nop q i) s = .next (b.finish e.id .ok 0 0)) ∧
    (s.starts q 0x82 i e → fld i.a 0 8 ≠ 0#8 → (fld i.a 0 8).toNat ≤ 5 → i.b ≠ 0 → i.b.toNat ≤ 10000000 →
      b.power.hints.length < 8 →
      exec (.hint q i) s = .next
        ((b.setHints (b.power.hints ++ [{ kind := fld i.a 0 8, expected := fld i.a 16 16, duration := i.b.toNat, since := b.clock }])).finish e.id .ok 0 0)) ∧
    (s.starts q 0x82 i e → fld i.a 0 8 = 0#8 → exec (.hintCancel q i) s = .next ((b.setHints []).finish e.id .ok 0 0)) ∧
    (s.starts q 0x83 i e → 12000 ≤ i.a.toNat → i.a.toNat ≤ 46000 →
      exec (.capset q i) s = .next
        ((b.setPower { b.power with soft := i.a.setWidth 16 }).finish e.id .ok
          (BitVec.ofNat 64 (min i.a.toNat (max 12000 b.power.capIn.toNat))) 0))

/-- SET and GET of a mapped word `d` in a region that is on (R10, R68, R493, R495). SET within the writable bits, with a value in range, completes
OK and result A is the word then in force; of a one-word parameter of RW bits that value is the old one with the masked bits replaced; the
low word of a two-word parameter is staged, and the high word puts both in force; a mask of 0 changes nothing. GET completes OK with the
word, with target bit 0 with the next word above it, and of a two-word parameter both are one value. A word that is not mapped is BAD_OPERAND, so
are a bit that cannot be written and a value out of range, and an asleep region is TARGET_ASLEEP. -/
def Obligations.SetAndGetParameters : Prop :=
  ∀ (s : State) (q : QId) (i : Ins) (e : JEntry) (d : PDesc),
    let b := s.begun e
    let a := i.a.toNat
    let m : Word := fld i.b 32 32
    let v : Word := fld i.b 0 32
    let k := a - d.base
    let merged : Word := (wordBits (d.val.setWidth 64) k &&& ~~~ m) ||| (v &&& m)
    let sets (t : State) : Prop := exec (.set q i) s = .next (t.finish e.id .ok (z64 (t.peek a)) 0)
    let gets (t : State) (x : DWord) : Prop := exec (.get q i) s = .next (t.finish e.id .ok x 0)
    (s.starts q 0x01 i e →
      (describe b a = none → exec (.set q i) s = .next (b.finish e.id .badOperand 0 0)) ∧
      (describe b a = some d →
        (d.barred = true → exec (.set q i) s = .next (b.finish e.id .badOperand 0 0)) ∧
        (m &&& ~~~ (wordBits d.rw k ||| wordBits d.w1c k) ≠ 0 → exec (.set q i) s = .next (b.finish e.id .badOperand 0 0)) ∧
        (d.barred = false → m &&& ~~~ (wordBits d.rw k ||| wordBits d.w1c k) = 0 →
          (m &&& wordBits d.rw k ≠ 0 → d.valid (d.candidate b k m v) = true) →
          (b.regionOn a = false → exec (.set q i) s = .next (b.finish e.id .targetAsleep 0 0)) ∧
          (b.regionOn a = true → sets (b.applySet a m v) ∧
            (m = 0 → sets b) ∧
            (d.w1c = 0 → m ≠ 0 →
              (d.words = 1 → sets (d.write (z64 merged) b)) ∧
              (d.words ≠ 1 → k = 0 → sets { b with dma := { b.dma with
                staged := (d.base, merged) :: b.dma.staged.filter fun kv => kv.1 != d.base } }) ∧
              (d.words ≠ 1 → k ≠ 0 → ∀ lo, b.dma.staged.find? (fun kv => kv.1 == d.base) = some (d.base, lo) →
                sets (d.write (merged ++ lo : BitVec 64) { b with dma := { b.dma with
                  staged := b.dma.staged.filter fun kv => kv.1 != d.base } }))))))) ∧
    (s.starts q 0x02 i e →
      (describe b a = none → exec (.get q i) s = .next (b.finish e.id .badOperand 0 0)) ∧
      (describe b a = some d →
        ((b.regionOn a = false ∨ (bitOf i.target 0 = true ∧ b.regionOn (a + 1) = false)) →
          (bitOf i.target 0 = true → (describe b (a + 1)).isSome = true) → exec (.get q i) s = .next (b.finish e.id .targetAsleep 0 0)) ∧
        (b.regionOn a = true → bitOf i.target 0 = false →
          gets (b.readMapped .postmaster d a).2 (z64 (b.readMapped .postmaster d a).1) ∧
          (d.words = 1 → gets (d.onRead b) (z64 (d.val.setWidth 32)))) ∧
        (bitOf i.target 0 = true → describe b (a + 1) = none → exec (.get q i) s = .next (b.finish e.id .badOperand 0 0)) ∧
        (b.regionOn a = true → b.regionOn (a + 1) = true → bitOf i.target 0 = true → (describe b (a + 1)).isSome = true →
          (d.words ≠ 1 → d.base = a → describe b (a + 1) = some d →
            ∃ t, gets t (d.val.setWidth 64) ∧ t = { b with dma := { b.dma with latches := t.dma.latches } }) ∧
          (∀ d', describe (b.readMapped .postmaster d a).2 (a + 1) = some d' →
            gets ((b.readMapped .postmaster d a).2.readMapped .postmaster d' (a + 1)).2
              (((b.readMapped .postmaster d a).2.readMapped .postmaster d' (a + 1)).1 ++ (b.readMapped .postmaster d a).1 : BitVec 64)))))

/-- WAITFOR and SKIPIF read a word and test it under the mask (R58, R59): WAITFOR completes at once where the test holds, and
with TIMEOUT and the value where it does not and the time is 0; SKIPIF skips the next n entries of its queue where the
test holds and none where it does not. -/
def Obligations.TestsOfAWord : Prop :=
  ∀ (s : State) (q : QId) (i : Ins) (e : JEntry) (d : PDesc),
    let b := s.begun e
    let v := (b.readMapped .postmaster d i.a.toNat).1
    let t := (b.readMapped .postmaster d i.a.toNat).2
    describe b i.a.toNat = some d → b.regionOn i.a.toNat = true →
    (s.starts q 0x05 i e → testHolds i v = true → exec (.waitfor q i) s = .next (t.finish e.id .ok (z64 v) 0)) ∧
    (s.starts q 0x05 i e → testHolds i v = false → fld i.target 0 14 = 0#14 →
      exec (.waitfor q i) s = .next (t.finish e.id .timeout (z64 v) 0)) ∧
    (s.starts q 0x06 i e → (fld i.target 0 8).toNat ≠ 0 → testHolds i v = true →
      exec (.skipif q i) s = .next ((t.skipNext e.queue.toNat e.id (fld i.target 0 8).toNat).finish e.id .ok
        (BitVec.ofNat 64 (fld i.target 0 8).toNat) 0)) ∧
    (s.starts q 0x06 i e → (fld i.target 0 8).toNat ≠ 0 → testHolds i v = false →
      exec (.skipif q i) s = .next (t.finish e.id .ok 0 0))

/-- FENCE and SIGNAL (R57, R60, R68): a fence whose conditions hold completes with 0 microseconds waited, another starts to wait; a fence with
the S flag is issued to the cascade first. SIGNAL posts the completions of its queue that are ready; while one is being posted it waits; then it writes
operand B to the address of the extension, where there is one, and fires the target vector unless the target is 0xFFFF. -/
def Obligations.FenceAndSignal : Prop :=
  ∀ (s : State) (q : QId) (i : Ins) (e : JEntry),
    let b := s.begun e
    let m := b.fenceMarks i.a
    let p := State.postAll b.pm.journal.length e.queue.toNat b
    (s.starts q 0x04 i e → i.s = false → (bitOf i.a 2 = false ∨ i.target = 0xFFFF ∨ (i.target.toNat < 16 ∧ b.sliceOn i.target.toNat = true)) →
      (b.fenceConditions i.a i.b i.target m.1 m.2 e.id = true → exec (.fence q i) s = .next (b.finish e.id .ok 0 0)) ∧
      (b.fenceConditions i.a i.b i.target m.1 m.2 e.id = false →
        exec (.fence q i) s = .next (b.microPasses.commitStep e.id (.fence b.pm.micros m.1 m.2 e.id)))) ∧
    (s.starts q 0x04 i e → i.s = true → bitOf i.a 2 = false → fld i.a 16 16 = 0#16 →
      let c := (b.issueColl e.id e.queue 0x04 i.a i.target i.b false).readiness
      c.issuedEnd e.id = none →
      exec (.fence q i) s = .next (c.microPasses.commitStep e.id
        (.fence (b.issueColl e.id e.queue 0x04 i.a i.target i.b false).pm.micros m.1 m.2 e.id))) ∧
    (s.starts q 0x07 i e → signalOk i = true →
      (p.postingNow e.queue.toNat = true → exec (.signal q i) s = .next (State.absorb e.id (.release .signal p))) ∧
      (p.postingNow e.queue.toNat = false → exec (.signal q i) s = .next ((p.signal e.id i).finish e.id .ok 0 0))) ∧
    (i.ext = 0 → i.target = 0xFFFF → p.signal e.id i = p) ∧
    (i.ext = 0 → i.target ≠ 0xFFFF → p.signal e.id i = (p.fireVector i.target.toNat).countEmission e.id) ∧
    (i.ext ≠ 0 → i.target = 0xFFFF → p.signal e.id i =
      (p.queueWrite (fld i.e0 0 57) (leBytes 8 i.b.toNat) false .none).countEmission e.id)

/-- QCREATE, QDESTROY and QMODIFY (R72 to R75). QCREATE of a target below 4,096 other than 0 that no queue has puts the context of the extension words in
force; an existing target and target 0 are BAD_OPERAND. QDESTROY closes a queue that no other names; while something is left to
finish it waits; with nothing left a completion queue disappears at once, and the notice of another is placed for its completion queue; once that has been
written the queue is gone and result A is the count of reported entries. QMODIFY of a context that leaves the fixed fields as
they are puts the others in force, and result A is the generation. -/
def Obligations.QueueAdministration : Prop :=
  ∀ (s : State) (q : QId) (i : Ins) (e : JEntry) (x y : Queue) (h n : Nat),
    let b := s.begun e
    let t := i.target.toNat
    let shut : Queue := { x with closing := true, skip := 0, stopped := x.stopped && !x.submits }
    let c := b.setQueue t shut
    (s.starts q 0x10 i e → ctxOf i = some x →
      (0 < t → t < 4096 → b.queue t = none → b.ctxOk t x = true →
        exec (.qcreate q i) s = .next (((b.setQueue t x).mirrorQueue t).finish e.id .ok 0 0)) ∧
      ((t = 0 ∨ (b.queue t).isSome = true) → exec (.qcreate q i) s = .next (b.finish e.id .badOperand 0 0))) ∧
    (s.starts q 0x11 i e → b.queue t = some x → 1 < t → x.closing = false → b.named t x = false → bitOf i.a 0 = false →
      (c.unfinished t shut false = true →
        exec (.qdestroy q i) s = .next (c.microPasses.commitStep e.id (.qdestroy x.head.toNat none))) ∧
      (c.unfinished t shut false = false → x.kind = .completion →
        exec (.qdestroy q i) s = .next (((c.setQueueOpt t none).mirrorQueue t).finish e.id .ok 0 0)) ∧
      (c.unfinished t shut false = false → x.kind ≠ .completion →
        let r := shut.reported x.head.toNat
        let u := (c.takeFree 64).2.setQueue t { shut with notice := some (noticeOf t shut r (c.takeFree 64).1) }
        exec (.qdestroy q i) s = .next ((u.place x.cq (.notice (qid t))).microPasses.commitStep e.id (.qdestroy x.head.toNat (some r))))) ∧
    (s.starts q 0x11 i e → (b.queue t = none ∨ t ≤ 1) → exec (.qdestroy q i) s = .next (b.finish e.id .badOperand 0 0)) ∧
    (e.ins = i → s.queue t = some x → x.notice = none → Machine.routineStep e (.qdestroy h (some n)) s =
      .done .ok (BitVec.ofNat 64 n) 0 ((s.setQueueOpt t none).mirrorQueue t)) ∧
    (s.starts q 0x12 i e → b.queue t = some x → ctxOf i = some y → 1 < t → x.closing = false → b.ctxOk t y = true →
      sameFixed x y = true →
      let w : Queue := { x with poll := y.poll, vector := y.vector, irqEn := y.irqEn, modCount := y.modCount, modTime := y.modTime, maxOut := y.maxOut }
      (y.poll ≠ 0 → exec (.qmodify q i) s = .next (((b.setQueue t w).mirrorQueue t).finish e.id .ok (z64 x.gen) 0)) ∧
      (y.poll = 0 → exec (.qmodify q i) s = .next (((b.setQueue t { w with
        ready := x.ready.filter fun r => decide (x.dist r.1 x.head < x.dist x.tail x.head) }).mirrorQueue t).finish e.id .ok (z64 x.gen) 0)))

/-- MODE (R26, R28), each transition an instruction of queue 0 or another may ask for: COLD to PROVISION once the admin queue is
ready, from queue 0; PROVISION to SERVICE with a verified vendor store; SERVICE to PROVISION with every port DOWN; ADOPTED to
SERVICE with a fit pair. Result A is the low half of `mode.state` afterwards. -/
def Obligations.ModeTransitions : Prop :=
  ∀ (s : State) (q : QId) (i : Ins) (e : JEntry),
    let b := s.begun e
    let ends (t : State) : Host.Outcome State Fault Refusal := .next (t.finish e.id .ok (z64 (fld (modeWord t.top) 0 16)) 0)
    s.starts q 0x18 i e →
    (b.top.mode = .cold → Mode.ofCode (fld i.a 0 4) = some .provision → e.queue = 0 → b.top.ready = true → b.top.coldBar = false →
      exec (.mode q i) s = ends (b.enterMode .provision 0x01).postEverything) ∧
    (b.top.mode = .provision → Mode.ofCode (fld i.a 0 4) = some .service → b.cs.vendorLoaded = true → b.cs.verified = true →
      exec (.mode q i) s = ends ({ b.enterMode .service 0x01 with pm := { b.pm with fromStore := true } }).refreshReplicas) ∧
    (b.top.mode = .service → Mode.ofCode (fld i.a 0 4) = some .provision → b.allDown = true →
      exec (.mode q i) s = ends { b.enterMode .provision 0x01 with pm := { b.pm with fromStore := false } }) ∧
    (b.top.mode = .adopted → Mode.ofCode (fld i.a 0 4) = some .service → b.pm.fit = true →
      exec (.mode q i) s = ends { (b.enterMode .service 0x06).bumpQueues with casc := { b.casc with twin := .bound } })

/-- PORTCFG, PORTUP and PORTDOWN (R68, R115, R507): a port that is DOWN takes its mode and options, and a largest frame unless that operand is 0;
an UP port is already there and a DOWN one starts to train, the instruction waiting as long as operand A says; a port that is not
DOWN stops its intake and the instruction goes on with the frames it holds. -/
def Obligations.PortInstructions : Prop :=
  ∀ (s : State) (q : QId) (i : Ins) (e : JEntry),
    let b := s.begun e
    let p := i.target.toNat
    (s.starts q 0x20 i e → b.portcfgOk i = true → (slicesAt p ((modeWidth (fld i.a 0 8)).getD 1)).all b.sliceOn = true →
      ∃ y : Port, exec (.portcfg q i) s = .next (((b.resetLanes p).setPort p y).finish e.id .ok (z64 (fld i.a 0 8)) 0) ∧
        y.mode = fld i.a 0 8 ∧ y.preemptEn = bitOf i.a 8 ∧ y.protect = bitOf i.a 9 ∧ y.memberGuard = bitOf i.a 10 ∧
        y.maxfrm = (if fld i.b 0 15 = 0 then (b.port p).maxfrm else fld i.b 0 15) ∧ y.st = (b.port p).st) ∧
    (s.starts q 0x21 i e → b.portCheck i = none → (b.port p).st = .up → exec (.portup q i) s = .next (b.finish e.id .ok 0 0)) ∧
    (s.starts q 0x21 i e → b.portCheck i = none → (b.port p).st ≠ .up → (b.port p).st ≠ .quarantined → i.a = 0 →
      let t := b.enablePort p
      exec (.portup q i) s = .next
        ((if (b.port p).st = .down ∧ (t.port p).st = .training then t.beginBackground e.queue 3 p else t).finish e.id .ok 0 0)) ∧
    (s.starts q 0x21 i e → b.portCheck i = none → (b.port p).st ≠ .up → (b.port p).st ≠ .quarantined → i.a ≠ 0 →
      exec (.portup q i) s = .next ((b.enablePort p).commitStep e.id (.portup (b.enablePort p).pm.micros))) ∧
    (s.starts q 0x22 i e → b.portCheck i = none → (b.port p).st = .down → exec (.portdown q i) s = .next (b.finish e.id .ok 0 0)) ∧
    (s.starts q 0x22 i e → b.portCheck i = none → (b.port p).st ≠ .down → (b.port p).st ≠ .quarantined →
      exec (.portdown q i) s = .next ((b.stopIntake p).commitStep e.id (.portdown 1 0)))

/-- SPARE_MOVE, SPARE_RETURN and SLICETEST (R410, R412): a substitution and a return begin with `spare` busy, phase 1, and the slice's number; a
slice test that asks for no pattern completes at once with result 0 and the slice has not passed, another goes on
with the slice marked as testing. -/
def Obligations.SparingInstructions : Prop :=
  ∀ (s : State) (q : QId) (i : Ins) (e : JEntry),
    let b := s.begun e
    let k := i.target.toNat
    let busy := b.setTop { b.top with spareBusy := true, sparePhase := 1, spareLogical := BitVec.ofNat 4 k }
    (s.starts q 0x23 i e → bitOf i.a 0 = false → k < 16 → b.top.spareCarrying = false → b.top.spareBusy = false →
      (b.sliceP 16).testing = false → b.isOn (dSLICE 16) = true → b.sliceOn k = true →
      exec (.spareMove q i) s = .next (State.absorb e.id (.wait (.spare 1 0 0) busy))) ∧
    (s.starts q 0x23 i e → bitOf i.a 0 = true → k < 16 → b.top.spareCarrying = true → b.top.spareLogical.toNat = k →
      b.top.spareBusy = false → (b.sliceP k).passed = true → (b.sliceP k).testing = false → b.isOn (dSLICE 16) = true →
      b.isOn (dSLICE k) = true → exec (.spareReturn q i) s = .next (State.absorb e.id (.wait (.spare 1 0 0) busy))) ∧
    (s.starts q 0x24 i e → k < 17 → b.carried k = none → b.top.spareBusy = false → b.isOn (dSLICE k) = true → fld i.a 0 3 = 0#3 →
      let t := b.setSliceP k { b.sliceP k with testing := true }
      exec (.slicetest q i) s = .next (({ t with fresh := t.fresh + 1 }.setSliceP k { (t.sliceP k) with
        testing := false, passed := false }).finish e.id .ok 0 0)) ∧
    (s.starts q 0x24 i e → k < 17 → b.carried k = none → b.top.spareBusy = false → b.isOn (dSLICE k) = true → fld i.a 0 3 ≠ 0#3 →
      exec (.slicetest q i) s = .next ((b.setSliceP k { b.sliceP k with testing := true }).commitStep e.id
        (.slicetest (testSteps i.a - 1))))

/-- The instructions that begin with a read of host memory (R68): SETBLK, RULEWR on slices that drain no old epoch, BINDWR, PATTWR,
CSLOAD and KEYLOAD pass their operand checks, ask for the bytes of their first step and wait. RULEWR marks its slices as
being written first; CSLOAD clears verified, notes the image's base and reads through channel 28 (R312). -/
def Obligations.InstructionsThatReadHostMemory : Prop :=
  ∀ (s : State) (q : QId) (i : Ins) (e : JEntry),
    let b := s.begun e
    let asks (t : State) (r : Routine) (a : HostAddr) (n : Nat) : Host.Outcome State Fault Refusal :=
      .next (State.absorb e.id (.wait r ((t.updEntry e.id fun x => { x with rd := some { base := a, need := n } }).routineRead e.id a n)))
    let none' (t : State) : Prop := (t.entry e.id).bind (·.rd) = none
    let base : HostAddr := i.b.setWidth 57
    (s.starts q 0x03 i e → i.target ≠ 0 → i.target.toNat ≤ 4096 → hostAddrOk i.b 4 = true → b.regionOn i.a.toNat = true → none' b →
      exec (.setblk q i) s = asks b (.setblk 0) (base + 0) (4 * min 256 i.target.toNat)) ∧
    (s.starts q 0x30 i e → rules.check i b = none →
      let ks := b.tableSlices i.target
      let t := b.forEach ks fun s k => s.setSliceL k { s.sliceL k with writing := true }
      (ks.any fun k => t.sliceOn k && (t.sliceL k).draining) = false → (ks.all fun k => !t.sliceOn k) = false → none' t →
      exec (.rulewr q i) s = asks t (.rulewr ks 0) (base + 0) (128 * min 64 (fld i.a 12 13).toNat)) ∧
    (s.starts q 0x32 i e → bindings.check i b = none → (b.tableSlices i.target).all (fun k => !b.sliceOn k) = false → none' b →
      exec (.bindwr q i) s = asks b (.bindwr (b.tableSlices i.target) 0) (base + 0) (bindings.bytes * min bindings.batch (bindings.count i))) ∧
    (s.starts q 0x33 i e → patterns.check i b = none → (b.tableSlices i.target).all (fun k => !b.sliceOn k) = false → none' b →
      exec (.pattwr q i) s = asks b (.pattwr (b.tableSlices i.target) 0) (base + 0) (patterns.bytes * min patterns.batch (patterns.count i))) ∧
    (s.starts q 0x90 i e → i.target = 0 → loadFirst i + loadCount i ≤ 65536 → hostAddrOk i.b 64 = true → b.isOn dDMA = true →
      let t := b.setCs { b.cs with verified := false, image := base - BitVec.ofNat 57 (16 * loadFirst i) }
      none' t → exec (.csload q i) s = .next (State.absorb e.id (.wait (.csload 0) ((t.updEntry e.id fun x => { x with
        rd := some { base := base + 0, need := 16 * min 512 (loadCount i) } }).routineRead e.id (base + 0) (16 * min 512 (loadCount i)) (some 28))))) ∧
    (s.starts q 0x60 i e → i.target.toNat < 64 → 1 ≤ (fld i.a 4 4).toNat → (fld i.a 4 4).toNat ≤ 4 → hostAddrOk i.b 64 = true →
      (b.keySlot (keySlotOf i)).installed = false → b.hasScratch e.id e.queue = false → none' b →
      exec (.keyload q i) s = asks b (.keyload 0) base 64)

/-- EPOCH and SNAP (R42, R62 to R66) of this block alone: `coll.lead_min` is captured at step 0; with an instant at least that far ahead the switch is
armed for it; while another of the same opcode stands, the instruction waits behind it; an instant that is nearer is BAD_OPERAND where nothing
stands. -/
def Obligations.EpochAndSnapInstructions : Prop :=
  ∀ (s : State) (q : QId) (i : Ins) (e : JEntry),
    let b := s.begun e
    let lead := b.casc.lead.toNat
    (s.starts q 0x31 i e → i.target.toNat < 16 → (fld i.b 0 30).toNat < 1000000000 → i.s = false → i.b ≠ 0 →
      (b.epochBusy = false → b.leadMet lead i.b = false → exec (.epoch q i) s = .next (b.finish e.id .badOperand 0 0)) ∧
      (b.sliceOn i.target.toNat = true →
        (b.epochBusy = true → exec (.epoch q i) s = .next (b.commitStep e.id (.epoch 0 lead))) ∧
        (b.epochBusy = false → b.leadMet lead i.b = true →
          let a : Armed := { instant := i.b, slices := b.epochSlices i.target, jid := some e.id, queue := some e.queue, lead := lead }
          exec (.epoch q i) s = .next ((b.setArmedEpoch (some a)).commitStep e.id (.epoch 1 lead))))) ∧
    (s.starts q 0x40 i e → i.target = 0xFFFF → (fld i.b 0 30).toNat < 1000000000 → b.isRecordQueue b.reg.recordQueue.toNat = true →
      i.s = false → i.b ≠ 0 →
      (b.snapBusy = false → b.leadMet lead i.b = false → exec (.snap q i) s = .next (b.finish e.id .badOperand 0 0)) ∧
      (b.isOn dREG = true →
        (b.snapBusy = true → exec (.snap q i) s = .next (b.commitStep e.id (.snap 0 lead))) ∧
        (b.snapBusy = false → b.leadMet lead i.b = true →
          exec (.snap q i) s = .next ((b.setArmedSnap (some { instant := i.b, jid := some e.id, lead := lead })).commitStep e.id
            (.snap 1 lead)))))

/-- PAIRWR_WRITE, PAIRWR_FILL and PAIRWR_INVALIDATE (R69, R509; STATREAD: R231) with REG on and the pair table cleared: the first 4,096 entries are visited; result A counts
those written and result B those skipped, or the instruction goes on. STATREAD takes the block of its first unit, clears
what it reports and writes it out. -/
def Obligations.PairTableAndStatistics : Prop :=
  ∀ (s : State) (q : QId) (i : Ins) (e : JEntry),
    let b := s.begun e
    let n := min 4096 (pairwrCount i)
    let r := pairwrList i ((List.range n).map fun j => (fld i.b 0 24).toNat + 0 + j) 0 0 b
    let told : Host.Outcome State Fault Refusal :=
      if pairwrCount i ≤ n then .next (r.2.2.finish e.id .ok (BitVec.ofNat 64 r.1) (BitVec.ofNat 64 r.2.1))
      else .next (r.2.2.commitStep e.id (.pairwr n r.1 r.2.1))
    (s.starts q 0x41 i e → pairwrOk i = true → b.isOn dREG = true → b.reg.clearing = false →
      (fld i.a 0 4 = 0#4 → exec (.pairwrWrite q i) s = told) ∧ (fld i.a 0 4 = 1#4 → exec (.pairwrFill q i) s = told) ∧
      (fld i.a 0 4 = 2#4 → exec (.pairwrInvalidate q i) s = told)) ∧
    (s.starts q 0x42 i e → i.target.toNat < 64 → hostAddrOk i.b 64 = true → (b.entry e.id).bind (·.rd) = none → b.isOn dREG = true →
      b.isOn dDMA = true →
      exec (.statread q i) s = .next (State.absorb e.id (.release (.statread i.target.toNat 0)
        ((b.statClear (statSet i) i.target.toNat).statWrite e.id (i.b.setWidth 57 + BitVec.ofNat 57 0)
          (b.statBlock (statSet i) i.target.toNat)))))

/-- TIMESET, TIMEADJ and TIMESTEP on a block that follows no other, with TIME on (R247, R260, R261, R510): the time is replaced and
the state is FREE; the offset of operand B goes to the servo of a SOURCE that is the host, result A is the increment
afterwards; the time moves by operand B, and LOCKED and HOLDOVER become FREE. -/
def Obligations.TimeInstructions : Prop :=
  ∀ (s : State) (q : QId) (i : Ins) (e : JEntry),
    let b := s.begun e
    let done (t : State) (a : DWord) : Host.Outcome State Fault Refusal := .next ((t.tellTime true).afterStep.finish e.id .ok a 0)
    let at30 : Nat := (fld i.e0 46 48 : BitVec 48).toNat * 1073741824000000000 + (fld i.e0 16 30 : BitVec 30).toNat * 1073741824
      + (fld i.e0 0 16 : BitVec 16).toNat * 16384
    let new : Int := b.now30 + i.b.toInt * 16384
    b.time.follows = false → b.isOn dTIME = true →
    (s.starts q 0x50 i e → (fld i.e0 16 30 : BitVec 30).toNat < 1000000000 →
      let t := (b.stepTo at30).freshTau
      exec (.timeset q i) s = done (t.setTimeUnit (t.time.enter .free)) (z64 (fld i.e0 46 48 : BitVec 48))) ∧
    (s.starts q 0x51 i e → b.time.source = 1 → b.time.state ≠ .unset →
      exec (.timeadj q i) s = .next ((b.acceptOffset i.b.toInt).finish e.id .ok (z64 (b.acceptOffset i.b.toInt).time.inc) 0)) ∧
    (s.starts q 0x52 i e → 0 ≤ new → new < 2 ^ 48 * 1073741824000000000 → b.time.state ≠ .locked → b.time.state ≠ .holdover →
      let t := (b.stepTo new.toNat).freshTau
      exec (.timestep q i) s = done t (z64 t.time.seconds)) ∧
    (s.starts q 0x52 i e → 0 ≤ new → new < 2 ^ 48 * 1073741824000000000 → (b.time.state = .locked ∨ b.time.state = .holdover) →
      let t := (b.stepTo new.toNat).freshTau
      exec (.timestep q i) s = done (t.setTimeUnit (t.time.enter .free)) (z64 t.time.seconds))

/-- KEYRETIRE (R289), GUARDSET and GUARDLOCK (R147, R149), the guards permitted to change in PROVISION alone (R26): an SA that is not installed needs nothing; an installed one whose frames are off
the wire is erased; a locked guard refuses both guard instructions with GUARD_LOCKED; an open one takes the setting of
each target port, and the lock is set. -/
def Obligations.KeyRetireAndGuards : Prop :=
  ∀ (s : State) (q : QId) (i : Ins) (e : JEntry),
    let b := s.begun e
    let n := keySlotOf i
    (∀ (op : Byte) (m : Mode), (op = 0x62 ∨ op = 0x63) → (permits op i m = true ↔ m = .provision)) ∧
    (s.starts q 0x61 i e → i.target.toNat < 64 → (b.keySlot n).installed = false →
      exec (.keyretire q i) s = .next (b.finish e.id .ok 0 0)) ∧
    (s.starts q 0x61 i e → i.target.toNat < 64 → (b.keySlot n).installed = true → bitOf i.a 2 = true →
      exec (.keyretire q i) s = .next (((b.setKeySlot n { b.keySlot n with installed := false, retiring := true }).setKeySlot n {}).finish
        e.id .ok 0 0)) ∧
    (s.starts q 0x62 i e → i.target.toNat < 64 → guardOk i = true →
      let t := b.guardWrite i i.target.toNat
      (b.guards.locked = false → exec (.guardset q i) s = .next ((t.guardResult (t.guardPort i.target.toNat) i).2.finish e.id .ok
        (t.guardResult (t.guardPort i.target.toNat) i).1 0)) ∧
      (b.guards.locked = true → exec (.guardset q i) s = .next (b.finish e.id .guardLocked 0 0))) ∧
    (s.starts q 0x62 i e → i.target = 0xFFFF → guardOk i = true → b.guards.locked = false →
      let t := b.forEach allPorts fun s p => s.guardWrite i p
      exec (.guardset q i) s = .next ((t.guardResult (t.guardPort 0) i).2.finish e.id .ok (t.guardResult (t.guardPort 0) i).1 0)) ∧
    (s.starts q 0x63 i e → b.guards.locked = false →
      exec (.guardlock q i) s = .next (({ b with guards := { b.guards with locked := true } }).finish e.id .ok 0 0)) ∧
    (s.starts q 0x63 i e → b.guards.locked = true → exec (.guardlock q i) s = .next (b.finish e.id .guardLocked 0 0))

/-- DMARUN, DMARUN_ARM and DMASTOP on a channel below 28 with DMA on (R324 to R326): an idle channel starts its program; the
shadow address and priority are kept and ARM set; a waiting channel halts with reason 6, an idle or halted one only loses
ARM. -/
def Obligations.DmaChannelControl : Prop :=
  ∀ (s : State) (q : QId) (i : Ins) (e : JEntry),
    let b := s.begun e
    let c := i.target.toNat
    let off := (b.updChan c fun x => { x with armed := false }).endBackground 2 (32 + c)
    c < 28 → b.isOn dDMA = true →
    (s.starts q 0x70 i e → hostAddrOk i.b 16 = true → bitOf i.a 8 = false → (b.chan c).isIdle = true →
      exec (.dmarun q i) s = .next (((b.startProgram c (i.b.setWidth 57) (fld i.a 0 2)).beginBackground e.queue 2 c).finish e.id .ok 0 0)) ∧
    (s.starts q 0x70 i e → hostAddrOk i.b 16 = true → bitOf i.a 8 = true → (b.chan c).armed = false →
      exec (.dmarunArm q i) s = .next (((b.updChan c fun x => { x with
        shadow := i.b.setWidth 57, shadowPrio := fld i.a 0 2, armed := true }).beginBackground e.queue 2 (32 + c)).finish e.id .ok 0 0)) ∧
    (s.starts q 0x71 i e → (off.chan c).st = .waiting →
      exec (.dmastop q i) s = .next (State.absorb e.id (stepDmastop i (off.haltChan c 6)))) ∧
    (s.starts q 0x71 i e → ((off.chan c).st = .idle ∨ (off.chan c).st = .halted) →
      exec (.dmastop q i) s = .next (State.absorb e.id (stepDmastop i off)))

/-- VOTE and UNVOTE (R364 to R366): a vote is placed on the domains and those they require and the rails start; the instruction
completes when all it names are on and waits otherwise. A withdrawal no rule refuses begins with the last domain. A withdrawal
that the domains' requirements forbid is REFUSED_VOTE with 0xFE. -/
def Obligations.VotesOnDomains : Prop :=
  ∀ (s : State) (q : QId) (i : Ins) (e : JEntry) (ds : List Nat),
    let b := s.begun e
    let c := (fld i.a 0 8).toNat
    let v := (b.placeVotes c (withRequired ds)).startRails
    (s.starts q 0x80 i e → votedDomains i false = some ds → ds.find? b.fencedOff = none →
      ((allDomains.filter fun d => bitOf (domainSet ds) d).all v.isOn = true → exec (.vote q i) s = .next (v.finish e.id .ok 0 0)) ∧
      ((allDomains.filter fun d => bitOf (domainSet ds) d).all v.isOn = false →
        exec (.vote q i) s = .next (v.microPasses.commitStep e.id (.vote (domainSet ds))))) ∧
    (s.starts q 0x81 i e → votedDomains i true = some ds →
      (b.requirementBroken c ds.reverse = none → b.allWouldSleep c ds.reverse = false →
        exec (.unvote q i) s = .next (b.commitStep e.id (.unvote ds.reverse [] []))) ∧
      (∀ d, b.requirementBroken c ds.reverse = some d →
        exec (.unvote q i) s = .next (b.finish e.id .refusedVote (BitVec.ofNat 64 (256 * d + 0xFE)) 0)))

/-- CSSWAP_MAP, CSSWAP_UNMAP and CSVERIFY (R349, R351). A swap completes OK with the mapping and the page in force, `verified` clear, the versions of the visible
store noted, and the mapping as result A; nothing else of the store changes. CSVERIFY takes the CRC-32 of the 65,536 visible words, 4,096 a step: its last step completes with
the CRC, OK with `verified` set where it is the image's and a vendor store is loaded, COMPARE_MISMATCH otherwise. -/
def Obligations.ControlStoreInstructions : Prop :=
  ∀ (s : State) (q : QId) (i : Ins) (e : JEntry) (n : Nat) (crc : Word),
    let b := s.begun e
    let map := ({ b.cs with mapped := true, page := fld i.a 0 3, verified := false } : Cs)
    let unmap := ({ b.cs with mapped := false, page := 0, verified := false } : Cs)
    (s.starts q 0x91 i e → bitOf i.a 7 = false → ∃ t, exec (.csswapMap q i) s = .next (t.finish e.id .ok (0x80#64 ||| z64 (fld i.a 0 3)) 0) ∧
      t = (b.changeCs map).stampCs ∧ t.cs.mapped = true ∧ t.cs.page = fld i.a 0 3 ∧ t.cs.verified = false ∧ t.cs.store = b.cs.store ∧
      t.cs.bank = b.cs.bank) ∧
    (s.starts q 0x91 i e → bitOf i.a 7 = true → ∃ t, exec (.csswapUnmap q i) s = .next (t.finish e.id .ok 0 0) ∧
      t = (b.changeCs unmap).stampCs ∧ t.cs.mapped = false ∧ t.cs.verified = false ∧ t.cs.store = b.cs.store ∧
      t.cs.bank = b.cs.bank) ∧
    (s.starts q 0x92 i e →
      exec (.csverify q i) s = .next (b.commitStep e.id (.csverify 4096 (crcWords b.cs.word 0 4096 0xFFFFFFFF#32)))) ∧
    (n + 4096 < 65536 → Machine.routineStep e (.csverify n crc) s = .more (.csverify (n + 4096) (crcWords s.cs.word n 4096 crc)) s) ∧
    (let v := ~~~ crcWords s.cs.word 61440 4096 crc;
      (v = s.cs.crc → s.cs.vendorLoaded = true →
        Machine.routineStep e (.csverify 61440 crc) s = .done .ok (z64 v) 0 (s.setCs { s.cs with verified := true })) ∧
      ((v ≠ s.cs.crc ∨ s.cs.vendorLoaded = false) → Machine.routineStep e (.csverify 61440 crc) s = .done .compareMismatch (z64 v) 0 s))

/-- TWINBIND, TWINRELEASE and HEADYIELD (R419, R418): the partner is asked; a block that serves for nobody is unbound and its queues take
new generations; a head yields and an election follows, result A naming the head afterwards. -/
def Obligations.TwinAndHeadInstructions : Prop :=
  ∀ (s : State) (q : QId) (i : Ins) (e : JEntry),
    let b := s.begun e
    let m := twinOf b.casc.self
    (s.starts q 0xA0 i e → i.target.toNat = m.toNat → b.twinFit = true → b.ringUp = true → bitOf b.casc.present m.toNat = true →
      b.isOn dREG = true →
      exec (.twinbind q i) s = .next (State.absorb e.id (.wait (.twinbind 0 0)
        ((b.setCasc { b.casc with twin := .binding, partner := m, answer := none, other := {}, deltas := [] }).sendFlit (.twin .ask)
          (memberBit m))))) ∧
    (s.starts q 0xA1 i e → b.casc.twin ≠ .serving → b.casc.twin ≠ .adopted →
      exec (.twinrelease q i) s = .next ((b.toTwin (.twin .release)).unbind.bumpQueues.finish e.id .ok 0 0)) ∧
    (s.starts q 0xA2 i e → b.isHead = true →
      let t := (b.setCasc { b.casc with yielded := true }).elect
      exec (.headyield q i) s = .next (t.finish e.id .ok (z64 t.casc.head) 0)) ∧
    (s.starts q 0xA2 i e → b.isHead = false → exec (.headyield q i) s = .next (b.finish e.id .ok (z64 b.casc.head) 0))

/-- OPEN_ROUTINE and ROUTINE_STEP: an opcode of the open region runs its microcode from its start word with g9 to g15 at 0 (R341); a
routine that may go on takes the turn and runs its next step (R49), and what waited for its commit point is then taken (R30). -/
def Obligations.RoutinesGoOn : Prop :=
  ∀ (s : State) (q : QId) (i : Ins) (e : JEntry) (op : Byte) (r : Routine),
    (s.starts q op i e → vendorOpcode op.toNat = false →
      exec (.openRoutine q op i) s = .next (State.absorb e.id (stepOpen e.id { saved := List.replicate 7 0 } (s.begun e)))) ∧
    (s.goesOnWith q e r →
      exec (.routineStep q) s = .next (State.absorb e.id (Machine.routineStep e r (s.takeTurn e))).takeDue)

/-- Steps that follow (R49, R50): a wait whose word now passes its test completes with it; PORTUP completes when the port is UP; PORTDOWN's
last step brings the port DOWN and reports the frames not sent; a slice test's last step ends the test; a substitution's last step
moves the slice once its frames held before the cut have left it; VOTE completes when its domains are on; a KEYRETIRE whose frames have left the
wire erases the slot; an EPOCH whose switch has taken place completes with its instant. -/
def Obligations.LaterStepsOfRoutines : Prop :=
  ∀ (s : State) (e : JEntry) (since n mark lead : Nat) (last : Word) (ds : BitVec 25) (d : PDesc) (a : Armed) (at_ : DWord),
    let i := e.ins
    let p := i.target.toNat
    (describe s i.a.toNat = some d → s.regionOn i.a.toNat = true → testHolds i (s.readMapped .postmaster d i.a.toNat).1 = true →
      Machine.routineStep e (.waitfor since last) s =
        .done .ok (z64 (s.readMapped .postmaster d i.a.toNat).1) 0 (s.readMapped .postmaster d i.a.toNat).2) ∧
    (describe s i.a.toNat = some d → s.regionOn i.a.toNat = false →
      Machine.routineStep e (.waitfor since last) s = .done .targetAsleep (z64 last) 0 s) ∧
    ((s.port p).st = .up → Machine.routineStep e (.portup since) s = .done .ok (BitVec.ofNat 64 (s.pm.micros - since)) 0 s) ∧
    ((s.port p).wireFree = true →
      let t := (s.setLink p .down).resetLanes p
      Machine.routineStep e (.portdown 2 n) s =
        .done .ok (BitVec.ofNat 64 (n + injectedIn (s.port p).onWire + (s.port p).stopRefused)) 0
          (t.setPort p { t.port p with txStopped := false, stopRefused := 0, localIn := false, remoteIn := false })) ∧
    (∃ x : BitVec 3, Machine.routineStep e (.slicetest 1) s =
      .done .ok (z64 (x &&& fld i.a 0 3)) 0 ({ s with fresh := s.fresh + 1 }.setSliceP p { s.sliceP p with
        testing := false, passed := (x &&& fld i.a 0 3) == fld i.a 0 3 && fld i.a 0 3 != 0 })) ∧
    ((s.frames.rx.any (heldBeforeCut p mark) = false ∨ 10 ≤ s.pm.micros - since) → Machine.routineStep e (.spare 5 since mark) s =
      let t := (s.freeFrames (heldBeforeCut p mark)).moveSlice p (bitOf i.a 0)
      .done .ok (at' 64 (BitVec.ofNat 5 (t.carrier p)) 16 ||| at' 64 (t.sliceL p).gen 0) 0 t) ∧
    ((allDomains.filter fun x => bitOf ds x).all s.isOn = true → Machine.routineStep e (.vote ds) s = .done .ok 0 0 s) ∧
    ((n % 8 < 4 && (s.port (n / 8)).wireUses (n % 8)) = false → (s.keySlot n).retiring = true →
      Machine.routineStep e (.keyretire n) s = .done .ok 0 0 (s.setKeySlot n {})) ∧
    (i.s = false → s.time.armedEpoch = some a → a.fired = some at_ → a.jid = some e.id →
      Machine.routineStep e (.epoch 1 lead) s = .done (if a.postponed then .postponed else .ok) at_ (s.epochResult i.target a.slices)
        (((s.setArmedEpoch none).setCasc { s.casc with epochEnd := s.now16 }).readiness))

/-- What an instruction changes (R45 to R50): besides the Postmaster, its queues, the fabric, the cascade's mirror of them, the monitor's
answer and its free values, each of these instructions changes the units named and no other. -/
def Obligations.FrameOfInstructions : Prop :=
  ∀ (s t : State) (c : Instr) (q : QId) (i : Ins),
    exec c s = .next t →
    let u : State := { s with out := t.out, fresh := t.fresh, pm := t.pm, qs := t.qs, dma := t.dma, power := t.power, casc := t.casc, mon := t.mon }
    (c ∈ [.nop q i, .signal q i, .hint q i, .hintCancel q i, .capset q i, .vote q i, .unvote q i, .qcreate q i, .qdestroy q i, .qmodify q i,
        .dmarun q i, .dmarunArm q i, .dmastop q i, .twinbind q i, .twinrelease q i] → t = u) ∧
    (c = .guardset q i → t = { u with guards := t.guards, ports := t.ports } ∧ ((fld i.a 0 8).toNat ≠ 6 → t.ports = s.ports)) ∧
    (c = .guardlock q i → t = { u with guards := t.guards }) ∧
    (c = .timeadj q i → t = { u with time := t.time }) ∧
    (c ∈ [.keyload q i, .keyretire q i] → t = { u with sec := t.sec }) ∧
    (c ∈ [.bindwr q i, .pattwr q i, .slicetest q i] → t = { u with sorter := t.sorter }) ∧
    (c = .csverify q i → t = { u with cs := t.cs }) ∧
    (c = .statread q i → t = { u with stats := t.stats }) ∧
    (c ∈ [.spareMove q i, .spareReturn q i] → t = { u with top := t.top }) ∧
    (c = .portcfg q i → t = { u with ports := t.ports, lanes := t.lanes }) ∧
    (c = .portdown q i → t = { u with stats := t.stats, ports := t.ports }) ∧
    (c = .mode q i → t = { u with top := t.top, sorter := t.sorter }) ∧
    (c ∈ [.csload q i, .csswapMap q i, .csswapUnmap q i] → t = { u with cs := t.cs, sorter := t.sorter }) ∧
    (c ∈ [.snap q i, .fence q i, .headyield q i] → t = { u with reg := t.reg, time := t.time }) ∧
    (c ∈ [.rulewr q i, .epoch q i, .timeset q i, .timestep q i] → t = { u with sorter := t.sorter, reg := t.reg, time := t.time }) ∧
    (c ∈ [.pairwrWrite q i, .pairwrFill q i, .pairwrInvalidate q i] → t = { u with reg := t.reg, nextId := t.nextId }) ∧
    (c = .portup q i → t = { u with stats := t.stats, sec := t.sec, ports := t.ports })

/-! ### Queue machinery, interrupts, the window -/

/-- QUEUE_DOORBELL and QUEUE_POLL (R78 to R80, R84): an index that breaks no rule becomes the stored tail of a submission queue, whose entries below
it are fetched, or the host head of another; an index that breaks one, and a queue that does not exist, are recorded in `q.fault`
and nothing else changes; a polling queue with nothing in hand reads its next 8 entries once its interval has passed. -/
def Obligations.DoorbellsAndPolling : Prop :=
  ∀ (s : State) (q : QId) (w : Word) (x : Queue),
    let j : RIdx := fld w 0 17
    (s.queue q.toNat = none → exec (.queueDoorbell q w) s = .next (s.queueFault 2 q)) ∧
    (s.queue q.toNat = some x → ∀ r, x.doorbellFault j = some r → exec (.queueDoorbell q w) s = .next (s.queueFault r q)) ∧
    (s.queue q.toNat = some x → x.doorbellFault j = none → x.submits = true →
      exec (.queueDoorbell q w) s = .next
        ((((s.setDoorbell q.toNat j).setQueue q.toNat { x with tail := j }).mirrorQueue q.toNat).fetchBelow q.toNat)) ∧
    (s.queue q.toNat = some x → x.doorbellFault j = none → x.submits = false →
      exec (.queueDoorbell q w) s = .next
        ((((s.setDoorbell q.toNat j).setQueue q.toNat { x with head := j }).mirrorQueue q.toNat).ringFreed q.toNat)) ∧
    (s.queue q.toNat = some x → s.engineRuns = true → x.submits = true → x.poll ≠ 0 → x.stopped = false → x.closing = false →
      x.fetches = [] → x.ready = [] → s.usPassed x.poll.toNat x.polledAt = true →
      exec (.queuePoll q) s = .next ((s.setQueue q.toNat { x with polledAt := s.clock }).forEach (List.range 8) fun s k =>
        s.issueFetch q.toNat (x.advance x.head k) false))

/-- `Queue.doorbellFault`, the rule of R79 in numbers: for a submission queue an index of 2N or more is reason 1, more than N above the head reason 3,
below the stored tail reason 5; for another, beyond the entries written is reason 4, and more than N above the stored head, which is
as well behind it, reason 5 (that 5 stands before 4 is the model's choice, log entry 61). An index the queue already stores breaks
none when the ring holds at most N entries. -/
def Obligations.DoorbellRule : Prop :=
  ∀ (x : Queue) (j : RIdx),
    (2 * x.n ≤ j.toNat → x.doorbellFault j = some 1) ∧
    (j.toNat < 2 * x.n → x.submits = true → x.n < x.dist j x.head → x.doorbellFault j = some 3) ∧
    (j.toNat < 2 * x.n → x.submits = true → x.dist j x.head ≤ x.n → x.dist j x.head < x.dist x.tail x.head →
      x.doorbellFault j = some 5) ∧
    (j.toNat < 2 * x.n → x.submits = false → x.dist j x.head ≤ x.n → x.dist x.tail x.head < x.dist j x.head →
      x.doorbellFault j = some 4) ∧
    (j.toNat < 2 * x.n → x.submits = false → x.n < x.dist j x.head → x.doorbellFault j = some 5) ∧
    (x.tail.toNat < 2 * x.n → x.dist x.tail x.head ≤ x.n → x.doorbellFault x.tail = none)

/-- ENTRY_FETCH and COMMAND_ACCEPT (R41, R59, R81 to R83): an entry that was read below the stored tail and carries the phase of its lap is
ready; the entry at the head of an ADMIN or CMD queue that may take one in is journaled with its opcode, its operands, its index
and the queue's generation, as skipped while SKIPIF skips entries. Without a twin it is then accepted; with one it is mirrored and accepted once
the twin has retained it. An accepted entry is passed by the head, and the next entry is read; a skipped one leaves the journal. -/
def Obligations.FetchAndAcceptance : Prop :=
  ∀ (s : State) (q : QId) (idx : RIdx) (data : BitVec 512) (x : Queue) (f : Fetch),
    let n := q.toNat
    let y : Queue := { x with fetches := dropFirst (fun g => g == f) x.fetches }
    let t : State := { s with dma := { s.dma with
      reqs := dropFirst (fun r => r.owner == Owner.entry q idx) s.dma.reqs,
      backlog := dropFirst (fun r => r.owner == Owner.entry q idx) s.dma.backlog } }
    (s.queue n = some x → x.fetches.find? (fun f => f.idx == idx) = some f → x.dist f.idx x.head < x.dist f.tail x.head →
      x.dist f.tail x.head ≤ x.n → y.inHand f.idx = false → bitOf data 511 = x.phase f.idx →
      exec (.entryFetch q idx data) s = .next (t.setQueue n { y with ready := x.ready ++ [(f.idx, data)] })) ∧
    (s.queue n = some x → (x.kind = .admin ∨ x.kind = .cmd) → s.intake n x = true → s.pm.journal.length < 4096 → s.pmOn = true →
      s.twinReach = true → s.awaitsTwin n = false → x.front = some data → x.closing = false →
      let e : JEntry := { id := s.nextId, queue := BitVec.ofNat 16 n, op := (insOfEntry data).1, ins := (insOfEntry data).2,
                          raw := data, idx := x.head, gen := x.gen, ran := x.gen, st := if x.skip = 0 then .accepted else .skipped }
      let u := { s with nextId := s.nextId + 1 }
      let v := if x.skip = 0 then u else u.setQueue n { x with skip := x.skip - 1 }
      (s.mirrors = false → exec (.commandAccept q) s = .next ((v.setJournal (s.pm.journal ++ [e])).retain e)) ∧
      (s.mirrors = true → exec (.commandAccept q) s = .next
        (((v.setJournal (s.pm.journal ++ [{ e with awaits := true }])).mirrorQueue n).mirrorEntry e false))) ∧
    (∀ e : JEntry, s.queue e.q = some x →
      (e.st ≠ .skipped → s.retain e =
        (((s.updEntry e.id fun e => { e with awaits := false }).setQueue e.q x.pass).mirrorQueue e.q).fetchNext e.q) ∧
      (e.st = .skipped → s.retain e =
        ((((s.updEntry e.id fun e => { e with awaits := false }).dropEntry e.id).setQueue e.q x.pass).mirrorQueue e.q).fetchNext e.q))

/-- INJECT_CONSUME of an entry that wants no timestamp, into a port that takes frames (R88, R152): the entry is kept with its buffer, port and length
until its report, the head passes it, and the buffers that fit the port's cells are read; an entry whose operands break a rule is
reported NOT_SENT, reason 0x08. -/
def Obligations.InjectConsumption : Prop :=
  ∀ (s : State) (q : QId) (data : BitVec 512) (x : Queue),
    let n := q.toNat
    let o := injOfEntry data
    let e : Inj := { o with iid := s.nextId, queue := qid n, idx := x.head, gen := x.gen, wantTs := false }
    let t := ((((({ s with nextId := s.nextId + 1 }).addInj e).mirrorInj e false).setQueue n x.pass).mirrorQueue n).fetchNext n
    s.queue n = some x → x.kind = .inject → s.intake n x = true → s.twinReach = true → x.front = some data → x.closing = false →
    o.wantTs = false →
    (t.injValid x o = true → (t.port o.port.toNat).txStopped = false →
      exec (.injectConsume q) s = .next (t.startReads o.port.toNat)) ∧
    (t.injValid x o = false → exec (.injectConsume q) s = .next (t.unsent o.port.toNat (.inject s.nextId) 8 0x068))

/-- HEAD_WRITEBACK, COMPLETION_POST and MODERATION_TIMEOUT (R81, R94, R98): the owed write of head and generation goes out; the next ready
completion goes to its ring; the vector of a ring with unsignalled entries fires once mod_time has passed since the first of them. -/
def Obligations.WritebackPostingAndModeration : Prop :=
  ∀ (s : State) (q : QId) (x : Queue),
    s.queue q.toNat = some x →
    (s.engineRuns = true → x.submits = true → x.wbOwed = true →
      exec (.headWriteback q) s = .next ((s.setQueue q.toNat { x with wbOwed := false }).queueWrite x.headWb
        (leBytes 8 (at' 64 x.gen 32 ||| at' 64 x.head 0).toNat) false (.headWb q))) ∧
    (s.engineRuns = true → ∀ src, s.nextReady q.toNat = some src → exec (.completionPost q) s = .next (s.place x.cq src)) ∧
    (x.submits = false → x.irqEn = true → x.modTime ≠ 0 → 0 < x.unsignalled → s.usPassed x.modTime.toNat x.firstAt = true →
      exec (.moderationTimeout q) s = .next (s.fireVector x.vector.toNat))

/-- A completion is written 31 bytes first (R93): cookie, queue, slot, status, flags, generation, result A and the low seven bytes of
result B, little-endian, each at its place. -/
def Obligations.CompletionEntryLayout : Prop :=
  ∀ c : Compl, (complBytes c).length = 31 ∧
    leNat (slice (complBytes c) 0 8) = c.cookie.toNat ∧ leNat (slice (complBytes c) 8 2) = c.queue.toNat ∧
    leNat (slice (complBytes c) 10 2) = c.slot.toNat ∧ byteAt (complBytes c) 12 = c.status.code ∧
    byteAt (complBytes c) 13 = c.flags ∧ leNat (slice (complBytes c) 14 2) = c.gen.toNat ∧
    leNat (slice (complBytes c) 16 8) = c.a.toNat ∧ leNat (slice (complBytes c) 24 7) = c.b.toNat % 2 ^ 56

/-- VECTOR_PENDING_CLEAR and VECTOR_UNMASK (R97, R98, R496): the pending bit is cleared, and where the vector fires in the same cycle the fire stands;
a vector that is unmasked with a message that is due and not routed to the pin sends it, another only loses its mask. Other vectors stay
as they are. -/
def Obligations.VectorPendingAndMask : Prop :=
  ∀ (s : State) (v : BitVec 11),
    let n := v.toNat
    let x := s.vector n
    exec (.vectorPendingClear v false) s = .next (s.setVector n { x with pending := false, due := false }) ∧
    exec (.vectorPendingClear v true) s = .next ((s.setVector n { x with pending := false, due := false }).fireVector n) ∧
    ((x.mask && x.due && !x.pin) = true → exec (.vectorUnmask v) s = .next ((s.setVector n { x with mask := false }).sendMessage n)) ∧
    ((x.mask && x.due && !x.pin) = false → exec (.vectorUnmask v) s = .next (s.setVector n { x with mask := false })) ∧
    ∀ m, m ≠ n → (s.setVector n { x with mask := false }).vector m = s.vector m

/-- DIRECT_WRITE on a path the block answers (R12, R319, R376, R436, R493, R500): by its address a write is a queue's doorbell, a channel's doorbell, a
word of the vector table, or, while the bring-up is open, a bring-up parameter; a write into an asleep region is logged and dropped;
any other mapped word is logged as kind 1 and any other address as kind 3, and nothing else happens. BOOT_GO is the write of
0x36. While the cold reset input is low the window answers nothing. -/
def Obligations.DirectWritesByAddress : Prop :=
  ∀ (s : State) (p : Path) (addr : BitVec 34) (v : Word),
    let a := addr.toNat
    (s.top.resetting = .cold → exec (.directWrite p addr v) s = .next s) ∧
    (s.top.resetting ≠ .cold →
      (0x40000000 ≤ a → a < 0x40001000 → exec (.directWrite p addr v) s = exec (.queueDoorbell (BitVec.ofNat 12 (a - 0x40000000)) v) s) ∧
      (0x40001000 ≤ a → a < 0x40001020 → exec (.directWrite p addr v) s = exec (.dmaDoorbell (BitVec.ofNat 5 (a - 0x40001000)) v) s) ∧
      (0x40004000 ≤ a → a < 0x40006000 →
        exec (.directWrite p addr v) s = .next (s.vectorWrite ((a - 0x40004000) / 4) (a % 4) v)) ∧
      (a < 0x21000000 → s.regionOn a = false → exec (.directWrite p addr v) s = .next (s.logAsleep true (addr.setWidth 32))) ∧
      (0x30 ≤ a → a ≤ 0x36 → s.top.mode = .cold → s.top.ready = false →
        exec (.directWrite p addr v) s = .next (s.bootWrite a v) ∧
        (a = 0x36 → exec (.bootGo v) s = .next (s.bootCfg v))) ∧
      (a < 0x21000000 → s.regionOn a = true → ¬ (0x30 ≤ a ∧ a ≤ 0x36 ∧ s.bootOpen = true) → (describe s a).isSome = true →
        exec (.directWrite p addr v) s = .next (s.logAccess 1 addr)) ∧
      (0x40006000 ≤ a → exec (.directWrite p addr v) s = .next (s.logAccess 3 addr)))

/-- DIRECT_READ and its kin on the window or the management path (R10, R376, R493, R494, R500): a parameter that is mapped and whose region is on reads as
GET reads it, with the effect of the read on the path; an asleep region reads as 0xBAD00FF0 and is logged; an address nothing
maps reads as 0 and is logged as kind 2. PARAM_LOW_WORD_READ, TIME_NOW_READ, COMPAT_COUNTER_READ and TABLE_WINDOW_READ are reads of their addresses. -/
def Obligations.DirectReadsByAddress : Prop :=
  ∀ (s : State) (p : Path) (addr : BitVec 34) (k : BitVec 5) (d : PDesc),
    let a := addr.toNat
    p ≠ .postmaster → s.top.resetting ≠ .cold →
    (a < 0x21000000 → s.regionOn a = true → describe s a = some d →
      let r := s.readMapped p d a
      exec (.directRead p addr) s = .next ((d.onDirect r.2).emit (.answer p addr r.1))) ∧
    (a < 0x21000000 → s.regionOn a = false →
      exec (.directRead p addr) s = .next ((s.logAsleep false (addr.setWidth 32)).emit (.answer p addr 0xBAD00FF0#32))) ∧
    (a < 0x21000000 → s.regionOn a = true → describe s a = none →
      exec (.directRead p addr) s = .next ((s.logAccess 2 addr).emit (.answer p addr 0))) ∧
    exec (.paramLowWordRead p addr) s = exec (.directRead p addr) s ∧
    exec (.compatCounterRead p addr) s = exec (.directRead p addr) s ∧
    exec (.timeNowRead p) s = exec (.directRead p 0x06000000) s ∧
    exec (.tableWindowRead p k) s = exec (.directRead p (BitVec.ofNat 34 (0x1000053F + 0x1000000 * k.toNat))) s

/-- What completes on the way of a read (R10, R269): `time.now` has three words; a window read of its low word latches the other two for the path, and
the two reads that follow it on the path return the latched words, whatever the time is by then. -/
def Obligations.TimeNowReadsAsOneValue : Prop :=
  ∀ (s t : State) (p : Path) (d : PDesc),
    describe s 0x06000000 = some d → t.dma.latches = (s.readMapped p d 0x06000000).2.dma.latches →
    ∀ d', (d'.base = 0x06000000 ∧ d'.words = 3) →
      (s.readMapped p d 0x06000000).1 = (s.timeNow.setWidth 32) ∧
      (t.readMapped p d' 0x06000001).1 = (s.timeNow >>> 32).setWidth 32 ∧
      (t.readMapped p d' 0x06000002).1 = (s.timeNow >>> 64).setWidth 32

/-! ### The DMA channels -/

/-- MOVE, FILL and COMPARE as the next instruction of a ready channel (R315, R322): the cursor is loaded as the flags say, the points at byte 0 are taken, and the
transfer goes on with its first accesses; flags that name no cursor, and for FILL those that would load SRC, halt the channel with reason 5. -/
def Obligations.TransfersBegin : Prop :=
  ∀ (s : State) (c : BitVec 5) (w : ChIns) (ch : Chan),
    let n := c.toNat
    let begins' (h f : Bool) (x : Span → Xfer) : State :=
      let r := (s.setChan n ch).pointsReached n { total := w.y.toNat, h := h, f := f }
      (r.2.updChan n fun y => { y with xfer := some (x r.1) }).chanProgress n
    (loadCursor (fld w.flags 0 2) w.addr (s.chan n) = some ch →
      (s.chanReady n 1 w = true → exec (.move c w) s = .next (begins' (bitOf w.flags 3) (bitOf w.flags 2) .move)) ∧
      (s.chanReady n 2 w = true → fld w.flags 0 2 ≠ 0#2 →
        exec (.fill c w) s = .next (begins' (bitOf w.flags 3) (bitOf w.flags 2) (.fill w.x))) ∧
      (s.chanReady n 2 w = true → fld w.flags 0 2 = 0#2 → exec (.fill c w) s = .next (s.haltChan n 5)) ∧
      (s.chanReady n 3 w = true →
        exec (.compare c w) s = .next (begins' false false fun x =>
          .compare (if bitOf w.flags 3 then some w.x else none) (bitOf w.flags 2) x false))) ∧
    (loadCursor (fld w.flags 0 2) w.addr (s.chan n) = none →
      (s.chanReady n 1 w = true → exec (.move c w) s = .next (s.haltChan n 5)) ∧
      (s.chanReady n 2 w = true → exec (.fill c w) s = .next (s.haltChan n 5)) ∧
      (s.chanReady n 3 w = true → exec (.compare c w) s = .next (s.haltChan n 5)))

/-- DMA_DOORBELL, LOOP, WAIT and its two ends on a channel (R317 to R319, R376): a doorbell of a channel below 28 with DMA on adds its credits, which stay at
255, and does what a doorbell starts; a channel reserved to the block is logged as kind 4, and a doorbell while DMA is asleep is logged as
asleep. A loop with count 0 or with a count that has not run out jumps; WAIT for credits takes them when they are there and waits for them when they are not; a WAIT of
time waits unless the time is 0; once its X microseconds have passed it goes on, and once those of a WAIT for credits have, the channel halts with reason 4. -/
def Obligations.DoorbellsLoopsAndWaits : Prop :=
  ∀ (s : State) (c : BitVec 5) (w : ChIns) (v : Word),
    let n := c.toNat
    let x := s.chan n
    (28 ≤ n → exec (.dmaDoorbell c v) s = .next (s.logAccess 4 (BitVec.ofNat 34 (bellAddr n)))) ∧
    (n < 28 → s.isOn dDMA = false → exec (.dmaDoorbell c v) s = .next (s.logAsleep true (BitVec.ofNat 32 (bellAddr n)))) ∧
    (n < 28 → s.isOn dDMA = true →
      exec (.dmaDoorbell c v) s = .next
        (((s.updChan n fun x => { x with credits := satAdd x.credits (fld v 0 8).toNat }).bellRings n).creditsCome n)) ∧
    (s.chanReady n 4 w = true → w.addr.toNat % 16 = 0 → bitOf w.flags 0 = true →
      let r := loopStep x.active1 x.lc1 w.y
      let t := s.setChan n { x with active1 := r.2.1, lc1 := r.2.2 }
      exec (.loop c w) s = .next (if r.1 then t.chanGoesTo n w.addr true else t.chanNext n)) ∧
    (s.chanReady n 4 w = true → w.addr.toNat % 16 = 0 → bitOf w.flags 0 = false →
      let r := loopStep x.active0 x.lc0 w.y
      let t := s.setChan n { x with active0 := r.2.1, lc0 := r.2.2 }
      exec (.loop c w) s = .next (if r.1 then t.chanGoesTo n w.addr true else t.chanNext n)) ∧
    (s.chanReady n 4 w = true → w.addr.toNat % 16 ≠ 0 → exec (.loop c w) s = .next (s.haltChan n 5)) ∧
    (s.chanReady n 5 w = true → fld w.flags 0 2 = 0#2 → w.x = 0 → exec (.wait c w) s = .next (s.chanNext n)) ∧
    (s.chanReady n 5 w = true → fld w.flags 0 2 = 0#2 → w.x ≠ 0 →
      exec (.wait c w) s = .next (s.setChan n { x with st := .waiting, waitFor := none, waitUs := w.x.toNat, waitAt := s.clock })) ∧
    (s.chanReady n 5 w = true → fld w.flags 0 2 = 1#2 → w.y.toNat ≤ x.credits.toNat →
      exec (.wait c w) s = .next ((s.setChan n { x with credits := x.credits - w.y.setWidth 8 }).chanNext n)) ∧
    (s.chanReady n 5 w = true → fld w.flags 0 2 = 1#2 → x.credits.toNat < w.y.toNat →
      exec (.wait c w) s = .next (s.setChan n { x with
        st := .waiting, waitFor := some w.y.toNat, waitUs := w.x.toNat, waitAt := s.clock })) ∧
    (s.dmaRuns = true → x.st = .waiting → x.waitFor = none → s.usPassed x.waitUs x.waitAt = true →
      exec (.dmaWaitTimeEnd c) s = .next (s.chanNext n)) ∧
    (s.dmaRuns = true → x.st = .waiting → x.waitFor.isSome = true → x.waitUs ≠ 0 → s.usPassed x.waitUs x.waitAt = true →
      exec (.dmaWaitTimeout c) s = .next (s.haltChan n 4))

/-- SIGNAL, LINK, NOP, END, END_REREAD and DMA_IDLE_CHECK of a channel (R314 to R316, R325, R328), each as its line was read: the fields of an instruction stand
where R314 puts them; a signal without a write fires its vector and goes on, one with
a write sends 4 bytes first; LINK jumps and re-reads the line; NOP goes on, and an opcode from 9 up halts with reason 5; END keeps its
address and ends the program, or re-reads when a doorbell has come; a re-read that finds a LINK jumps to it; an idle channel with ARM takes its
shadow program over. -/
def Obligations.SignalsLinksAndEnds : Prop :=
  ∀ (s : State) (c : BitVec 5) (w : ChIns) (op : BitVec 4) (target : HostAddr),
    let n := c.toNat
    let x := s.chan n
    (s.chanReady n 6 w = true → w.addr.toNat % 4 = 0 →
      (bitOf w.flags 3 = false → bitOf w.flags 2 = false → exec (.dmaSignal c w) s = .next (s.chanNext n)) ∧
      (bitOf w.flags 3 = false → bitOf w.flags 2 = true →
        exec (.dmaSignal c w) s = .next ((s.fireVector (fld w.y 0 11).toNat).chanNext n)) ∧
      (bitOf w.flags 3 = true →
        exec (.dmaSignal c w) s = .next ((s.setChan n { x with
          xfer := some (.signal (if bitOf w.flags 2 then some (fld w.y 0 11) else none)) }).chanWrites n w.addr.toNat 0
            (leBytes 4 w.x.toNat) false (nextAccesses w.addr.toNat 4 4)))) ∧
    (s.chanReady n 7 w = true → w.addr.toNat % 16 = 0 → exec (.link c w) s = .next (s.chanGoesTo n w.addr true)) ∧
    (s.chanReady n 8 w = true → exec (.dmaNop c 8 w) s = .next (s.chanNext n)) ∧
    (s.chanReady n op w = true → 8 < op.toNat → exec (.dmaNop c op w) s = .next (s.haltChan n 5)) ∧
    (s.chanReady n 0 w = true →
      (x.reread = false → exec (.endProg c w) s = .next ((s.setChan n { x with endAt := x.pc, endValid := true }).programEnds n)) ∧
      (x.reread = true → exec (.endProg c w) s = .next ((s.setChan n { x with endAt := x.pc, endValid := true }).rereadEnd n))) ∧
    (s.dmaRuns = true → x.xfer = some .reread → target.toNat % 16 = 0 →
      exec (.endReread c true target) s = .next (({ s with dma := { s.dma with
        reqs := dropFirst (fun r => r.owner == Owner.chanReread n) s.dma.reqs,
        backlog := dropFirst (fun r => r.owner == Owner.chanReread n) s.dma.backlog } }).chanGoesTo n target true)) ∧
    (s.dmaRuns = true → x.st = .idle → x.armed = true → x.xfer = none →
      exec (.dmaIdleCheck c) s = .next ((s.setChan n { x with hoIdle := true }).takeShadow n)) ∧
    (∀ b : BitVec 128, (fld b 124 4 ≠ 7#4 →
        chIns b = (fld b 124 4, { flags := fld b 120 4, x := fld b 88 32, y := fld b 64 24, addr := fld b 0 57 })) ∧
      (fld b 124 4 = 7#4 → chIns b = (7, { addr := fld b 64 57 })))

/-- A channel's instruction and event, and an event of a queue or a vector, changes the channels, the queues with the vectors, what crosses the boundary and, of the
Postmaster, only the list of background activity (R57), and nothing else. -/
def Obligations.FrameOfChannelsAndQueues : Prop :=
  ∀ (s t : State) (n : BitVec 5) (w : ChIns) (op : BitVec 4) (c : Instr) (v : BitVec 11) (q : QId) (idx : RIdx) (data : BitVec 512) (b : Bool)
    (m : BitVec 2) (l : BitVec 57),
    exec c s = .next t →
    let pm : Pm := { s.pm with background := t.pm.background }
    (c ∈ [.vectorPendingClear v b, .vectorUnmask v, .queuePoll q, .headWriteback q, .moderationTimeout q, .entryFetch q idx data] →
      t = { s with out := t.out, qs := t.qs, dma := t.dma }) ∧
    (c ∈ [.loop n w, .wait n w, .link n w, .dmaNop n op w, .dmaSignal n w, .dmaWaitTimeEnd n, .dmaWaitTimeout n] →
      t = { s with out := t.out, qs := t.qs, dma := t.dma, pm := pm }) ∧
    (c ∈ [.move n w, .fill n w, .compare n w, .endProg n w, .endReread n b l] →
      t = { s with out := t.out, fresh := t.fresh, qs := t.qs, dma := t.dma, pm := pm }) ∧
    (c = .dmaIdleCheck n → t = { s with out := t.out, fresh := t.fresh, dma := t.dma, pm := pm }) ∧
    (c = .internalChannelFault m → t = { s with fresh := t.fresh, dma := t.dma })

/-- MASTER_RESPONSE, TARGET_READ and the management target (R323, R468 to R471, R482): an error with tries left sends the same request again under its tag; a good
answer frees the tag, sends what waited for one and gives the data to whoever asked; a target read answers with what the window reads;
a packet with a bad PEC is not acknowledged and writes nothing; a match of the management address is acknowledged outside the entry window and is
wake source 0x5, and while HOST is asleep SCL is held. -/
def Obligations.FabricAndManagementPorts : Prop :=
  ∀ (s : State) (tag : BitVec 10) (data : List Byte) (r : Req) (tt : Byte) (addr : BitVec 34) (a v : Word),
    let freed := ({ s with dma := { s.dma with reqs := dropFirst (fun x => x.tag == tag) s.dma.reqs } }).sendBacklog
    (s.dma.reqs.find? (fun x => x.tag == tag) = some r → r.tries ≠ 0 →
      exec (.masterResponse tag true data) s = .next (({ s with dma := { s.dma with
        reqs := updFirst (fun x => x.tag == tag) (fun x => { x with tries := x.tries - 1 }) s.dma.reqs } }).emit
          (if r.isWrite then .write tag r.addr r.data r.relaxed else .read tag r.addr r.len))) ∧
    (s.dma.reqs.find? (fun x => x.tag == tag) = some r → r.tries = 0 →
      exec (.masterResponse tag true data) s = .next ((freed.internalFails r).failedAccess r).internalEnds) ∧
    (s.dma.reqs.find? (fun x => x.tag == tag) = some r →
      exec (.masterResponse tag false data) s = .next (freed.answered r data).internalEnds) ∧
    (s.top.resetting ≠ .cold →
      exec (.targetRead tt addr) s = .next ((s.directRead .window addr).2.emit (.targetAnswer tt (s.directRead .window addr).1))) ∧
    (s.isOn dHOST = true →
      exec (.mgmtBlockWrite a v (some false)) s = .next (s.emit (.mgmtAck false)) ∧
      exec (.mgmtProcessCall a (some false)) s = .next (s.emit (.mgmtAck false)) ∧
      (s.top.resetting ≠ .cold →
        exec (.mgmtBlockWrite a v none) s = .next ((s.directWrite (a.setWidth 34) v).emit (.mgmtAck true)) ∧
        exec (.mgmtProcessCall a none) s = .next ((s.directRead .mgmt (a.setWidth 34)).2.emit
          (.mgmtData (s.directRead .mgmt (a.setWidth 34)).1))) ∧
      (s.entryWindow = false → (s.isHead = false ∨ bitOf s.power.wakeCfg 27 = false) →
        exec .mgmtAddressMatch s = .next ((s.emit (.mgmtAck true)).wake 5 0))) ∧
    (s.isOn dHOST = false → s.entryWindow = false → exec .mgmtAddressMatch s = .next
      (({ s.emit (.mgmtAck true) with power := { s.power with sclHeld := true, relayOwed := bitOf s.power.wakeCfg 27 } }.emit
        .mgmtHoldScl).wake 5 0)) ∧
    (s.entryWindow = true → exec .mgmtAddressMatch s = .next (s.emit (.mgmtAck false)))

/-! ### Frames in and out, the sorter, the registry -/

/-- FRAME_RECEIVE, PAUSE_FRAME_RECEIVE and PAUSE_EXPIRE (R104, R119, R120, R123, R136, R137, R146): a port that is UP and on counts the fragments before the
last of a preemptable frame, and a reassembly error; one that a reason of R120 drops is counted under the first that applies and is dropped; a frame that
breaks none is a MAC control frame or goes on to the MACsec rules. A frame shorter than 64 bytes is a runt. A frame in reception when its port left UP
ends without a terminate, once, and is dropped under the first reason that applies (R507); any other frame of a port that is not UP is nothing to it. A pause
time that has run out ends the pause of its priority alone. -/
def Obligations.FrameReception : Prop :=
  ∀ (s : State) (p : PortId) (f : RxFrame) (i : Prio),
    let n := p.toNat
    let x := s.port n
    let body := f.bytes.take (f.bytes.length - 4)
    let arrives (y : Port) : State :=
      let d := y.deal n f.preempt
      let t := ((s.setPort n d.2).arrived d.1 n f.preempt).count n 0x084 (if f.preempt then f.fragments.length - 1 else 0)
      if reasmErr f then t.event n 0x086 else t
    let t := arrives x
    let k := (x.deal n f.preempt).1
    (x.mayEnd f = false → exec (.frameReceive p f) s = .next s) ∧
    (x.st = .up → s.portOn n = true → s.top.resetting = .none →
      (∀ w, t.rxReason n f = some w → exec (.frameReceive p f) s = .next ((t.event n w).drained k)) ∧
      (f.bytes.length < 64 → exec (.frameReceive p f) s = .next ((t.event n 0x020).drained k)) ∧
      (t.rxReason n f = none → be16 body 12 = 0x8808 → exec (.frameReceive p f) s = .next ((t.macControl n body).drained k)) ∧
      (t.rxReason n f = none → be16 body 12 ≠ 0x8808 →
        exec (.frameReceive p f) s = .next
          ((match validateRx t n body f.bytes.length with
            | .drop w => (t.countSec n w 1).countCompat n 0x0A 1
            | .pass plain macsec u => u.takeIn n k f plain macsec).drained k))) ∧
    (x.st ≠ .up → x.mayEnd f = true → s.portOn n = true → s.top.resetting = .none →
      let y := if f.preempt then { x with endP := false } else { x with endE := false }
      ∃ w, (arrives y).rxReason n { f with codeBad := true } = some w ∧
        exec (.frameReceive p f) s = .next (((arrives y).event n w).drained (y.deal n f.preempt).1)) ∧
    (be16 f.bytes 12 = 0x8808 → (be16 f.bytes 14 = 1 ∨ be16 f.bytes 14 = 0x0101) →
      exec (.pauseFrameReceive p f) s = exec (.frameReceive p f) s) ∧
    (x.quantaPassed (Tab.get 0 x.pauseTime i.toNat).toNat (Tab.get 0 x.pauseFrom i.toNat) s.clock = true →
      exec (.pauseExpire p i) s = .next (s.setPort n { x with
        rxPaused := setBit x.rxPaused i.toNat false, pauseTime := Tab.put 0 x.pauseTime i.toNat 0,
        pauseFrom := Tab.put 0 x.pauseFrom i.toNat 0, pausedAt := Tab.put 0 x.pausedAt i.toNat 0 }))

/-- Preemption and transmission (R24, R104, R116, R118, R125, R142 to R144, R461, R462): a verify frame is answered by an UP port with preemption; a response ends the
verification; the timer sends the second and third verify frame, each after verify_time, and then gives up; a frame starts when the wire is free; one that
may be cut at an offset is suspended there; the end of a frame reports it; a pipeline frame enters staging behind the others, before the one of the odd
slice that crossed in its cycle; a port that is not UP, and a port whose transmission is stopped, sends nothing of what the pipeline hands it. -/
def Obligations.TransmissionAndPreemption : Prop :=
  ∀ (s : State) (p : PortId) (k : BitVec 4) (b : Nat) (w : QWord) (frame : List Byte) (tie : Bool) (g : TxFr),
    let n := p.toNat
    let x := s.port n
    let zeros : List Byte := List.replicate 60 0
    (∀ r : Bool, s.sendVerify n r =
      (s.toLanes n (Pcs.send (preVerify r) (zeros ++ mcrc zeros))).emit (if r then .respond p else .verify p)) ∧
    (x.preemptEn = true → x.st = .up → exec (.verifyReceive p) s = .next (s.sendVerify n true)) ∧
    (x.verify = .verifying → exec (.respondReceive p) s = .next (s.setPort n { x with verify := .succeeded })) ∧
    (x.verify = .verifying → s.msPassed x.verifyTime.toNat x.verifyAt = true →
      (x.attempts.toNat < 3 → exec (.verifyTimer p) s = .next
        ((s.setPort n { x with attempts := x.attempts + 1, verifyAt := s.clock }).sendVerify n false)) ∧
      (3 ≤ x.attempts.toNat → exec (.verifyTimer p) s = .next ((s.setPort n { x with verify := .failed }).event n 0x087))) ∧
    (x.st = .up → x.wireFree = true → s.top.resetting = .none →
      ∀ r, x.tx = g :: r → (g.preempt = false ∨ x.active = false) → x.holds g.prio = false → g.injected = false →
        s.startCheck n g = none → exec (.txFrameStart p false) s = .next (s.startTx n false g)) ∧
    (x.wireP = some g → x.active = true → x.suspended = false → x.wireE = none → g.preemptPoint b = true →
      (x.nextTx false).isSome = true →
      let t := s.sendFragment n g b
      let y := { t.port n with wireP := some { g with sent := b }, suspended := true }
      exec (.preempt p b) s = .next ((((t.setPort n y).event n 0x085).emit (.txFragment p b)).pauseDue n)) ∧
    (x.wireE = some g →
      let t := ((((s.setPort n { x with wireE := none }).sendLast n g).zeroRetired n).countSent n g).reportSent n g
      exec (.txFrameEnd p false) s = .next (((t.emit (.txEnd p)).pauseDue n).startReads n)) ∧
    (s.pbReset = false → s.sliceOn k.toNat = true → x.configured = true → (s.slicesOfPort n).contains k.toNat = true →
      (fld w 12 14).toNat = frame.length → 14 ≤ frame.length → frame.length ≤ 16380 → bitOf w 124 = false →
      ((x.st ≠ .up ∨ x.txStopped = true) →
        exec (.pipelineTxFrame k p w { bytes := frame, tie := tie }) s = .next (s.unsent n (.pipe w none) 5 0x060)) ∧
      (x.st = .up → x.txStopped = false → s.txUsed n + s.txCells n frame.length false ≤ x.txCap →
        let f : TxFr := { fid := s.nextId, port := p, slice := some k, bytes := frame, src := .pipe w none, prio := fld w 125 3,
                          preempt := x.preemptEn && bitOf x.map (fld w 125 3 : Prio).toNat, cells := s.txCells n frame.length false }
        exec (.pipelineTxFrame k p w { bytes := frame, tie := tie }) s =
          .next ({ s with nextId := s.nextId + 1 }.setPort n { x with tx := insertTx x.tx f tie }))) ∧
    (∀ (l : List TxFr) (f : TxFr), insertTx l f false = l ++ [f] ∧
      (f.slice = some k → k.toNat % 2 = 0 → g.slice = some (k + 1) → insertTx (l ++ [g]) f true = l ++ [f, g])) ∧
    (∀ (q : QId) (e : Inj), s.isOn dHOST = true → s.top.resetting = .none →
      s.qs.inj.find? (fun e => e.queue.toNat == q.toNat && e.fetching && e.outcome.isNone && e.cells != 0) = some e →
      (frame.length = e.length.toNat → exec (.injectFetch q true frame) s = .next ((s.injReadsEnd e.iid).stage e frame)) ∧
      exec (.injectFetch q false frame) s = .next (s.injUnreadable e))

/-- PARSE, HANDOVER and PUNT on a slice that is on (R90, R171, R176, R184, R192, R195, R197, R460): a slot of the engines goes to the oldest unclassified frame from
the wire, which is classified with the slice's tables, and to a recirculated frame where none waits from the wire, and in every 32nd slot; a frame whose classes ask for
neither the pipeline nor a punt is dropped; the frame at the head of
the bus is handed over when the credits suffice; a frame to punt goes to its queue or is dropped. A returned credit is taken back, one too many is a
fault. HELD_BANK_LOW and HELD_BANK_HIGH set the level, and the low level can end a drain. A replica word is loaded again
from the control store. -/
def Obligations.SorterAndPipelineBoundary : Prop :=
  ∀ (s : State) (k : BitVec 4) (p : PortId) (f g : RxFr) (frame : List Byte) (mw : QWord) (m : BitVec 3) (bank : BitVec 1)
    (word : BitVec 16) (l : List Nat) (e : Word),
    let n := k.toNat
    let x := s.sliceL n
    let u := s.markReplica n l
    let c := (u.sliceL n).classify u.sorter.seed (u.depthOf n) f.port.toNat f.bytes f.macsec f.epoch
    let t := u.sortEvents n f.port.toNat c
    let v := s.eventSlice n 1
    let d := (v.sliceL n).classify v.sorter.seed (v.depthOf n) g.port.toNat g.bytes (bitOf mw 4) e
    s.sliceOn n = true →
    (s.top.resetting = .none →
      (u.wireWaits n = some f → u.recircWaits n = none →
        ((u.port f.port.toNat).memberGuard = true → c.cls.src = 0 → exec (.parse k l) s = .next ((u.dropRx f 0x028).drained n)) ∧
        (((u.port f.port.toNat).memberGuard = false ∨ c.cls.src ≠ 0) → c.cls.pipe = false → c.cls.punt = false →
          exec (.parse k l) s = .next ((t.dropRx f 0x029).drained n)) ∧
        (((u.port f.port.toNat).memberGuard = false ∨ c.cls.src ≠ 0) → (c.cls.pipe = true ∨ c.cls.punt = true) →
          exec (.parse k l) s = .next ((t.updRx f.fid fun f => { f with parsed := true, cls := c.cls }).resolve f.fid c.cls))) ∧
      (u.wireWaits n = some f → u.recircWaits n = some g →
        ((u.sliceL n).slots < 31 → exec (.parse k l) s = .next ((u.setSlots n ((u.sliceL n).slots + 1)).parseWire n f)) ∧
        (31 ≤ (u.sliceL n).slots → exec (.parse k l) s = .next ((u.setSlots n 0).parseRecirc n g))) ∧
      (u.wireWaits n = none → u.recircWaits n = some g → exec (.parse k l) s = .next ((u.setSlots n 0).parseRecirc n g))) ∧
    (g.recirc = some mw → x.recircEpoch (fld mw 88 4) = (e, false) → d.cls.parseFault = false →
      let sorted (h : RxFr) : RxFr := { h with parsed := true, epoch := e, cls := { d.cls with punt := false } }
      let a := updFirst (fun h => h.fid == g.fid) sorted v.frames.recirc
      s.parseRecirc n g = ({ v with frames := { v.frames with recirc := a } }).drained n) ∧
    (x.badReplica.contains word.toNat = true → s.cs.badWords.contains word.toNat = false →
      exec (.replicaReload k word) s = .next (s.reloadReplica n word.toNat)) ∧
    (s.pbReset = false → s.quiesced = false → s.busHead n = some f → exec (.handover k) s = .next (s.handOver n f)) ∧
    (s.engineRuns = true → s.frames.rx.find? (fun f => f.slice.toNat == n && f.parsed && f.resolved && f.cls.punt && (!f.cls.pipe || f.handed)
        && f.punting.isNone) = some f →
      s.frames.rx.any (fun g => g.punting.map (·.1.toNat) == some f.cls.puntQueue) = false →
      (∀ y, s.puntQueue f = some y → exec (.punt k) s = .next (s.puntStart f.cls.puntQueue y f)) ∧
      (s.puntQueue f = none → exec (.punt k) s = .next ((s.puntDrop f).drained n))) ∧
    (s.pbReset = false → ((s.port p.toNat).configured = false ∨ (s.slicesOfPort p.toNat).contains n = false) →
      exec (.recircReceive k p frame mw) s = .next (s.pbMisroute n)) ∧
    (s.pbReset = false → (s.port p.toNat).configured = true → (s.slicesOfPort p.toNat).contains n = true →
      s.recircUsed n + segments frame ≤ 512 →
      let h : RxFr := { fid := s.nextId, port := p, bytes := frame, wire := frame.length + 4, slice := k, recirc := some mw }
      let w := { s with nextId := s.nextId + 1, frames := { s.frames with recirc := s.frames.recirc ++ [h] } }
      let y := w.parseRecirc n h
      (s.quiesced = true →
        exec (.recircReceive k p frame mw) s = .next ((s.event p.toNat 0x060).emit (.recircCredit k (segments frame)))) ∧
      (s.quiesced = false → (s.wireWaits n ≠ none ∨ s.recircWaits n ≠ none) → exec (.recircReceive k p frame mw) s = .next w) ∧
      (s.quiesced = false → s.wireWaits n = none → s.recircWaits n = none →
        ∀ a, y.frames.recirc.find? (fun g => g.fid == s.nextId) = some a → exec (.recircReceive k p frame mw) s = .next
          (if !(s.frames.recirc.any fun g => g.slice.toNat == n) && decide (segments frame ≤ y.credits n) then y.handBack n a else y))) ∧
    (s.pbReset = false → let used := Tab.get 0 s.frames.creditsUsed n
      (m.toNat ≤ 4 → m.toNat ≤ used → exec (.rxCreditReturn k m) s = .next { s with frames := { s.frames with
        creditsUsed := Tab.put 0 s.frames.creditsUsed n (used - m.toNat) } }) ∧
      (4 < m.toNat ∨ used < m.toNat → exec (.rxCreditReturn k m) s = .next (s.pbCredit n))) ∧
    exec (.heldBankLow k bank) s = .next ((s.setHeld n bank false).drained n) ∧
    exec (.heldBankHigh k bank) s = .next (s.setHeld n bank true)

/-- The registry's memory events with REG on and a region chosen (R207, R208, R213, R217, R222, R223, R472, R505): an answer of the local memory serves its probe; a probe that
times out leaves its frames unlearned; a dirty line is written back; an aged pair is freed; a step of the sweep; the table
is cleared once; the write-back owed after a cold reset is done, or its loss is reported by a gap. -/
def Obligations.RegistryEvents : Prop :=
  ∀ (s : State) (tag : BitVec 11) (p : Probe) (idx : BitVec 24) (bad : Bool) (l : List Nat) (line : CacheLine),
    let n := idx.toNat
    let u := s.setReg { s.reg with unreachable := false }
    s.isOn dREG = true → s.reg.region ≠ 0 →
    (s.reg.probes.find? (fun p => p.tag == some tag) = some p →
      exec (.ledgerResponse tag bad) s = .next (u.probed p bad) ∧
      exec (.probeTimeout tag) s = .next ((s.probeFails p 5).setProbes
        (updFirst (fun q => q.key == p.key) (fun q => { q with frames := [] }) s.reg.probes)) ∧
      (s.reg.unreachable = false →
        let v := (s.setReg { s.reg with unreachable := true }).probeTimeout tag
        exec (.ledgerUnreachable tag) s = .next (v.emitGap { v.gapNow 4 0xFFFFFFFF with epoch := v.reg.epoch, fromAt := p.issued }))) ∧
    (s.reg.probes.find? (fun p => p.tag == some tag) = none → exec (.ledgerResponse tag bad) s = .next u) ∧
    (s.reg.cache.find? (fun l => l.index == n) = some line → line.dirty = true →
      let v := s.ledgerPut n line.entry
      exec (.cacheCleaner idx) s = .next { v with reg := { v.reg with
        cache := updFirst (fun l => l.index == n) (fun l => { l with dirty := false }) v.reg.cache } }) ∧
    (s.reg.age ≠ 0 → s.isOn dDMA = true → s.reg.clearing = false →
      (s.aged (s.pairEntry n) = true →
        let e := { s.pairEntry n with state := 2 }
        exec (.agingScan idx false) s = .next ((s.setPairEntry n e).oweDelta n 0 0 (some (keyWord e)))) ∧
      (s.aged (s.pairEntry n) = false → exec (.agingScan idx false) s = .next s)) ∧
    (s.reg.phase = .idle → exec (.sweepStep l) s = .next s.shadowPart) ∧
    (s.reg.phase ≠ .idle → s.reg.writebackOwed = false → s.reg.mark.toNat < Config.pairEntries →
      exec (.sweepStep l) s = .next (if (s.sweepBatch l).reg.phase = .idle then (s.sweepBatch l).readiness else s.sweepBatch l)) ∧
    (s.reg.clearing = true → exec .pairTableClear s = .next (s.setReg { s.reg with
      clearing := false, ledger := s.reg.ledger.filter fun kv => decide (Config.pairEntries ≤ kv.1) })) ∧
    (s.reg.writebackOwed = true →
      let w := s.writeBackAll.discardCache
      let v := s.discardCache
      let v' := v.setReg { v.reg with writebackOwed := false }
      exec (.coldResetWriteback true) s = .next (w.setReg { w.reg with writebackOwed := false }) ∧
      exec (.coldResetWriteback false) s = .next (v'.emitGap (v'.gapNow 3 0xFFFFFFFF)))

/-! ### Flow control and guards -/

/-- XOFF_CHANGE, PFC_REFRESH, SENT_PAUSE_EXPIRE, DUTY_CLIP, DUTY_RELEASE, the three storm events and GUARD_REFUSAL_REPORT (R137,
R139 to R141, R147, R150, R151, R155, R157, R466): a changed request line sends a pause frame unless a guard holds its priority back, at once on a free wire and after
the frame on it otherwise; a held pause is refreshed after its interval; a duty sum at its ceiling and a detect time that has passed engage a guard, which
marks its priority, counts its event and is reported; the fall of the sum to 7/8 and the hold time end it, which is reported, too; collected refusals are
reported once in a millisecond and cleared. -/
def Obligations.FlowControlAndGuards : Prop :=
  ∀ (s : State) (p : PortId) (i : Prio) (high : Bool),
    let n := p.toNat
    let b := i.toNat
    let x := s.port n
    let g := s.guardPort n
    let fresh (k : Nat) : Bool := match Tab.get none x.reportedAt k with | some t => s.msPassed 1 t | none => true
    let noted (k : Nat) : Port := { x with reportedAt := Tab.put none x.reportedAt k (some s.clock) }
    (bitOf x.xoff b ≠ high →
      let t := s.setPort n { x with xoff := setBit x.xoff b high }
      (x.configured = true → s.portOn n = true →
        exec (.xoffChange p i high) s = .next (if bitOf (t.guarded n) b then t else t.sendPause n)) ∧
      ((x.configured = false ∨ s.portOn n = false) → exec (.xoffChange p i high) s = .next t)) ∧
    (bitOf x.xoff b = high → exec (.xoffChange p i high) s = .next s) ∧
    (x.st = .up → x.txMode ≠ 0 → (x.wireFree = true → s.sendPause n = s.buildPause n) ∧
      (x.wireFree = false → s.sendPause n = s.setPort n { x with ctlDue := true })) ∧
    (bitOf (s.lines n) b = true → bitOf (s.wanted n) b = true →
      x.quantaPassed (max 1 (min (x.refresh.toNat * 16) (x.quanta.toNat / 2))) (Tab.get 0 x.toldAt b) s.clock = true →
      exec (.pfcRefresh p i) s = .next (s.sendPause n)) ∧
    (bitOf x.asserted b = true → x.quantaPassed (Tab.get 0 x.toldTime b).toNat (Tab.get 0 x.toldAt b) s.clock = true →
      exec (.sentPauseExpire p i) s = .next (s.setPort n (x.setAsserted (setBit x.asserted b false) s.clock))) ∧
    (bitOf (x.asserted ||| x.xoff) b = true → bitOf x.dutyClipped b = false →
      (g.ceiling b).toNat * dutyWindow ≤ 256 * x.dutySum b s.clock →
      let t := (s.setPort n { x with dutyClipped := setBit x.dutyClipped b true }).event n (0x098 + b)
      exec (.dutyClip p i) s = .next ((if bitOf x.asserted b then t.sendPause n else t).guardEvent n 2 (BitVec.ofNat 8 b) 1 1)) ∧
    (bitOf x.dutyClipped b = true → 8 * (256 * x.dutySum b s.clock) ≤ 7 * ((g.ceiling b).toNat * dutyWindow) →
      exec (.dutyRelease p i) s = .next (((s.setPort n { x with dutyClipped := setBit x.dutyClipped b false }).guardEvent n 2
        (BitVec.ofNat 8 b) 2 1).honourLine n)) ∧
    (bitOf x.rxPaused b = true → bitOf x.rxIgnored b = false → s.msPassed g.rxDetect.toNat (Tab.get 0 x.pausedAt b) = true →
      let y := { x with rxIgnored := setBit x.rxIgnored b true, stormRxAt := Tab.put 0 x.stormRxAt b s.clock }
      exec (.stormWatchdogRx p i) s = .next (((s.setPort n y).event n (0x0A0 + b)).guardEvent n 3 (BitVec.ofNat 8 b) 1 1)) ∧
    (bitOf x.asserted b = true → bitOf x.stormTx b = false → s.msPassed g.txDetect.toNat (Tab.get 0 x.assertedAt b) = true →
      let due := if x.txMode = 1 then (List.range 8).filter fun j => s.stormTxDue n j else [b]
      b ∈ due ∧ exec (.stormWatchdogTx p i) s = .next ((s.forEach due fun s j => s.stormTxEngages n j).sendPause n)) ∧
    s.stormTxEngages n b = ((s.setPort n { x with stormTx := setBit x.stormTx b true, stormTxAt := Tab.put 0 x.stormTxAt b s.clock }).event n
      (0x0A8 + b)).guardEvent n 4 (BitVec.ofNat 8 b) 1 1 ∧
    (bitOf x.stormTx b = true → s.msPassed g.txHold.toNat (Tab.get 0 x.stormTxAt b) = true →
      exec (.stormHoldExpire p i true) s = .next (((s.setPort n { x with stormTx := setBit x.stormTx b false }).guardEvent n 4
        (BitVec.ofNat 8 b) 2 1).honourLine n)) ∧
    (bitOf x.rxIgnored b = true → s.msPassed g.rxHold.toNat (Tab.get 0 x.stormRxAt b) = true →
      let y := { x with rxIgnored := setBit x.rxIgnored b false, pausedAt := Tab.put 0 x.pausedAt b s.clock }
      exec (.stormHoldExpire p i false) s = .next ((s.setPort n y).guardEvent n 3 (BitVec.ofNat 8 b) 2 1)) ∧
    (x.refused5 ≠ 0 → fresh 5 = true →
      exec (.guardRefusalReport p 5) s = .next ((s.setPort n { noted 5 with refused5 := 0 }).guardEvent n 5 0xFF 3 x.refused5)) ∧
    (x.refused6 ≠ 0 → fresh 6 = true →
      exec (.guardRefusalReport p 6) s = .next ((s.setPort n { noted 6 with refused6 := 0 }).guardEvent n 6 0xFF 3 x.refused6)) ∧
    (x.refused8 ≠ 0 → fresh 8 = true →
      exec (.guardRefusalReport p 8) s = .next ((s.setPort n { noted 8 with refused8 := 0 }).guardEvent n 8 0xFF 3 x.refused8))

/-! ### Lanes -/

/-- The events of the lanes (R112 to R115, R129, R130, R132 to R134, R254): a lost signal is counted and loses the lock; a good marker of a locked lane keeps its
sequence number and tells of the peer, and a second candidate with the next one locks a lane; a fault ordered set changes the state of an UP port; the end of an
interval sets the degrade flag by the threshold in force since it began; a calibration is kept; corrected symbols, up to 15 of a codeword, and bad
blocks are counted, and the 16th bad codeword in a row loses the lock. -/
def Obligations.LaneEvents : Prop :=
  ∀ (s : State) (l : PortId) (p : Nat) (m : Marker) (remote present : Bool) (rx tx : BitVec 15) (c : Nat),
    let n := l.toNat
    let x := s.lane n
    s.portOfLane n = some p → s.pcsRuns p = true →
    let y := s.port p
    (s.portOn p = true → x.signal = true → x.lock = true →
      exec (.laneSignalDetect l false) s = .next ((((s.setLane n { x with signal := false }).event p
        (0x0E0 + (s.setLane n { x with signal := false }).logicalOf p n))).loseLock n)) ∧
    exec (.laneSignalDetect l true) s = .next (s.setLane n { x with signal := true }) ∧
    (x.signal = true → x.lock = true → goodMarker y.mode m = true →
      let t := s.setLane n (Lane.marked { x with badMarkers := 0 } y.mode m)
      exec (.alignmentMarker l m) s = .next ((if ennosMode y.mode then t.setPort p ((t.port p).peerSays x.logical m) else t).deskewStep p)) ∧
    (ennosMode y.mode = true →
      (m.isGood = true → Lane.marked x y.mode m = { x with amSeq := m.seq, mark := some (m.seq, m.arrival) }) ∧
      (x.signal = true → x.lock = false → m.isCandidate = true → m.mode = y.mode → m.onPeriod = true →
        ∀ seq, x.cand = some (y.mode, m.lane, seq) → m.seq = seq + 1 →
        exec (.alignmentMarker l m) s = .next ((s.gainLock p n m).deskewStep p) ∧ ((s.gainLock p n m).lane n).lock = true ∧
          ((s.gainLock p n m).lane n).logical = m.lane)) ∧
    (s.pcsRuns n = true → (s.port n).st = .up →
      let z := if remote then { s.port n with remoteIn := present } else { s.port n with localIn := present }
      exec (.faultOrderedSet l remote present) s = .next ((s.setPort n z).setLink n z.linkState)) ∧
    (s.pcsRuns n = true → let z := s.port n
      let judged (d : Bool) : Port := { z with degrade := d, corrected := 0, thresholdNow := z.threshold }
      (z.thresholdNow.toNat < z.corrected → z.thresholdNow ≠ 0xFFFFFFFF →
        exec (.fecDegradeInterval l) s = .next ((s.setPort n (judged true)).event n 0x0C7)) ∧
      (z.corrected ≤ z.thresholdNow.toNat → exec (.fecDegradeInterval l) s = .next (s.setPort n (judged false)))) ∧
    (s.isOn dTIME = true → x.lock = true → s.sliceOn (n / 4) = true →
      exec (.laneCalibration l rx tx) s = .next (s.setLane n { x with rxValid := true, txValid := true, rxCal := rx, txCal := tx })) ∧
    (x.lock = true → ∀ k : Nat,
      let r := s.count p 0x0C3 (min k 80)
      exec (.fecCodewordDecode l 0 k false) s = .next (r.setLane n { x with badCodewords := 0 }) ∧
      (0 < c →
        let t := r.setLane n { x with badCodewords := 0 }
        let u := (t.event p 0x0C0).count p (0x0C8 + t.logicalOf p n) (min c 15)
        exec (.fecCodewordDecode l c k false) s = .next (u.setPort p { u.port p with corrected := (u.port p).corrected + min c 15 })) ∧
      (x.badCodewords < 15 →
        exec (.fecCodewordDecode l c k true) s = .next ((r.event p 0x0C1).setLane n { x with badCodewords := x.badCodewords + 1 })) ∧
      (15 ≤ x.badCodewords →
        exec (.fecCodewordDecode l c k true) s = .next
          (((r.event p 0x0C1).setLane n { x with badCodewords := x.badCodewords + 1 }).loseLock n)))

/-! ### Time -/

/-- The events of TIME and of the armed instants (R247, R250, R261, R262, R264 to R266, R268): an accepted edge is kept and, with the edge as the source, its offset
goes to the servo; an edge off by more than 1 ms is counted; a good message waits for the edge, a bad one is counted; LOCKED ends
in HOLDOVER when hold_ms have passed since the last accepted offset; the output is high from out_adv before each whole second for out_width; an armed
EPOCH or SNAP, and an alarm, fire at their instants; a follower's exchange steers it. -/
def Obligations.TimeEvents : Prop :=
  ∀ (s : State) (ph : BitVec 3) (bytes : List Byte) (off : Int) (rt : Nat) (a : Armed),
    let t := s.time
    let e : Int := s.now16 + ph.toNat * 10240 - t.inDelay.toInt * 4096
    s.isOn dTIME = true →
    (t.inEn = true → t.state ≠ .unset →
      (t.edgeBad e = true → exec (.ppsEdge ph) s = .next (s.setTimeUnit { t with ppsBad := satInc t.ppsBad })) ∧
      (t.edgeBad e = false → t.source = 2 → t.follows = false →
        exec (.ppsEdge ph) s = .next (((s.setTimeUnit { t with lastEdge := some e }).acceptOffset (edgeOffset e)).takeTod e)) ∧
      (t.edgeBad e = false → (t.source ≠ 2 ∨ t.follows = true) →
        exec (.ppsEdge ph) s = .next ((s.setTimeUnit { t with lastEdge := some e }).takeTod e))) ∧
    (t.todEn = true → bytes.length = 10 → byteAt bytes 0 = 0xA5 → byteAt bytes 1 = 0x5A →
      (bytes.sum = 0 → bitOf (byteAt bytes 8) 0 = true →
        exec (.todMessage bytes true) s = .next (s.setTimeUnit { t with tod := some (BitVec.ofNat 48 (beNat (slice bytes 2 6))) })) ∧
      ((bytes.sum ≠ 0 ∨ bitOf (byteAt bytes 8) 0 = false) →
        exec (.todMessage bytes true) s = .next (s.setTimeUnit { t with todBad := satInc t.todBad })) ∧
      exec (.todMessage bytes false) s = .next (s.setTimeUnit { t with todBad := satInc t.todBad })) ∧
    (t.state = .locked → s.msPassed t.holdMs.toNat t.lastTick = true → exec .holdoverTimeout s = .next (s.setTimeUnit t.enterHoldover)) ∧
    (let high := s.ppsAllowed = true ∧ (s.now16 + t.outAdv.toNat * 4096 + 40960) % 65536000000000 < t.outWidth.toNat * 655360000;
      (high → t.ppsOut = false → exec (.ppsOutput true) s = .next ((s.setTimeUnit { t with ppsOut := true }).emit (.pps true))) ∧
      (¬ high → t.ppsOut = true → exec (.ppsOutput false) s = .next ((s.setTimeUnit { t with ppsOut := false }).emit (.pps false))) ∧
      (¬ high → exec (.ppsOutput true) s = .next s)) ∧
    (s.timeRuns = true → a.fired = none → a.held = false → s.instant16 a.instant ≤ s.now16 →
      (t.armedEpoch = some a → exec (.armedInstant false) s = .next s.fireEpoch.readiness) ∧
      (t.armedSnap = some a → exec (.armedInstant true) s = .next s.fireSnap.readiness)) ∧
    (s.timeRuns = true →
      (t.armed0 = true → s.instant16 t.alarm0 ≤ s.now16 →
        exec (.alarmFire 0) s = .next (((s.setTimeUnit { t with armed0 := false, fired0 := true }).fireVector t.alarmVector.toNat).wake 3 0)) ∧
      (t.armed1 = true → s.instant16 t.alarm1 ≤ s.now16 →
        exec (.alarmFire 1) s = .next (((s.setTimeUnit { t with armed1 := false, fired1 := true }).fireVector t.alarmVector.toNat).wake 4 0))) ∧
    (s.isOn dHOST = true → s.isHead = false → bitOf (setBit s.casc.present s.casc.self.toNat false) s.casc.head.toNat = true →
      t.follows = true → t.joined = true →
      let f := s.cascField off
      let u := f.2.setTimeUnit { f.2.time with
        headId := f.2.casc.head, headOffset := f.1, headDelay := BitVec.ofInt 16 (freeDiv rt 8192) }
      let v := u.time.servoStep Config.followerKp Config.followerKi off u.now16
      let row := if off.natAbs ≤ 65536 then v.alignedRow + 1 else 0
      let w := { v with alignedRow := row, aligned := v.aligned || decide (16 ≤ row), lastTick := s.clock }
      exec (.cascadeTimeExchange off rt) s = .next (u.setTimeUnit (if w.aligned then { w with role := 2 } else w).followState).ppsSettle)

/-! ### The cascade -/

/-- The events of the cascade with HOST on (R65, R67, R416, R417, R420, R421, R477, R478): a flit with a bad CRC only counts against its link; a good one acknowledges what the other
link holds, after which what the twin has retained is accepted, and the next in sequence is routed; the oldest unacknowledged flit is sent again; a link goes down; a collective that times out ends
at its head; the beats go out and the missing are counted; a member that has missed three is removed; a bound pair mirrors its
deltas, and the reports owed for a lost partner are tried again; a partner whose PM has failed is adopted. -/
def Obligations.CascadeEvents : Prop :=
  ∀ (s : State) (l : Link) (f : Flit) (r : List Flit) (op : Byte) (c : Coll) (m : BitVec 3),
    let x := s.link l
    s.isOn dHOST = true →
    (f.crcOk = false → exec (.cascadeFlitReceive l f) s = .next (s.setLinkSt l x.sawBad)) ∧
    (f.crcOk = true →
      let t := s.setLinkSt l x.sawGood
      let u := (t.setLinkSt (otherLink l) ((t.link (otherLink l)).acked f.ack)).retainHeld
      (f.payload ≠ .idle → f.seq = (u.link l).lastRecv + 1 →
        exec (.cascadeFlitReceive l f) s = .next ((u.setLinkSt l { u.link l with lastRecv := f.seq }).route l f)) ∧
      ((f.payload = .idle ∨ f.seq ≠ (u.link l).lastRecv + 1) → exec (.cascadeFlitReceive l f) s = .next u)) ∧
    (x.unacked = f :: r →
      exec (.cascadeResend l) s = .next ((s.setLinkSt l { x with resends := satInc x.resends }).emit (.flit l f))) ∧
    exec (.cascadeLinkDown l) s = .next (s.setLinkSt l { x with up := false, good := 0 }) ∧
    (s.casc.colls.find? (fun c => c.op == op) = some c → s.isHead = true → s.usPassed s.casc.limit.toNat c.since = true →
      exec (.collectiveTimeout op) s = .next (((s.headEnd c Status.timeout.code c.instant).headNext op).readiness)) ∧
    (s.sendBeats.countMissing.isHead = false → exec .heartbeat s = .next (s.sendBeats.countMissing.elect.cascRole.tellTime false).relayMatch) ∧
    (s.sendBeats.countMissing.isHead = true → s.sendBeats.countMissing.serves = false →
      let b := s.sendBeats.countMissing
      exec .heartbeat s = .next ((b.headLose b.casc.self).elect.cascRole.tellTime false).relayMatch) ∧
    (m ≠ s.casc.self → bitOf s.casc.present m.toNat = true → 3 ≤ Tab.get 0 s.casc.missing m.toNat → s.isHead = false →
      m ≠ s.casc.partner →
      let n := m.toNat
      let t := (s.setCasc { s.casc with
        present := setBit s.casc.present n false, serving := setBit s.casc.serving n false, yields := setBit s.casc.yields n false,
        pmFailed := setBit s.casc.pmFailed n false, missing := Tab.put 0 s.casc.missing n 0 }).elect
      exec (.memberDeclaredFailed m) s = .next ((if t.casc.head = m then t.timeHeadLost else t).cascRole.readiness)) ∧
    (bitOf s.casc.present m.toNat = false → exec (.memberDeclaredFailed m) s = .next s) ∧
    (s.mirrors = true → s.ringUp = true →
      ∃ ps cfg, let t := s.toTwin (.deltas s.casc.deltas ps cfg s.reg.recordQueue s.reg.epoch)
        exec .mirrorInterval s = .next (t.setCasc { t.casc with deltas := [] })) ∧
    (s.casc.twin = .partnerLost → exec .mirrorInterval s = .next s.settleOther) ∧
    (s.casc.twin = .bound → bitOf s.casc.pmFailed s.casc.partner.toNat = true →
      exec .twinAdopt s = .next ((s.toTwin (.twin .adopt)).setTwin .serving))

/-! ### Faults, tests and the control store -/

/-- The events of the lockstep pair, the tests, the control store and the slices (R30, R54, R56, R352, R354, R399, R405 to R407, R413): a mismatch rolls the
instruction back, the third in a row starts a self-test; a bad journal word ends its command, and a bad queue context is an unrecoverable fault; the self-test
fences the unit that failed or ends in a fault; the periodic test runs at a commit point when its interval has passed, and that of a
fenced unit that passes lets it return; the watchdog rolls everything back; a word with bad parity is asked for again, rolling back the instruction that fetched it, and
is loaded and counted when it comes, given up at the third failure; the scrubber checks its
words; a table fault marks its entry, another resets the slice, the third within a second holds it; an internal channel halts. -/
def Obligations.FaultAndTestEvents : Prop :=
  ∀ (s : State) (q : QId) (e : JEntry) (page : BitVec 3) (word : BitVec 13) (data : QWord) (n : BitVec 5) (kind : BitVec 4) (entry : BitVec 13)
    (bank : Bool) (idx : RIdx) (c : BitVec 2) (r : Reload),
    let d := s.sliceP n.toNat
    let w := 8192 * page.toNat + word.toNat
    (s.stepping q = some e → s.pm.alone = 0 → s.top.mode ≠ .adopted →
      let t := { s with pm := { s.pm with mcheckCount := satInc s.pm.mcheckCount, lastOpcode := e.op } }
      let u := t.updEntry e.id fun e => { e.rollBack with rolled := true, mism := e.mism + 1 }
      exec (.machineCheck (.mismatch q)) s =
        .next (if e.mism + 1 < 3 then u else { u with pm := { u.pm with testing := true, testFor := some e.id } }).takeAll) ∧
    (s.pm.journal.find? (fun e => e.q == q.toNat && e.idx == idx && e.st != .completed) = some e →
      exec (.machineCheck (.journalWord q idx)) s = .next (s.endForced e.id .machineCheckFatal).takeDue) ∧
    ((s.queue q.toNat).isSome = true → exec (.machineCheck (.queueContext q)) s = .next (s.raiseFault 5 0xFF)) ∧
    (s.atCommit = true → ∀ a b : Byte, s.raiseFault a b = s.takeFault a b) ∧
    (s.pm.testing = true → s.pm.testFor = none →
      let t := s.tested true false
      exec (.selfTestEnd true false) s = .next ({ t with pm := { t.pm with testing := false, testFor := none } }.fence true).takeDue) ∧
    (s.pm.testing = true → s.pm.testFor = none →
      let t := s.tested true true
      exec (.selfTestEnd true true) s = .next ({ t with pm := { t.pm with testing := false, testFor := none } }.raiseFault 1 0xFF).takeDue) ∧
    (s.pm.interval ≠ 0 → s.pm.testing = false → s.top.resetting = .none → s.top.mode ≠ .adopted → s.atCommit = true →
      s.msPassed s.pm.interval.toNat s.pm.testedAt = true →
      (s.pm.alone = 0 → s.isOn dPMA = true → s.isOn dPMB = true →
        exec (.periodicSelfTest false false) s = .next (s.tested false false) ∧
        exec (.periodicSelfTest false true) s = .next ((s.tested false true).fence false) ∧
        exec (.periodicSelfTest true true) s = .next ((s.tested true true).raiseFault 1 0xFF)) ∧
      (s.pm.alone = 1 → s.isOn dPMA = true → s.pm.failedReturns < 3 →
        exec (.periodicSelfTest false false) s = .next (s.tested false false).rejoin)) ∧
    (s.pmRuns = true →
      exec .postmasterWatchdog s =
        .next (({ s.rollBackAll with pm := { s.rollBackAll.pm with burst := 0 } }).takeAll.resumePorts allPorts)) ∧
    (s.isOn dHOST = true → s.top.resetting = .none → (s.cs.reloads.any fun r => r.ovl == false && r.word == w) = false →
      let t := s.setCs { s.cs with reloads := s.cs.reloads ++ [{ word := w }] }
      exec (.csParityReload false page word false q) s = .next t.issueReloads ∧
      ((t.cs.visibleAt false w).isSome = true → t.reloading q.toNat = false → t.stepping q = some e →
        let u : State := { t with pm := { t.pm with mcheckCount := satInc t.pm.mcheckCount, lastOpcode := e.op } }
        let v := u.updEntry e.id fun e => { e.rollBack with rolled := true }
        exec (.csParityReload false page word true q) s = .next
          (v.updReload false w fun r => { r with waiters := r.waiters ++ [e.q] }).takeAll.issueReloads)) ∧
    (s.cs.reloads.find? (fun r => r.ovl == false && r.word == w) = some r →
      (let t := s.dropReload false w;
        s.reloadDone false w (some data) = t.setCs { t.cs with
          parityStore := satInc t.cs.parityStore, store := Tab.put 0 t.cs.store w data }) ∧
      (r.fails < 2 → s.reloadDone false w none =
        s.updReload false w fun r => { r with fails := r.fails + 1, failedAt := some s.clock }) ∧
      (2 ≤ r.fails → s.reloadDone false w none = s.reloadGivesUp r)) ∧
    (s.pmOn = true → s.top.resetting = .none →
      exec .scrub s = .next (s.forEach (List.range s.cs.rate.toNat) fun s _ => s.scrubWord)) ∧
    (n.toNat ≤ 16 → s.isOn (dSLICE n.toNat) = true → kind ≠ 0 → kind.toNat ≤ 8 →
      (tableKind kind = true → exec (.sliceFault n kind entry bank) s = .next (s.tableError n.toNat kind entry bank)) ∧
      (tableKind kind = false →
        let times := s.clock :: (d.faults.filter fun t => !s.msPassed 1000 t).take 2
        let t := (s.setSliceP n.toNat { d with faultValid := true, faultKind := kind, faultEntry := 0, faults := times }).sliceReset n.toNat
        (times.length < 3 → exec (.sliceFault n kind entry bank) s = .next t) ∧
        (3 ≤ times.length → exec (.sliceFault n kind entry bank) s = .next (t.holdSlice n.toNat)))) ∧
    ((∀ r ∈ s.dma.reqs ++ s.dma.backlog, ∀ w, r.chan = some w → w < 28) → exec (.internalChannelFault c) s =
      .next (s.setChan (28 + c.toNat) { s.chan (28 + c.toNat) with st := .halted, failed := true }))

/-! ### Resets -/

/-- The resets (R31, R35, R248, R399, R400, R435): a warm reset is held until its release, leaves the mode and the guards, records the mode it found and cause 0x05, and
empties the channel requests; nothing is reset in COLD. A cold reset leaves COLD with cause 0, the guards open at their reset settings, no
key and no monitor session. AON power-up and a brown-out keep only what stands outside the block, and the boot count rises by one. The
release ends the reset held, and at that of a cold reset the identity is sampled. -/
def Obligations.ResetEvents : Prop :=
  ∀ (s : State) (id : BitVec 3) (b : BitVec 16) (latch : Bool) (r : BitVec 2),
    (s.top.mode = .cold → exec .warmReset s = .next s) ∧
    (s.top.mode ≠ .cold → s.top.resetting ≠ .cold → ∃ t, exec .warmReset s = .next t ∧
      t.top.resetting = .warm ∧ t.top.previous = t.top.mode ∧ (s.top.due = [] → t.top.mode = s.top.mode) ∧ t.top.cause = 0x05 ∧ t.guards = s.guards ∧
      t.pending = s.pending ∧ t.reg.probes = [] ∧ t.pm.burst = 0 ∧ t.pm.testing = false) ∧
    (∃ t, exec .coldReset s = .next t ∧ t.top.mode = .cold ∧ t.top.cause = 0 ∧ t.top.resetting = .cold ∧ t.top.previous = s.top.mode ∧
      t.guards = {} ∧ t.sec.slots = [] ∧ t.frames = {} ∧ t.cs = {} ∧ t.mon = { dbgEn := t.mon.dbgEn } ∧
      t.guardQueue = s.guardQueue ∧ t.pending = s.pending) ∧
    (∃ t, exec (.aonPowerUp b latch r) s = .next t ∧ t.top = { resetting := .cold } ∧ t.time = { powerup := b + 1 } ∧
      t.power = { brownout := latch } ∧ t.reg = { region := r } ∧ t.qs = {} ∧ t.dma = {} ∧ t.guards = {} ∧ t.pending = s.pending) ∧
    (∃ t, exec (.brownOut b) s = .next t ∧ t.top = {} ∧ t.time = { powerup := b + 1 } ∧ t.power = { brownout := true } ∧
      t.reg = { region := s.reg.region } ∧ t.casc.self = s.casc.self ∧ t.guards = {} ∧ t.pending = s.pending) ∧
    (s.top.resetting = .none → exec (.resetRelease id) s = .next s) ∧
    (s.top.resetting = .cold → ∃ t, exec (.resetRelease id) s = .next t ∧ t.top = { s.top with resetting := .none } ∧
      t.casc = { s.casc with self := id }) ∧
    (s.top.resetting = .warm → s.isOn dHOST = false →
      exec (.resetRelease id) s = .next ((s.setTop { s.top with resetting := .none }).resumePorts allPorts).refreshReplicas)

/-! ### Power -/

/-- WAKE, the steps of a domain that restores or enters rest, and the rail and PLL events (R368, R369, R371 to R375, R380, R484): a wake that is enabled and that holds
votes for the domains it wakes; a restoring domain goes from step to step and is on after the last; an entering one counts eight cycles
and rests; a good rail and a locked PLL end the waits for them. -/
def Obligations.PowerDomainEvents : Prop :=
  ∀ (s : State) (d : BitVec 5) (src : BitVec 4) (detail : BitVec 16) (st : RestoreStep) (off : Bool) (c : Nat) (into : RestSt),
    let n := d.toNat
    let x := s.dom n
    (s.wakeHolds src detail = true → s.wakeEnabled src = true → s.entryWindow = false → s.wakeable ≠ [] →
      exec (.wake src detail) s = .next ((({ s with power := { s.power with wakeSource := src, wakeDetail := detail } }).placeVotes 0
        s.wakeable).startRails)) ∧
    (s.wakeEnabled src = false → exec (.wake src detail) s = .next s) ∧
    (x.st = .restoring .railUp off →
      exec (.domainRestoreStep d) s = .next ((s.setDom n { x with railWait := true }).railEnds n)) ∧
    (x.st = .restoring st off → st ≠ .railUp →
      (∀ st', nextRestore n st = some st' → exec (.domainRestoreStep d) s = .next (s.setDom n { x with st := .restoring st' off })) ∧
      (nextRestore n st = none → exec (.domainRestoreStep d) s = .next (s.domainUp n off))) ∧
    (x.leaving = false → x.st = .entering c into →
      (c < 7 → exec (.domainEntry d) s = .next (s.setDom n { x with
        railGood := x.railGood && decide (c < 6), st := .entering (c + 1) into })) ∧
      (7 ≤ c → exec (.domainEntry d) s = .next ((s.setDom n { x with
        railGood := x.railGood && decide (c < 6), st := if into = .off then .off else .retention (into == .retention) }).startRails))) ∧
    (x.resting = false → n ≠ 0 → n ≤ 24 → exec (.railGood d) s = .next ((s.setDom n { x with railGood := true }).railEnds n)) ∧
    (s.coreNeeded = true →
      exec .corePllLock s = .next (({ s with power := { s.power with corePll := true } }).forEach allDomains fun s d => s.railEnds d)) ∧
    (s.coreNeeded = false → exec .corePllLock s = .next s)

/-- The governor (R381, R383 to R386, R485): an evaluation with the load above the cap sheds rungs, or fails with nothing left to shed; one below it counts
towards giving a rung back; a measurement sets the gain; a stale one is marked; a cap input counts when two samples agree, at most
46,000; a hint whose duration has passed is withdrawn and the reserve follows. -/
def Obligations.PowerGovernor : Prop :=
  ∀ (s : State) (o : CapObs) (m v : BitVec 16) (mean i : Nat),
    let e := min 65535 (freeDiv (o.activity * s.power.gain.toNat) 4096).toNat
    let t := s.setPower { s.power with
      estimate := BitVec.ofNat 16 e, estLinks := o.links, estMemory := o.memory, estCompute := o.compute }.withReserve
    let g := s.calibrated m mean
    (t.power.effectiveCap < e + t.power.reserve →
      let u := t.setPower { t.power with calm := 0, under := 0 }
      exec (.capEvaluation o) s = .next (if u.allShed then u.capFails else State.shedRungs o (min 48 o.rungsNeeded) u)) ∧
    (e + t.power.reserve ≤ t.power.effectiveCap →
      let under := min 100 (t.power.under + 1)
      let calm := if 100 * (e + t.power.reserve + o.rungCost) ≤ 97 * t.power.effectiveCap then t.power.calm + 1 else 0
      let u := t.setPower { t.power with
        under := under, capFail := t.power.capFail && decide (under < 100), calm := if calm < 100 then calm else 0 }
      exec (.capEvaluation o) s = .next (if calm < 100 then u else u.restoreRung)) ∧
    (exec (.powerMeasurement m mean) s = .next (g.2.setPower { g.2.power with gain := g.1, measured := m, measStale := false })) ∧
    exec .measurementStale s = .next (s.setPower { s.power with measStale := true }) ∧
    (v ≠ s.power.capSample → exec (.capInput v) s = .next (s.setPower { s.power with capSample := v })) ∧
    (v = s.power.capSample → ∃ t, exec (.capInput v) s = .next t ∧ t.power.capIn.toNat = min 46000 v.toNat ∧
      t = s.setPower { s.power with capIn := t.power.capIn }) ∧
    (∀ h, s.power.hints[i]? = some h →
      (s.usPassed h.duration h.since = true →
        exec (.hintExpire i) s = .next (s.setPower { s.power with hints := s.power.hints.eraseIdx i }.withReserve)) ∧
      (s.usPassed h.duration h.since = false → exec (.hintExpire i) s = .next s))

/-! ### The monitor and the test access port -/

/-- The monitor (R300, R444 to R449): a command is answered while the monitor is on; while it is closed all but VER, the unlock and an unknown
command are answered LOCKED; while an instruction of its own runs it answers BUSY. An unlock needs DBG_EN and a mode that allows it, waits for a KEYLOAD
that stands in a step, erases the keys, and enters MAINTENANCE and opens at a commit point; a read-back that fails twice is a fault. A fall of DBG_EN closes the
monitor and the test access port. An instruction of the open test access port takes its register, and every one of the closed port acts as BYPASS. -/
def Obligations.MonitorCommands : Prop :=
  ∀ (s : State) (op : Byte) (i : Ins) (addr v m : Word) (n k : Nat) (lane : PortId) (eye : Word) (line : List Byte) (ir : Byte) (z : State)
    (tap : Bool),
    let t := s.setDbg true
    let w := (t.placeVotes 0xC0 [dHOST, dPMA, dPMB]).startRails
    let x := z.enterMaintenance
    s.monOn = true → s.mon.busy = none →
    exec .monVer s = .next s.sayVer ∧
    (s.mon.isOpen = false →
      exec (.monBaud n) s = .next (s.say .locked) ∧ exec (.monPeek addr n) s = .next (s.say .locked) ∧
      exec (.monPoke addr v m) s = .next (s.say .locked) ∧ exec (.monExec op i) s = .next (s.say .locked) ∧
      exec (.monJournal n) s = .next (s.say .locked) ∧ exec .monMcheck s = .next (s.say .locked) ∧
      exec (.monLane lane eye) s = .next (s.say .locked)) ∧
    (s.mon.isOpen = true →
      (∀ r : Fin 8, exec (.monBaud (baudRates.getD r 0)) s = .next { s.say .ok with mon := { s.mon with baud := BitVec.ofNat 4 r } }) ∧
      (n ∉ baudRates → exec (.monBaud n) s = .next (s.say (.status .badOperand))) ∧
      (0 < n → n ≤ 64 → exec (.monPeek addr n) s = .next (peekWords n addr.toNat s)) ∧
      (permits 0x01 {} s.top.mode = true → setCheck s addr.toNat m v = none →
        exec (.monPoke addr v m) s = .next ((s.applySet addr.toNat m v).say (.value ((s.applySet addr.toNat m v).peek addr.toNat)))) ∧
      (s.pm.journal.length < Config.journalSize →
        let e : JEntry := { id := s.nextId, queue := 0xFFFF, op := op, ins := i, raw := entryOfIns op i }
        let t := ({ s with nextId := s.nextId + 1 }).setJournal (s.pm.journal ++ [e])
        exec (.monExec op i) s = .next ({ t with mon := { t.mon with busy := some s.nextId } }.startMonitor)) ∧
      (0 < n → n ≤ 4096 → exec (.monJournal n) s = .next ((s.forEach (s.pm.journal.take n) State.sayEntry).say .ok)) ∧
      exec .monMcheck s = .next s.sayMcheck ∧
      (s.sliceOn (lane.toNat / 4) = true → exec (.monLane lane eye) s = .next (s.sayLane lane.toNat eye)) ∧
      (line.length ≤ 255 → exec (.monUnknownCommand line) s = .next (s.say .cmd))) ∧
    (255 < line.length → exec (.monUnknownCommand line) s = .next (s.say .long)) ∧
    (unlockMode s.top.mode = true →
      exec (.monUnlockErase true n) s = .next (w.unlock false n) ∧ exec (.tapUnlock true n) s = .next ((t.emit (.tdo 1)).unlock true n)) ∧
    (z.keyloadInStep = true → z.unlock tap n = z.setTop { z.top with due := z.top.due ++ [.unlock tap (some n)] }) ∧
    (z.keyloadInStep = false →
      (n < 2 → z.erase.atCommit = true → z.unlock tap n = z.erase.opens tap) ∧
      (n < 2 → z.erase.atCommit = false →
        z.unlock tap n = z.erase.setTop { z.erase.top with due := z.erase.top.due ++ [.unlock tap none] }) ∧
      (2 ≤ n → z.unlock false n = (z.erase.raiseFault 3 0xFF).say .erase ∧ z.unlock true n = z.erase.raiseFault 3 0xFF)) ∧
    (z.top.mode ≠ .maintenance → z.opens false = { x with mon := { x.mon with isOpen := x.mon.dbgEn } }.say .maintenance ∧
      z.opens true = { x with mon := { x.mon with tapOpen := x.mon.dbgEn } }) ∧
    exec (.monUnlockErase false n) s = .next ((s.setDbg false).refuseUnlock.say .dbgEn) ∧
    exec (.tapUnlock false k) s = .next ((s.setDbg false).emit (.tdo 1)).refuseUnlock ∧
    exec .dbgEnFall s = .next { s with mon := { s.mon with dbgEn := false, isOpen := false, tapOpen := false } } ∧
    ((s.mon.tapOpen = false ∨ ir = 0xFF ∨ ir = 0x7C ∨ Config.tapInternal ir = false) → exec (.tapInstruction ir) s =
      .next { s.emit (.tdo 1) with mon := { s.mon with tapIr := if s.mon.tapOpen then ir else 0xFF } })

/-! ### Frames of commands -/

/-- What an event changes: of the units of the block, each of these commands changes the one named, or the two, and all the rest of the state, the waiting
commands and the answers included, is as it was. -/
def Obligations.FrameOfUnitEvents : Prop :=
  ∀ (s t : State) (c : Instr) (src : BitVec 4) (det v : BitVec 16) (d : BitVec 5) (i k : Nat) (p : PortId) (pr : Prio) (b : List Byte)
    (f : Bool) (l : Link) (q : QId) (sl : BitVec 4) (bank : BitVec 1) (rx tx : BitVec 15) (word : BitVec 16) (n : BitVec 3) (idx : BitVec 24) (tag : BitVec 11),
    exec c s = .next t →
    (c ∈ [.wake src det, .railGood d, .corePllLock, .capInput v, .hintExpire i, .measurementStale] → t = { s with power := t.power }) ∧
    (c ∈ [.todMessage b f, .holdoverTimeout] → t = { s with time := t.time }) ∧
    (c = .machineCheck (.mismatch q) → s.top.due = [] → t = { s with pm := t.pm }) ∧
    (c ∈ [.pauseExpire p pr, .respondReceive p, .sentPauseExpire p pr] → t = { s with ports := t.ports }) ∧
    (c = .heldBankHigh sl bank → t = { s with sorter := t.sorter }) ∧
    (c = .laneCalibration p rx tx → t = { s with lanes := t.lanes }) ∧
    (c = .pairTableClear → t = { s with reg := t.reg }) ∧
    (c = .cascadeLinkDown l → t = { s with casc := t.casc }) ∧
    (c ∈ [.scrub, .replicaReload sl word] → t = { s with cs := t.cs, sorter := t.sorter }) ∧
    (c = .probeTimeout tag → t = { s with reg := t.reg, frames := t.frames }) ∧
    (c = .rxCreditReturn sl n → t = { s with top := t.top, frames := t.frames }) ∧
    (c = .cacheCleaner idx → t = { s with out := t.out, reg := t.reg }) ∧
    (c ∈ [.cascadeResend l, .twinAdopt] → t = { s with out := t.out, casc := t.casc }) ∧
    (c = .mirrorInterval → s.casc.twin ≠ .partnerLost → t = { s with out := t.out, casc := t.casc }) ∧
    (c = .ppsOutput f → t = { s with out := t.out, time := t.time }) ∧
    (c ∈ [.xoffChange p pr f, .pfcRefresh p pr, .verifyTimer p, .preempt p k, .fecDegradeInterval p] →
      t = { s with out := t.out, qs := t.qs, dma := t.dma, stats := t.stats, ports := t.ports }) ∧
    (c ∈ [.dutyClip p pr, .dutyRelease p pr, .stormWatchdogRx p pr, .stormWatchdogTx p pr, .stormHoldExpire p pr f] →
      t = { s with out := t.out, qs := t.qs, dma := t.dma, stats := t.stats, ports := t.ports, casc := t.casc })
end

