-- ==== Sys2Proof/Laws/Tab.lean ====
section
/-! SUPPORT. The laws of the sparse table: what was put is read, every other entry stays, the canonical form stays; the queue
helpers over lists; byte order there and back. -/

namespace Sys2Proof

variable {α : Type}

/-- A put leaves every other entry as it was. -/
theorem Tab.get_put_ne [DecidableEq α] (d : α) (t : Tab α) (i j : Nat) (v : α) (h : j ≠ i) :
    Tab.get d (Tab.put d t i v) j = Tab.get d t j := by
  have h' : ¬ i = j := fun e => h e.symm
  induction t with
  | nil => simp only [Tab.put]; split <;> simp [Tab.get, h']
  | cons kv t ih =>
    obtain ⟨k, w⟩ := kv
    simp only [Tab.put]
    split
    · split <;> simp [Tab.get, h']
    · split
      · rename_i hk; subst hk; split <;> simp [Tab.get, h']
      · simp only [Tab.get, ih]

/-- A put of something that is no reset entry is read back, from any table. -/
theorem Tab.get_put_of_ne [DecidableEq α] (d : α) (t : Tab α) (i : Nat) (v : α) (h : v ≠ d) :
    Tab.get d (Tab.put d t i v) i = v := by
  induction t with
  | nil => simp [Tab.put, Tab.get, h]
  | cons kv t ih =>
    obtain ⟨k, w⟩ := kv
    simp only [Tab.put]
    split
    · simp [Tab.get]
    · split
      · simp [Tab.get]
      · rename_i hk; simp only [Tab.get, ih]; rw [if_neg fun e => hk e.symm]

/-- A table whose keys begin above `i` reads as reset at `i`. -/
theorem Tab.get_of_wfFrom [DecidableEq α] (d : α) (t : Tab α) (lo i : Nat) (h : Tab.wfFrom d lo t = true) (hi : i < lo) :
    Tab.get d t i = d := by
  induction t generalizing lo with
  | nil => rfl
  | cons kv t ih =>
    obtain ⟨k, w⟩ := kv
    simp only [Tab.wfFrom, Bool.and_eq_true, decide_eq_true_eq] at h
    rw [Tab.get, if_neg (by omega)]
    exact ih _ h.2 (by omega)

theorem Tab.get_put_wfFrom [DecidableEq α] (d : α) (t : Tab α) (lo i : Nat) (v : α) (h : Tab.wfFrom d lo t = true) :
    Tab.get d (Tab.put d t i v) i = v := by
  induction t generalizing lo with
  | nil => simp only [Tab.put]; split <;> simp [Tab.get, *]
  | cons kv t ih =>
    obtain ⟨k, w⟩ := kv
    simp only [Tab.wfFrom, Bool.and_eq_true, decide_eq_true_eq] at h
    simp only [Tab.put]
    split
    · rename_i hk
      split
      · rename_i hv
        rw [Tab.get, if_neg (by omega), hv]; exact Tab.get_of_wfFrom d t (k + 1) i h.2 (by omega)
      · simp [Tab.get]
    · split
      · rename_i hk; subst hk
        split
        · rename_i hv; rw [hv]; exact Tab.get_of_wfFrom d t (i + 1) i h.2 (by omega)
        · simp [Tab.get]
      · rename_i hk; rw [Tab.get, if_neg (fun e => hk e.symm)]; exact ih _ h.2

/-- What was put in a canonical table is read back. -/
theorem Tab.get_put [DecidableEq α] (d : α) (t : Tab α) (i : Nat) (v : α) (h : Tab.wf d t = true) :
    Tab.get d (Tab.put d t i v) i = v := Tab.get_put_wfFrom d t 0 i v h

theorem Tab.wfFrom_mono [DecidableEq α] (d : α) (t : Tab α) (lo lo' : Nat) (h : Tab.wfFrom d lo t = true) (hl : lo' ≤ lo) :
    Tab.wfFrom d lo' t = true := by
  cases t with
  | nil => rfl
  | cons kv t =>
    simp only [Tab.wfFrom, Bool.and_eq_true, decide_eq_true_eq] at h ⊢
    exact ⟨⟨by omega, h.1.2⟩, h.2⟩

theorem Tab.wfFrom_put [DecidableEq α] (d : α) (t : Tab α) (lo i : Nat) (v : α) (h : Tab.wfFrom d lo t = true) (hi : lo ≤ i) :
    Tab.wfFrom d lo (Tab.put d t i v) = true := by
  induction t generalizing lo with
  | nil => simp only [Tab.put]; split <;> simp [Tab.wfFrom, *]
  | cons kv t ih =>
    obtain ⟨k, w⟩ := kv
    have h0 := h
    simp only [Tab.wfFrom, Bool.and_eq_true, decide_eq_true_eq] at h
    simp only [Tab.put]
    split
    · rename_i hk
      split
      · exact h0
      · rename_i hv
        simp only [Tab.wfFrom, Bool.and_eq_true, decide_eq_true_eq]
        exact ⟨⟨hi, hv⟩, ⟨by omega, h.1.2⟩, h.2⟩
    · split
      · rename_i hk; subst hk
        split
        · exact Tab.wfFrom_mono d t _ lo h.2 (by omega)
        · rename_i hv; simp only [Tab.wfFrom, Bool.and_eq_true, decide_eq_true_eq]; exact ⟨⟨hi, hv⟩, h.2⟩
      · rename_i h1 h2
        simp only [Tab.wfFrom, Bool.and_eq_true, decide_eq_true_eq]
        exact ⟨⟨h.1.1, h.1.2⟩, ih _ h.2 (by omega)⟩

/-- A put keeps the canonical form. -/
theorem Tab.wf_put [DecidableEq α] (d : α) (t : Tab α) (i : Nat) (v : α) (h : Tab.wf d t = true) :
    Tab.wf d (Tab.put d t i v) = true := Tab.wfFrom_put d t 0 i v h (Nat.zero_le _)

/-- What the first element that meets `p` is replaced by is found, where the image still meets `p`. -/
theorem find?_updFirst (p : α → Bool) (f : α → α) (l : List α) (hf : ∀ x, p x = true → p (f x) = true) :
    (updFirst p f l).find? p = (l.find? p).map f := by
  induction l with
  | nil => rfl
  | cons x l ih =>
    by_cases hx : p x = true
    · simp [updFirst, hx, hf x hx]
    · simp [updFirst, hx, ih]

theorem length_updFirst (p : α → Bool) (f : α → α) (l : List α) : (updFirst p f l).length = l.length := by
  induction l with
  | nil => rfl
  | cons x l ih => simp only [updFirst]; split <;> simp [ih]

theorem leBytes_length (n x : Nat) : (leBytes n x).length = n := by simp [leBytes]

theorem leBytes_succ (n x : Nat) : leBytes (n + 1) x = BitVec.ofNat 8 x :: leBytes n (x / 256) := by
  simp only [leBytes, List.range_succ_eq_map, List.map_cons, List.map_map]
  congr 1
  apply List.map_congr_left
  intro i _
  have h : 2 ^ (8 * (i + 1)) = 256 * 2 ^ (8 * i) := by rw [mul_add, pow_add]; ring
  simp only [Function.comp, Nat.succ_eq_add_one, Nat.shiftRight_eq_div_pow, Nat.div_div_eq_div_mul, h]

/-- R8: little-endian bytes are read as they were written. -/
theorem leNat_leBytes (n x : Nat) : leNat (leBytes n x) = x % 256 ^ n := by
  induction n generalizing x with
  | zero => simp [leBytes, leNat, Nat.mod_one]
  | succ n ih =>
    rw [leBytes_succ, leNat, ih, pow_succ', Nat.mod_mul]
    simp

end Sys2Proof
end

