-- ==== Sys2Proof/Laws/KeptShared.lean ====
section
/-! SUPPORT. Frames of the shared operations: none of them touches the queue of commands, and none but
GUARDSET, GUARDLOCK, a cold reset and AON power-up touches the guard settings and their lock (R148). One lemma per function. -/

namespace Sys2Proof
namespace Machine

/-- The state a run of a routine's step leaves. -/
def Ran.state : Ran → State
  | .done _ _ _ s => s
  | .more _ s => s
  | .wait _ s => s
  | .release _ s => s
/-- The state a host read leaves. -/
def Fetched.state : Fetched → State
  | .data _ s => s
  | .wait s => s
  | .failed _ s => s
theorem GuardsStay.refl (s : State) : GuardsStay s s := ⟨rfl, fun _ => rfl, id⟩

/-- What keeps the commands and the guards keeps what `GuardsStay` says. -/
theorem GuardsStay.of_kept {s t : State} (h : t.pending = s.pending ∧ t.guards = s.guards) : GuardsStay s t :=
  ⟨h.1, fun _ => h.2, fun hw => by rw [h.2]; exact hw⟩

theorem GuardsStay.trans {s t u : State} (h : GuardsStay s t) (h' : GuardsStay t u) : GuardsStay s u := by
  unfold GuardsStay at *; grind

theorem State.forEach_kept {α : Type} (s : State) (l : List α) (f : State → α → State)
    (h : ∀ s a, (f s a).pending = s.pending ∧ (f s a).guards = s.guards) :
    (s.forEach l f).pending = s.pending ∧ (s.forEach l f).guards = s.guards := by
  unfold State.forEach
  induction l generalizing s with
  | nil => exact ⟨rfl, rfl⟩
  | cons a l ih => simp only [List.foldl_cons]; exact ⟨(ih _).1.trans (h s a).1, (ih _).2.trans (h s a).2⟩
theorem foldl_kept {α : Type} (l : List α) (f : State → α → State)
    (h : ∀ s a, (f s a).pending = s.pending ∧ (f s a).guards = s.guards) (s : State) :
    (l.foldl f s).pending = s.pending ∧ (l.foldl f s).guards = s.guards := State.forEach_kept s l f h
theorem kept_trans {s t u : State} (h : t.pending = s.pending ∧ t.guards = s.guards) (h' : u.pending = t.pending ∧ u.guards = t.guards) :
    u.pending = s.pending ∧ u.guards = s.guards := ⟨h'.1.trans h.1, h'.2.trans h.2⟩
theorem kept_ite {c : Prop} [Decidable c] {a b s : State} (ha : a.pending = s.pending ∧ a.guards = s.guards)
    (hb : b.pending = s.pending ∧ b.guards = s.guards) :
    (if c then a else b).pending = s.pending ∧ (if c then a else b).guards = s.guards := by split <;> assumption
/-! ### Tab -/

/-! ### Flags -/

/-! ### Ops -/

theorem State.setPort_kept (s : State) (p : ℕ) (v : Port) :
    (State.setPort s p v).pending = s.pending ∧ (State.setPort s p v).guards = s.guards := ⟨rfl, rfl⟩

theorem State.setLane_kept (s : State) (l : ℕ) (v : Lane) :
    (State.setLane s l v).pending = s.pending ∧ (State.setLane s l v).guards = s.guards := ⟨rfl, rfl⟩

theorem State.setQueueOpt_kept (s : State) (q : ℕ) (v : Option Queue) :
    (State.setQueueOpt s q v).pending = s.pending ∧ (State.setQueueOpt s q v).guards = s.guards := ⟨rfl, rfl⟩

theorem State.setQueue_kept (s : State) (q : ℕ) (v : Queue) :
    (State.setQueue s q v).pending = s.pending ∧ (State.setQueue s q v).guards = s.guards := ⟨rfl, rfl⟩

theorem State.setDoorbell_kept (s : State) (q : ℕ) (v : RIdx) :
    (State.setDoorbell s q v).pending = s.pending ∧ (State.setDoorbell s q v).guards = s.guards := ⟨rfl, rfl⟩

theorem State.setVector_kept (s : State) (v : ℕ) (x : Vector97) :
    (State.setVector s v x).pending = s.pending ∧ (State.setVector s v x).guards = s.guards := ⟨rfl, rfl⟩

theorem State.setChan_kept (s : State) (c : ℕ) (v : Chan) :
    (State.setChan s c v).pending = s.pending ∧ (State.setChan s c v).guards = s.guards := ⟨rfl, rfl⟩

theorem State.setSliceL_kept (s : State) (k : ℕ) (v : SliceL) :
    (State.setSliceL s k v).pending = s.pending ∧ (State.setSliceL s k v).guards = s.guards := ⟨rfl, rfl⟩

theorem State.setSliceP_kept (s : State) (n : ℕ) (v : SliceP) :
    (State.setSliceP s n v).pending = s.pending ∧ (State.setSliceP s n v).guards = s.guards := ⟨rfl, rfl⟩

theorem State.setSecPort_kept (s : State) (p : ℕ) (v : SecPort) :
    (State.setSecPort s p v).pending = s.pending ∧ (State.setSecPort s p v).guards = s.guards := ⟨rfl, rfl⟩

theorem State.setKeySlot_kept (s : State) (n : ℕ) (v : KeySlot) :
    (State.setKeySlot s n v).pending = s.pending ∧ (State.setKeySlot s n v).guards = s.guards := ⟨rfl, rfl⟩

/-- Setting a port's guards with the lock clear. -/
theorem State.setGuardPort_stays (s : State) (p : Nat) (v : GuardPort) (h : s.guards.locked = false) : GuardsStay s (s.setGuardPort p v) :=
  ⟨rfl, fun hl => by simp [h] at hl, fun hw => Tab.wf_put _ _ _ _ hw⟩

theorem State.setDom_kept (s : State) (d : ℕ) (v : Domain) :
    (State.setDom s d v).pending = s.pending ∧ (State.setDom s d v).guards = s.guards := ⟨rfl, rfl⟩

theorem State.setVotes_kept (s : State) (c : ℕ) (v : BitVec 25) :
    (State.setVotes s c v).pending = s.pending ∧ (State.setVotes s c v).guards = s.guards := ⟨rfl, rfl⟩

theorem State.emit_kept (s : State) (o : Out) :
    (State.emit s o).pending = s.pending ∧ (State.emit s o).guards = s.guards := ⟨rfl, rfl⟩

theorem State.setJournal_kept (s : State) (j : List JEntry) :
    (State.setJournal s j).pending = s.pending ∧ (State.setJournal s j).guards = s.guards := ⟨rfl, rfl⟩

theorem State.setInj_kept (s : State) (l : List Inj) :
    (State.setInj s l).pending = s.pending ∧ (State.setInj s l).guards = s.guards := ⟨rfl, rfl⟩

theorem State.takeId_kept (s : State) :
    (State.takeId s).2.pending = s.pending ∧ (State.takeId s).2.guards = s.guards := ⟨rfl, rfl⟩

theorem State.takeFree_kept (w : ℕ) (s : State) :
    (State.takeFree w s).2.pending = s.pending ∧ (State.takeFree w s).2.guards = s.guards := ⟨rfl, rfl⟩

theorem State.sendReq_kept (s : State) (r : Req) :
    (State.sendReq s r).pending = s.pending ∧ (State.sendReq s r).guards = s.guards := by
  grind [State.sendReq, State.emit_kept, foldl_kept]

theorem State.internalRuns_kept (s : State) (w : ℕ) :
    (State.internalRuns s w).pending = s.pending ∧ (State.internalRuns s w).guards = s.guards := by
  grind [State.internalRuns, State.setChan_kept, State.takeFree_kept, foldl_kept]

theorem State.internalEnds_kept (s : State) :
    (State.internalEnds s).pending = s.pending ∧ (State.internalEnds s).guards = s.guards := by
  grind [State.internalEnds, State.setChan_kept, foldl_kept]

theorem State.worksOn_kept (s : State) (chan : Option ℕ) :
    (State.worksOn s chan).pending = s.pending ∧ (State.worksOn s chan).guards = s.guards := by
  unfold State.worksOn; (repeat' split) <;> grind [State.internalRuns_kept, foldl_kept]

theorem State.queueWrite_kept (s : State) (addr : HostAddr) (data : List Byte) (relaxed : Bool) (o : Owner) (chan : Option ℕ) :
    (State.queueWrite s addr data relaxed o chan).pending = s.pending ∧ (State.queueWrite s addr data relaxed o chan).guards = s.guards := by
  simp [State.queueWrite, State.sendReq_kept, State.worksOn_kept, foldl_kept]

theorem State.queueRead_kept (s : State) (addr : HostAddr) (len : ℕ) (o : Owner) :
    (State.queueRead s addr len o).pending = s.pending ∧ (State.queueRead s addr len o).guards = s.guards := by
  simp [State.queueRead, State.sendReq_kept]

theorem State.routineRead_kept (s : State) (jid : ℕ) (base : HostAddr) (n : ℕ) (chan : Option ℕ) :
    (State.routineRead s jid base n chan).pending = s.pending ∧ (State.routineRead s jid base n chan).guards = s.guards := by
  simp [State.routineRead, State.sendReq_kept, State.worksOn_kept, foldl_kept]

theorem State.orphan_kept (s : State) (c : ℕ) :
    (State.orphan s c).pending = s.pending ∧ (State.orphan s c).guards = s.guards := ⟨rfl, rfl⟩

theorem State.setLinkSt_kept (s : State) (l : Link) (x : LinkSt) :
    (State.setLinkSt s l x).pending = s.pending ∧ (State.setLinkSt s l x).guards = s.guards := by
  unfold State.setLinkSt; (repeat' split) <;> grind [foldl_kept]

theorem State.sendOn_kept (s : State) (l : Link) (p : Payload) (source : BitVec 3) (dest : Byte) :
    (State.sendOn s l p source dest).pending = s.pending ∧ (State.sendOn s l p source dest).guards = s.guards := by
  simp [State.sendOn, State.setLinkSt_kept, State.emit_kept]

theorem State.sendFlit_kept (s : State) (p : Payload) (dest : Byte) :
    (State.sendFlit s p dest).pending = s.pending ∧ (State.sendFlit s p dest).guards = s.guards := by
  grind [State.sendFlit, State.sendOn_kept, foldl_kept]

theorem State.toTwin_kept (s : State) (p : Payload) :
    (State.toTwin s p).pending = s.pending ∧ (State.toTwin s p).guards = s.guards := by
  grind [State.toTwin, State.sendFlit_kept, foldl_kept]

theorem State.mirrorQueue_kept (s : State) (q : ℕ) :
    (State.mirrorQueue s q).pending = s.pending ∧ (State.mirrorQueue s q).guards = s.guards := by
  simp [State.mirrorQueue, State.toTwin_kept]

theorem State.mirrorEntry_kept (s : State) (e : JEntry) (gone : Bool) :
    (State.mirrorEntry s e gone).pending = s.pending ∧ (State.mirrorEntry s e gone).guards = s.guards := by
  grind [State.mirrorEntry, State.toTwin_kept, foldl_kept]

theorem State.mirrorInj_kept (s : State) (e : Inj) (gone : Bool) :
    (State.mirrorInj s e gone).pending = s.pending ∧ (State.mirrorInj s e gone).guards = s.guards := by
  simp [State.mirrorInj, State.toTwin_kept]

theorem State.sendMessage_kept (s : State) (v : ℕ) :
    (State.sendMessage s v).pending = s.pending ∧ (State.sendMessage s v).guards = s.guards := by
  grind [State.sendMessage, State.queueWrite_kept, State.setVector_kept, foldl_kept]

theorem State.signalled_kept (s : State) (v : ℕ) :
    (State.signalled s v).pending = s.pending ∧ (State.signalled s v).guards = s.guards := ⟨rfl, rfl⟩

theorem State.fireVector_kept (s : State) (v : ℕ) :
    (State.fireVector s v).pending = s.pending ∧ (State.fireVector s v).guards = s.guards := by
  grind [State.fireVector, State.sendMessage_kept, State.signalled_kept, State.setVector_kept, foldl_kept]

theorem State.sendWaiting_kept (s : State) :
    (State.sendWaiting s).pending = s.pending ∧ (State.sendWaiting s).guards = s.guards := by
  grind [State.sendWaiting, State.sendMessage_kept, State.setVector_kept, foldl_kept]

theorem State.beginBackground_kept (s : State) (queue : BitVec 16) (kind : BitVec 2) (unit : ℕ) :
    (State.beginBackground s queue kind unit).pending = s.pending ∧ (State.beginBackground s queue kind unit).guards = s.guards := ⟨rfl, rfl⟩

theorem State.endBackground_kept (s : State) (kind : BitVec 2) (unit : ℕ) :
    (State.endBackground s kind unit).pending = s.pending ∧ (State.endBackground s kind unit).guards = s.guards := ⟨rfl, rfl⟩

theorem State.queueFault_kept (s : State) (reason : BitVec 4) (q : BitVec 12) :
    (State.queueFault s reason q).pending = s.pending ∧ (State.queueFault s reason q).guards = s.guards := ⟨rfl, rfl⟩

theorem State.moderate_kept (s : State) (q : ℕ) (fire : Bool) :
    (State.moderate s q fire).pending = s.pending ∧ (State.moderate s q fire).guards = s.guards := by
  grind [State.moderate, State.setQueue_kept, State.fireVector_kept, foldl_kept]

theorem State.writeEntry_kept (s : State) (q : ℕ) (e : RingEntry) :
    (State.writeEntry s q e).pending = s.pending ∧ (State.writeEntry s q e).guards = s.guards := by
  grind [State.writeEntry, State.setQueue_kept, State.queueWrite_kept, State.mirrorQueue_kept, foldl_kept]

theorem State.publishEntry_kept (s : State) (q : ℕ) (i : RIdx) (fire : Bool) :
    (State.publishEntry s q i fire).pending = s.pending ∧ (State.publishEntry s q i fire).guards = s.guards := by
  grind [State.publishEntry, State.setQueue_kept, State.queueWrite_kept, State.moderate_kept, foldl_kept]

theorem State.publishReady_kept (q : BitVec 12) (x2 : List (RIdx × RingEntry)) (x3 : State) :
    (State.publishReady q x2 x3).pending = x3.pending ∧ (State.publishReady q x2 x3).guards = x3.guards := by
  fun_induction State.publishReady q x2 x3 <;> grind [State.publishEntry_kept, foldl_kept]

theorem State.putEntry_kept (s : State) (q : ℕ) (e : RingEntry) :
    (State.putEntry s q e).pending = s.pending ∧ (State.putEntry s q e).guards = s.guards := by
  grind [State.putEntry, State.setQueue_kept, State.writeEntry_kept, foldl_kept]

theorem State.reserveRecord_kept (s : State) (q : ℕ) :
    (State.reserveRecord s q).pending = s.pending ∧ (State.reserveRecord s q).guards = s.guards := by
  grind [State.reserveRecord, State.setQueue_kept, foldl_kept]

theorem State.genReserved_kept (s : State) (q : ℕ) (type : ℕ) (who : BitVec 3) (gen : BitVec 16) (body : List Byte) (chan : Option ℕ) :
    (State.genReserved s q type who gen body chan).pending = s.pending ∧ (State.genReserved s q type who gen body chan).guards = s.guards := by
  grind [State.genReserved, State.setQueue_kept, State.putEntry_kept, foldl_kept]

theorem State.genRecord_kept (s : State) (q : ℕ) (type : ℕ) (gen : BitVec 16) (body : List Byte) (chan : Option ℕ) :
    (State.genRecord s q type gen body chan).pending = s.pending ∧ (State.genRecord s q type gen body chan).guards = s.guards := by
  simp [State.genRecord, State.genReserved_kept, State.reserveRecord_kept]

theorem State.crossed_kept (s : State) (p : ℕ) :
    (State.crossed s p).pending = s.pending ∧ (State.crossed s p).guards = s.guards := by
  grind [State.crossed, State.fireVector_kept, foldl_kept]

theorem State.crossedSlice_kept (s : State) (k : ℕ) :
    (State.crossedSlice s k).pending = s.pending ∧ (State.crossedSlice s k).guards = s.guards := by
  grind [State.crossedSlice, State.fireVector_kept, foldl_kept]

theorem State.countCompat_kept (s : State) (p : ℕ) (n : ℕ) (k : ℕ) :
    (State.countCompat s p n k).pending = s.pending ∧ (State.countCompat s p n k).guards = s.guards := ⟨rfl, rfl⟩

theorem State.count_kept (s : State) (p : ℕ) (w : ℕ) (k : ℕ) :
    (State.count s p w k).pending = s.pending ∧ (State.count s p w k).guards = s.guards := by
  grind [State.count, State.countCompat_kept, State.crossed_kept, foldl_kept]

theorem State.event_kept (s : State) (p : ℕ) (w : ℕ) :
    (State.event s p w).pending = s.pending ∧ (State.event s p w).guards = s.guards := by
  simp [State.event, State.count_kept]

theorem State.eventSlice_kept (s : State) (k : ℕ) (w : ℕ) :
    (State.eventSlice s k w).pending = s.pending ∧ (State.eventSlice s k w).guards = s.guards := by
  grind [State.eventSlice, State.crossedSlice_kept, foldl_kept]

theorem State.countSec_kept (s : State) (p : ℕ) (w : ℕ) (k : ℕ) :
    (State.countSec s p w k).pending = s.pending ∧ (State.countSec s p w k).guards = s.guards := by
  grind [State.countSec, State.crossed_kept, foldl_kept]

theorem State.logAccess_kept (s : State) (kind : BitVec 3) (addr : BitVec 34) :
    (State.logAccess s kind addr).pending = s.pending ∧ (State.logAccess s kind addr).guards = s.guards := ⟨rfl, rfl⟩

theorem State.logAsleep_kept (s : State) (write : Bool) (addr : Word) :
    (State.logAsleep s write addr).pending = s.pending ∧ (State.logAsleep s write addr).guards = s.guards := ⟨rfl, rfl⟩

theorem State.enterMode_kept (s : State) (m : Mode) (cause : Byte) :
    (State.enterMode s m cause).pending = s.pending ∧ (State.enterMode s m cause).guards = s.guards := ⟨rfl, rfl⟩

/-! ### Servo -/

theorem State.acceptOffset_kept (s : State) (theta : ℤ) :
    (State.acceptOffset s theta).pending = s.pending ∧ (State.acceptOffset s theta).guards = s.guards := ⟨rfl, rfl⟩

theorem State.stepTo_kept (s : State) (t : ℕ) :
    (State.stepTo s t).pending = s.pending ∧ (State.stepTo s t).guards = s.guards := ⟨rfl, rfl⟩

theorem State.freshTau_kept (s : State) :
    (State.freshTau s).pending = s.pending ∧ (State.freshTau s).guards = s.guards := ⟨rfl, rfl⟩

theorem State.tick_kept (s : State) :
    (State.tick s).pending = s.pending ∧ (State.tick s).guards = s.guards := by
  grind [State.tick, foldl_kept]

theorem State.noteRegime_kept (s : State) :
    (State.noteRegime s).pending = s.pending ∧ (State.noteRegime s).guards = s.guards := by
  grind [State.noteRegime, foldl_kept]

/-! ### Records -/

theorem State.recount_kept (s : State) (old : PairEntry) (new : PairEntry) :
    (State.recount s old new).pending = s.pending ∧ (State.recount s old new).guards = s.guards := by
  grind [State.recount, foldl_kept]

theorem State.ledgerPut_kept (s : State) (i : ℕ) (e : PairEntry) :
    (State.ledgerPut s i e).pending = s.pending ∧ (State.ledgerPut s i e).guards = s.guards := ⟨rfl, rfl⟩

theorem State.setPairEntry_kept (s : State) (i : ℕ) (e : PairEntry) :
    (State.setPairEntry s i e).pending = s.pending ∧ (State.setPairEntry s i e).guards = s.guards := by
  grind [State.setPairEntry, State.ledgerPut_kept, State.recount_kept, State.takeId_kept, foldl_kept]

theorem State.writeBack_kept (s : State) (i : ℕ) :
    (State.writeBack s i).pending = s.pending ∧ (State.writeBack s i).guards = s.guards := by
  grind [State.writeBack, State.ledgerPut_kept, foldl_kept]

theorem State.flushGaps_kept (x1 : ℕ) (x2 : State) :
    (State.flushGaps x1 x2).pending = x2.pending ∧ (State.flushGaps x1 x2).guards = x2.guards := by
  fun_induction State.flushGaps x1 x2 <;> grind [State.genRecord_kept, foldl_kept]

theorem State.emitGap_kept (s : State) (g : Gap) :
    (State.emitGap s g).pending = s.pending ∧ (State.emitGap s g).guards = s.guards := by
  simp [State.emitGap, State.flushGaps_kept]

theorem State.flushEvents_kept (x1 : ℕ) (x2 : ℕ) (x3 : State) :
    (State.flushEvents x1 x2 x3).pending = x3.pending ∧ (State.flushEvents x1 x2 x3).guards = x3.guards := by
  fun_induction State.flushEvents x1 x2 x3 <;> grind [State.setPort_kept, State.genRecord_kept, foldl_kept]

theorem State.flushAllEvents_kept (s : State) :
    (State.flushAllEvents s).pending = s.pending ∧ (State.flushAllEvents s).guards = s.guards := by
  grind [State.flushAllEvents, State.flushEvents_kept, State.forEach_kept]

theorem State.guardEvent_kept (s : State) (p : ℕ) (guard : Byte) (prio : Byte) (action : Byte) (count : ℕ) :
    (State.guardEvent s p guard prio action count).pending = s.pending ∧ (State.guardEvent s p guard prio action count).guards = s.guards := by
  grind [State.guardEvent, State.setPort_kept, State.flushEvents_kept, foldl_kept]

theorem State.flushPnFuel_kept (x1 : ℕ) (x2 : State) :
    (State.flushPnFuel x1 x2).pending = x2.pending ∧ (State.flushPnFuel x1 x2).guards = x2.guards := by
  fun_induction State.flushPnFuel x1 x2 <;> grind [State.genRecord_kept, foldl_kept]

theorem State.flushPn_kept (s : State) :
    (State.flushPn s).pending = s.pending ∧ (State.flushPn s).guards = s.guards := by
  simp [State.flushPn, State.flushPnFuel_kept]

theorem State.pnRecord_kept (s : State) (n : ℕ) (action : Byte) (pn : ℕ) :
    (State.pnRecord s n action pn).pending = s.pending ∧ (State.pnRecord s n action pn).guards = s.guards := by
  grind [State.pnRecord, State.flushPn_kept, foldl_kept]

/-! ### Tables -/

theorem State.fillReplica_kept (s : State) (k : ℕ) :
    (State.fillReplica s k).pending = s.pending ∧ (State.fillReplica s k).guards = s.guards := ⟨rfl, rfl⟩

theorem State.refreshReplicas_kept (s : State) :
    (State.refreshReplicas s).pending = s.pending ∧ (State.refreshReplicas s).guards = s.guards := by
  simp [State.refreshReplicas, State.fillReplica_kept, State.forEach_kept]

/-! ### Params -/

theorem State.setTop_kept (s : State) (u : Unit00) :
    (State.setTop s u).pending = s.pending ∧ (State.setTop s u).guards = s.guards := ⟨rfl, rfl⟩

theorem State.setPm_kept (s : State) (p : Pm) :
    (State.setPm s p).pending = s.pending ∧ (State.setPm s p).guards = s.guards := ⟨rfl, rfl⟩

theorem State.setCs_kept (s : State) (c : Cs) :
    (State.setCs s c).pending = s.pending ∧ (State.setCs s c).guards = s.guards := ⟨rfl, rfl⟩

theorem State.setQs_kept (s : State) (q : Queues) :
    (State.setQs s q).pending = s.pending ∧ (State.setQs s q).guards = s.guards := ⟨rfl, rfl⟩

theorem State.setDma_kept (s : State) (d : Dma) :
    (State.setDma s d).pending = s.pending ∧ (State.setDma s d).guards = s.guards := ⟨rfl, rfl⟩

theorem clearChan_kept (c : ℕ) (v : DWord) (s : State) :
    (clearChan c v s).pending = s.pending ∧ (clearChan c v s).guards = s.guards := ⟨rfl, rfl⟩

theorem State.setReg_kept (s : State) (r : Registry) :
    (State.setReg s r).pending = s.pending ∧ (State.setReg s r).guards = s.guards := ⟨rfl, rfl⟩

theorem State.setStats_kept (s : State) (x : Stats) :
    (State.setStats s x).pending = s.pending ∧ (State.setStats s x).guards = s.guards := ⟨rfl, rfl⟩

theorem State.setTimeUnit_kept (s : State) (t : Time) :
    (State.setTimeUnit s t).pending = s.pending ∧ (State.setTimeUnit s t).guards = s.guards := ⟨rfl, rfl⟩

theorem State.ppsLow_kept (s : State) :
    (State.ppsLow s).pending = s.pending ∧ (State.ppsLow s).guards = s.guards := by
  grind [State.ppsLow, State.setTimeUnit_kept, State.emit_kept, foldl_kept]

theorem State.releaseScl_kept (s : State) :
    (State.releaseScl s).pending = s.pending ∧ (State.releaseScl s).guards = s.guards := by
  grind [State.releaseScl, State.emit_kept, foldl_kept]

theorem State.ppsSettle_kept (s : State) :
    (State.ppsSettle s).pending = s.pending ∧ (State.ppsSettle s).guards = s.guards := by
  grind [State.ppsSettle, State.ppsLow_kept, foldl_kept]

theorem setServoCfg_kept (v : Word) (s : State) :
    (setServoCfg v s).pending = s.pending ∧ (setServoCfg v s).guards = s.guards := ⟨rfl, rfl⟩

theorem setPps_kept (v : Word) (s : State) :
    (setPps v s).pending = s.pending ∧ (setPps v s).guards = s.guards := by
  grind [setPps, State.setTimeUnit_kept, State.ppsSettle_kept, foldl_kept]

theorem State.setSec_kept (s : State) (x : Sec) :
    (State.setSec s x).pending = s.pending ∧ (State.setSec s x).guards = s.guards := ⟨rfl, rfl⟩

theorem State.setPower_kept (s : State) (p : Power) :
    (State.setPower s p).pending = s.pending ∧ (State.setPower s p).guards = s.guards := ⟨rfl, rfl⟩

theorem State.setCasc_kept (s : State) (c : Casc) :
    (State.setCasc s c).pending = s.pending ∧ (State.setCasc s c).guards = s.guards := ⟨rfl, rfl⟩

theorem setFc_kept (p : ℕ) (v : Word) (s : State) :
    (setFc p v s).pending = s.pending ∧ (setFc p v s).guards = s.guards := ⟨rfl, rfl⟩

theorem clearSliceFault_kept (n : ℕ) (v : DWord) (s : State) :
    (clearSliceFault n v s).pending = s.pending ∧ (clearSliceFault n v s).guards = s.guards := by
  grind [clearSliceFault, State.setSliceP_kept, foldl_kept]

/-- Nothing of a parameter's description changes the queue of commands or the guard settings. -/
def PDesc.Keeps (d : PDesc) : Prop :=
  (∀ v s, (d.write v s).pending = s.pending ∧ (d.write v s).guards = s.guards) ∧
  (∀ v s, (d.clear v s).pending = s.pending ∧ (d.clear v s).guards = s.guards) ∧
  (∀ s, (d.onRead s).pending = s.pending ∧ (d.onRead s).guards = s.guards) ∧
  ∀ s, (d.onDirect s).pending = s.pending ∧ (d.onDirect s).guards = s.guards

/-- A word that is mapped has such a description. -/
def KeepsAll : Option PDesc → Prop
  | none => True
  | some d => d.Keeps

theorem keepsAll_ite {c : Prop} [Decidable c] {a b : Option PDesc} (ha : KeepsAll a) (hb : KeepsAll b) :
    KeepsAll (if c then a else b) := by split <;> assumption

theorem describe00_keeps (s : State) (w : Nat) : KeepsAll (describe00 s w) := by
  unfold describe00
  repeat' first
    | with_reducible refine keepsAll_ite ?_ ?_
    | exact ⟨fun _ _ => ⟨rfl, rfl⟩, fun _ _ => ⟨rfl, rfl⟩, fun _ => ⟨rfl, rfl⟩, fun _ => ⟨rfl, rfl⟩⟩
    | exact trivial

theorem describe01_keeps (s : State) (w : Nat) : KeepsAll (describe01 s w) := by
  unfold describe01
  repeat' first
    | with_reducible refine keepsAll_ite ?_ ?_
    | exact ⟨fun _ _ => ⟨rfl, rfl⟩, fun _ _ => ⟨rfl, rfl⟩, fun _ => ⟨rfl, rfl⟩, fun _ => ⟨rfl, rfl⟩⟩
    | exact trivial

theorem describe02_keeps (s : State) (w : Nat) : KeepsAll (describe02 s w) := by
  unfold describe02
  repeat' first
    | with_reducible refine keepsAll_ite ?_ ?_
    | exact ⟨fun _ _ => ⟨rfl, rfl⟩, fun _ _ => ⟨rfl, rfl⟩, fun _ => ⟨rfl, rfl⟩, fun _ => ⟨rfl, rfl⟩⟩
    | exact trivial

theorem describe03_keeps (s : State) (w : Nat) : KeepsAll (describe03 s w) := by
  unfold describe03
  repeat' first
    | with_reducible refine keepsAll_ite ?_ ?_
    | exact ⟨fun _ _ => ⟨rfl, rfl⟩, fun _ _ => ⟨rfl, rfl⟩, fun _ => ⟨rfl, rfl⟩, fun _ => ⟨rfl, rfl⟩⟩
    | exact trivial

theorem describe04_keeps (s : State) (w : Nat) : KeepsAll (describe04 s w) := by
  unfold describe04
  repeat' first
    | with_reducible refine keepsAll_ite ?_ ?_
    | exact ⟨fun _ _ => ⟨rfl, rfl⟩, fun _ _ => ⟨rfl, rfl⟩, fun _ => ⟨rfl, rfl⟩, fun _ => ⟨rfl, rfl⟩⟩
    | exact trivial

theorem describe05_keeps (s : State) (w : Nat) : KeepsAll (describe05 s w) := by
  unfold describe05
  repeat' first
    | with_reducible refine keepsAll_ite ?_ ?_
    | exact ⟨fun _ _ => ⟨rfl, rfl⟩, fun _ _ => ⟨rfl, rfl⟩, fun _ => ⟨rfl, rfl⟩, fun _ => ⟨rfl, rfl⟩⟩
    | exact ⟨fun _ s => State.flushGaps_kept _ _, fun _ _ => ⟨rfl, rfl⟩, fun _ => ⟨rfl, rfl⟩, fun _ => ⟨rfl, rfl⟩⟩
    | exact trivial

theorem describe06_keeps (s : State) (w : Nat) : KeepsAll (describe06 s w) := by
  unfold describe06
  repeat' first
    | with_reducible refine keepsAll_ite ?_ ?_
    | exact ⟨fun _ _ => ⟨rfl, rfl⟩, fun _ _ => ⟨rfl, rfl⟩, fun _ => ⟨rfl, rfl⟩, fun _ => ⟨rfl, rfl⟩⟩
    | exact ⟨fun _ s => setPps_kept _ s, fun _ _ => ⟨rfl, rfl⟩, fun _ => ⟨rfl, rfl⟩, fun _ => ⟨rfl, rfl⟩⟩
    | exact trivial

theorem describeSecPort_keeps (s : State) (p o : Nat) : KeepsAll (describeSecPort s p o) := by
  unfold describeSecPort
  repeat' first
    | with_reducible refine keepsAll_ite ?_ ?_
    | exact ⟨fun _ _ => ⟨rfl, rfl⟩, fun _ _ => ⟨rfl, rfl⟩, fun _ => ⟨rfl, rfl⟩, fun _ => ⟨rfl, rfl⟩⟩
    | exact trivial

theorem describe07_keeps (s : State) (w : Nat) : KeepsAll (describe07 s w) := by
  unfold describe07
  repeat' first
    | with_reducible refine keepsAll_ite ?_ ?_
    | with_reducible exact describeSecPort_keeps _ _ _
    | exact ⟨fun _ _ => ⟨rfl, rfl⟩, fun _ _ => ⟨rfl, rfl⟩, fun _ => ⟨rfl, rfl⟩, fun _ => ⟨rfl, rfl⟩⟩
    | exact ⟨fun _ _ => State.flushAllEvents_kept _, fun _ _ => ⟨rfl, rfl⟩, fun _ => ⟨rfl, rfl⟩, fun _ => ⟨rfl, rfl⟩⟩
    | exact ⟨fun _ _ => State.flushPn_kept _, fun _ _ => ⟨rfl, rfl⟩, fun _ => ⟨rfl, rfl⟩, fun _ => ⟨rfl, rfl⟩⟩
    | exact trivial

theorem describe08_keeps (s : State) (w : Nat) : KeepsAll (describe08 s w) := by
  unfold describe08
  repeat' first
    | with_reducible refine keepsAll_ite ?_ ?_
    | exact ⟨fun _ _ => ⟨rfl, rfl⟩, fun _ _ => ⟨rfl, rfl⟩, fun _ => ⟨rfl, rfl⟩, fun _ => ⟨rfl, rfl⟩⟩
    | exact trivial

theorem describe09_keeps (s : State) (w : Nat) : KeepsAll (describe09 s w) := by
  unfold describe09
  repeat' first
    | with_reducible refine keepsAll_ite ?_ ?_
    | exact ⟨fun _ _ => ⟨rfl, rfl⟩, fun _ _ => ⟨rfl, rfl⟩, fun _ => ⟨rfl, rfl⟩, fun _ => ⟨rfl, rfl⟩⟩
    | exact trivial

theorem describePort_keeps (b p t o : Nat) (s : State) : KeepsAll (describePort b p t o s) := by
  unfold describePort
  repeat' first
    | with_reducible refine keepsAll_ite ?_ ?_
    | exact ⟨fun _ _ => ⟨rfl, rfl⟩, fun _ _ => ⟨rfl, rfl⟩, fun _ => ⟨rfl, rfl⟩, fun _ => ⟨rfl, rfl⟩⟩
    | exact trivial

theorem describeRegion_keeps (s : State) (n k w : Nat) (v : State) : KeepsAll (describeRegion s n k w v) := by
  unfold describeRegion
  repeat' first
    | with_reducible refine keepsAll_ite ?_ ?_
    | with_reducible exact describePort_keeps _ _ _ _ _
    | exact ⟨fun _ _ => ⟨rfl, rfl⟩, fun _ _ => ⟨rfl, rfl⟩, fun _ => ⟨rfl, rfl⟩, fun _ => ⟨rfl, rfl⟩⟩
    | exact ⟨fun _ _ => ⟨rfl, rfl⟩, fun v s => clearSliceFault_kept _ v s, fun _ => ⟨rfl, rfl⟩, fun _ => ⟨rfl, rfl⟩⟩
    | exact ⟨fun _ _ => ⟨rfl, rfl⟩, fun _ _ => ⟨rfl, rfl⟩, fun _ => ⟨rfl, rfl⟩, fun s => by grind [State.setSliceP_kept]⟩
    | exact trivial

theorem PDesc.ofIdle_keeps (s : State) (n : Nat) (d : PDesc) (h : d.Keeps) : (s.idleVal n (d.ofIdle n)).Keeps := by
  unfold State.idleVal
  split <;> exact ⟨fun _ _ => ⟨rfl, rfl⟩, fun _ _ => ⟨rfl, rfl⟩, fun _ => ⟨rfl, rfl⟩, h.2.2.2⟩

theorem describeSlice_keeps (s : State) (n w : Nat) : KeepsAll (describeSlice s n w) := by
  unfold describeSlice
  split
  · exact describeRegion_keeps _ _ _ _ _
  · split
    · exact describeRegion_keeps _ _ _ _ _
    · have h := describeRegion_keeps s n 0 w {}
      cases hd : describeRegion s n 0 w {} with
      | none => trivial
      | some d =>
        rw [hd] at h
        exact PDesc.ofIdle_keeps s n d h

theorem describe_keeps (s : State) (a : Nat) : KeepsAll (describe s a) := by
  unfold describe
  split
  · exact describe00_keeps _ _
  · exact describe01_keeps _ _
  · exact describe02_keeps _ _
  · exact describe03_keeps _ _
  · exact describe04_keeps _ _
  · exact describe05_keeps _ _
  · exact describe06_keeps _ _
  · exact describe07_keeps _ _
  · exact describe08_keeps _ _
  · exact describe09_keeps _ _
  · exact keepsAll_ite (describeSlice_keeps _ _ _) trivial

theorem describe_some {s : State} {a : Nat} {d : PDesc} (h : describe s a = some d) : d.Keeps := by
  have := describe_keeps s a; rw [h] at this; exact this

theorem State.readMapped_keeps (s : State) (path : Path) (d : PDesc) (a : Nat) (h : d.Keeps) :
    (s.readMapped path d a).2.pending = s.pending ∧ (s.readMapped path d a).2.guards = s.guards := by
  obtain ⟨_, _, h, _⟩ := h
  unfold State.readMapped
  dsimp only
  split
  · exact h s
  · split
    · exact ⟨rfl, rfl⟩
    · split
      · split <;> exact ⟨rfl, rfl⟩
      · exact ⟨rfl, rfl⟩

theorem State.readMapped_kept (s : State) (path : Path) (d : PDesc) (a : Nat) (h : describe s a = some d) :
    (s.readMapped path d a).2.pending = s.pending ∧ (s.readMapped path d a).2.guards = s.guards :=
  s.readMapped_keeps path d a (describe_some h)

theorem State.pmRead_kept (s : State) (a : Nat) : ∀ t, s.pmRead a = some t → t.2.pending = s.pending ∧ t.2.guards = s.guards := by
  intro t h
  unfold State.pmRead at h
  cases hd : describe s a with
  | none => simp [hd] at h
  | some d => simp [hd] at h; rw [← h]; exact s.readMapped_kept _ d a hd

theorem State.applySet_kept (s : State) (a : Nat) (mask v : Word) :
    (s.applySet a mask v).pending = s.pending ∧ (s.applySet a mask v).guards = s.guards := by
  unfold State.applySet
  split
  · exact ⟨rfl, rfl⟩
  · rename_i d hd
    obtain ⟨hw, hc, _, _⟩ := describe_some hd
    have h (x : DWord) : (if x = 0 then s else d.clear x s).pending = s.pending ∧
        (if x = 0 then s else d.clear x s).guards = s.guards := by split; exacts [⟨rfl, rfl⟩, hc x s]
    dsimp only
    split
    · exact h _
    · split
      · exact ⟨(hw _ _).1.trans (h _).1, (hw _ _).2.trans (h _).2⟩
      · split
        · exact h _
        · exact ⟨(hw _ _).1.trans (h _).1, (hw _ _).2.trans (h _).2⟩

/-! ### Operands -/

/-! ### Issue -/

theorem State.updEntry_kept (s : State) (jid : ℕ) (f : JEntry → JEntry) :
    (State.updEntry s jid f).pending = s.pending ∧ (State.updEntry s jid f).guards = s.guards := ⟨rfl, rfl⟩

theorem State.dropEntry_kept (s : State) (jid : ℕ) :
    (State.dropEntry s jid).pending = s.pending ∧ (State.dropEntry s jid).guards = s.guards := by
  grind [State.dropEntry, State.mirrorEntry_kept, State.setJournal_kept, foldl_kept]

theorem State.mirrorJid_kept (s : State) (jid : ℕ) :
    (State.mirrorJid s jid).pending = s.pending ∧ (State.mirrorJid s jid).guards = s.guards := by
  grind [State.mirrorJid, State.mirrorEntry_kept, foldl_kept]

theorem Ran.bad_kept (st : Status) (s : State) :
    (Ran.bad st s).state.pending = s.pending ∧ (Ran.bad st s).state.guards = s.guards := ⟨rfl, rfl⟩

theorem Ran.ok_kept (a : DWord) (b : DWord) (s : State) :
    (Ran.ok a b s).state.pending = s.pending ∧ (Ran.ok a b s).state.guards = s.guards := ⟨rfl, rfl⟩

theorem State.fetchHost_kept (s : State) (jid : ℕ) (base : HostAddr) (n : ℕ) (chan : Option ℕ) :
    (State.fetchHost s jid base n chan).state.pending = s.pending ∧ (State.fetchHost s jid base n chan).state.guards = s.guards := by
  grind [State.fetchHost, State.updEntry_kept, State.routineRead_kept, foldl_kept, Fetched.state]

theorem State.markPosting_kept (s : State) (src : HeldSrc) :
    (State.markPosting s src).pending = s.pending ∧ (State.markPosting s src).guards = s.guards := by
  unfold State.markPosting; (repeat' split) <;> grind [State.updEntry_kept, State.setInj_kept, foldl_kept]

theorem State.writeCompl_kept (s : State) (cq : QId) (src : HeldSrc) (c : Compl) (fire : Bool) :
    (State.writeCompl s cq src c fire).pending = s.pending ∧ (State.writeCompl s cq src c fire).guards = s.guards := by
  simp [State.writeCompl, State.writeEntry_kept, State.markPosting_kept]

theorem State.releaseDeferred_kept (s : State) (jid : ℕ) :
    (State.releaseDeferred s jid).pending = s.pending ∧ (State.releaseDeferred s jid).guards = s.guards := by
  simp [State.releaseDeferred, State.setDom_kept, State.forEach_kept]

theorem State.written_kept (s : State) (src : HeldSrc) :
    (State.written s src).pending = s.pending ∧ (State.written s src).guards = s.guards := by
  unfold State.written; (repeat' split) <;> grind [State.setQueue_kept, State.dropEntry_kept, State.setQueueOpt_kept, State.mirrorInj_kept, State.mirrorQueue_kept, State.setInj_kept, State.releaseDeferred_kept, foldl_kept]

theorem State.settleFront_kept (s : State) (q : ℕ) :
    (State.settleFront s q).pending = s.pending ∧ (State.settleFront s q).guards = s.guards := by
  grind [State.settleFront, State.setQueue_kept, State.written_kept, State.forEach_kept]

theorem State.markHeld_kept (s : State) (src : HeldSrc) :
    (State.markHeld s src).pending = s.pending ∧ (State.markHeld s src).guards = s.guards := by
  unfold State.markHeld; (repeat' split) <;> grind [State.updEntry_kept, State.setInj_kept, foldl_kept]

theorem State.place_kept (s : State) (cq : QId) (src : HeldSrc) :
    (State.place s cq src).pending = s.pending ∧ (State.place s cq src).guards = s.guards := by
  grind [State.place, State.markHeld_kept, State.writeCompl_kept, foldl_kept]

theorem State.drainHeld_kept (x1 : ℕ) (x2 : QId) (x3 : State) :
    (State.drainHeld x1 x2 x3).pending = x3.pending ∧ (State.drainHeld x1 x2 x3).guards = x3.guards := by
  fun_induction State.drainHeld x1 x2 x3 <;> grind [State.writeCompl_kept, foldl_kept]

theorem State.postNext_kept (s : State) (q : ℕ) :
    (State.postNext s q).pending = s.pending ∧ (State.postNext s q).guards = s.guards := by
  grind [State.postNext, State.place_kept, foldl_kept]

theorem State.postAll_kept (x1 : ℕ) (x2 : ℕ) (x3 : State) :
    (State.postAll x1 x2 x3).pending = x3.pending ∧ (State.postAll x1 x2 x3).guards = x3.guards := by
  fun_induction State.postAll x1 x2 x3 <;> grind [State.postNext_kept, foldl_kept]

theorem State.postEverything_kept (s : State) :
    (State.postEverything s).pending = s.pending ∧ (State.postEverything s).guards = s.guards := by
  simp [State.postEverything, State.postAll_kept, State.forEach_kept]

theorem State.finish_kept (s : State) (jid : ℕ) (st : Status) (a : DWord) (b : DWord) :
    (State.finish s jid st a b).pending = s.pending ∧ (State.finish s jid st a b).guards = s.guards := by
  grind [State.finish, State.dropEntry_kept, State.updEntry_kept, State.releaseDeferred_kept, State.mirrorJid_kept, State.emit_kept, foldl_kept]

theorem State.commitStep_kept (s : State) (jid : ℕ) (r : Routine) :
    (State.commitStep s jid r).pending = s.pending ∧ (State.commitStep s jid r).guards = s.guards := by
  grind [State.commitStep, State.updEntry_kept, State.takeFree_kept, State.mirrorJid_kept, foldl_kept]

theorem State.absorb_kept (jid : Nat) (r : Ran) :
    (State.absorb jid r).pending = r.state.pending ∧ (State.absorb jid r).guards = r.state.guards := by
  cases r with
  | done st a b s => exact State.finish_kept s jid st a b
  | more r s => exact State.commitStep_kept s jid r
  | wait r s => exact ⟨rfl, rfl⟩
  | release r s => exact State.mirrorJid_kept _ jid

theorem State.microPasses_kept (s : State) :
    (State.microPasses s).pending = s.pending ∧ (State.microPasses s).guards = s.guards := ⟨rfl, rfl⟩

theorem State.rollBackAll_kept (s : State) :
    (State.rollBackAll s).pending = s.pending ∧ (State.rollBackAll s).guards = s.guards := ⟨rfl, rfl⟩

theorem State.countEmission_kept (s : State) (jid : ℕ) :
    (State.countEmission s jid).pending = s.pending ∧ (State.countEmission s jid).guards = s.guards := ⟨rfl, rfl⟩

theorem State.yieldPost_kept (s : State) (h : JEntry) :
    (State.yieldPost s h).pending = s.pending ∧ (State.yieldPost s h).guards = s.guards := by
  grind [State.yieldPost, State.writeEntry_kept, State.countEmission_kept, foldl_kept]

theorem State.servedNow_kept (s : State) (e : JEntry) :
    (State.servedNow s e).pending = s.pending ∧ (State.servedNow s e).guards = s.guards := ⟨rfl, rfl⟩

theorem State.takeTurn_kept (s : State) (e : JEntry) :
    (State.takeTurn s e).pending = s.pending ∧ (State.takeTurn s e).guards = s.guards := by
  grind [State.takeTurn, State.servedNow_kept, State.yieldPost_kept, foldl_kept]

/-- The instructions but GUARDSET and GUARDLOCK keep the guard settings. -/
theorem State.launch_kept (s : State) (e : JEntry) (run : Nat → BitVec 16 → Ins → State → Ran)
    (h : ∀ j q i t, (run j q i t).state.pending = t.pending ∧ (run j q i t).state.guards = t.guards) :
    (s.launch e run).pending = s.pending ∧ (s.launch e run).guards = s.guards := by
  grind [State.launch, State.absorb_kept, State.finish_kept, State.updEntry_kept, State.takeTurn_kept]

theorem State.launch_stays (s : State) (e : JEntry) (run : Nat → BitVec 16 → Ins → State → Ran)
    (h : ∀ j q i t, GuardsStay t (run j q i t).state) : GuardsStay s (s.launch e run) := by
  unfold GuardsStay at *
  grind [State.launch, State.absorb_kept, State.finish_kept, State.updEntry_kept, State.takeTurn_kept]

theorem begins_kept (q : QId) (op : Byte) (sel : Bool) (i : Ins) (run : Nat → BitVec 16 → Ins → State → Ran) (s t : State)
    (h : ∀ j q i t, (run j q i t).state.pending = t.pending ∧ (run j q i t).state.guards = t.guards)
    (ht : begins q op sel i run s = .next t) : t.pending = s.pending ∧ t.guards = s.guards := by
  have := fun e => State.launch_kept s e run h
  grind [begins, State.begin]

theorem begins_stays (q : QId) (op : Byte) (sel : Bool) (i : Ins) (run : Nat → BitVec 16 → Ins → State → Ran) (s t : State)
    (h : ∀ j q i t, GuardsStay t (run j q i t).state) (ht : begins q op sel i run s = .next t) : GuardsStay s t := by
  have := fun e => State.launch_stays s e run h
  have := GuardsStay.refl s
  grind [begins, State.begin]

end Machine
end Sys2Proof
end

