-- ==== Sys2Proof/Laws/KeptControl.lean ====
section
/-! SUPPORT. Frames of the instructions of the control family, the queues, MACsec and transmission: none of them touches the queue of commands, and none but
GUARDSET, GUARDLOCK, a cold reset and AON power-up touches the guard settings and their lock (R148). One lemma per function. -/

namespace Sys2Proof
namespace Machine

/-! ### Control -/

theorem runNop_kept (x1 : ℕ) (x2 : BitVec 16) (x3 : Ins) (s : State) :
    (runNop x1 x2 x3 s).state.pending = s.pending ∧ (runNop x1 x2 x3 s).state.guards = s.guards := ⟨rfl, rfl⟩

theorem runSet_kept (x1 : ℕ) (x2 : BitVec 16) (i : Ins) (s : State) :
    (runSet x1 x2 i s).state.pending = s.pending ∧ (runSet x1 x2 i s).state.guards = s.guards := by
  grind [runSet, Ran.bad_kept, State.applySet_kept, Ran.ok_kept, foldl_kept, Ran.state, Ran.ok, Ran.bad]

theorem runGet_kept (x1 : ℕ) (x2 : BitVec 16) (i : Ins) (s : State) :
    (runGet x1 x2 i s).state.pending = s.pending ∧ (runGet x1 x2 i s).state.guards = s.guards := by
  grind [runGet, Ran.bad_kept, State.readMapped_kept, Ran.ok_kept, foldl_kept, Ran.state, Ran.ok, Ran.bad]

theorem applyBlock_kept (s : State) (a : ℕ) (x3 : List Word) :
    (applyBlock s a x3).pending = s.pending ∧ (applyBlock s a x3).guards = s.guards := by
  fun_induction applyBlock s a x3 <;> grind [State.applySet_kept, foldl_kept]

theorem stepSetblk_kept (jid : ℕ) (i : Ins) (done : ℕ) (s : State) :
    (stepSetblk jid i done s).state.pending = s.pending ∧ (stepSetblk jid i done s).state.guards = s.guards := by
  have h := State.fetchHost_kept s jid (i.b.setWidth 57 + BitVec.ofNat 57 (4 * done)) (4 * min 256 (i.target.toNat - done)) none
  unfold stepSetblk
  dsimp only
  split <;> rename_i hf <;> rw [hf] at h <;> simp only [Fetched.state] at h
  · exact h
  · exact h
  · split
    · exact h
    · split <;> simpa [Ran.ok, Ran.state, applyBlock_kept] using h

theorem runSetblk_kept (jid : ℕ) (x2 : BitVec 16) (i : Ins) (s : State) :
    (runSetblk jid x2 i s).state.pending = s.pending ∧ (runSetblk jid x2 i s).state.guards = s.guards := by
  grind [runSetblk, stepSetblk_kept, Ran.bad_kept, foldl_kept, Ran.state, Ran.ok, Ran.bad]

theorem stepWaitfor_kept (i : Ins) (since : ℕ) (last : Word) (s : State) :
    (stepWaitfor i since last s).state.pending = s.pending ∧ (stepWaitfor i since last s).state.guards = s.guards := by
  grind [stepWaitfor, State.microPasses_kept, Ran.bad_kept, State.readMapped_kept, Ran.ok_kept, foldl_kept, Ran.state, Ran.ok, Ran.bad]

theorem runWaitfor_kept (x1 : ℕ) (x2 : BitVec 16) (i : Ins) (s : State) :
    (runWaitfor x1 x2 i s).state.pending = s.pending ∧ (runWaitfor x1 x2 i s).state.guards = s.guards := by
  grind [runWaitfor, stepWaitfor_kept, foldl_kept, Ran.state, Ran.ok, Ran.bad]

theorem State.skipEntry_kept (s : State) (jid : ℕ) :
    (State.skipEntry s jid).pending = s.pending ∧ (State.skipEntry s jid).guards = s.guards := by
  grind [State.skipEntry, State.dropEntry_kept, State.updEntry_kept, State.mirrorJid_kept, foldl_kept]

theorem State.skipNext_kept (s : State) (q : ℕ) (jid : ℕ) (n : ℕ) :
    (State.skipNext s q jid n).pending = s.pending ∧ (State.skipNext s q jid n).guards = s.guards := by
  grind [State.skipNext, State.setQueue_kept, State.mirrorQueue_kept, State.skipEntry_kept, State.forEach_kept]

theorem runSkipif_kept (jid : ℕ) (queue : BitVec 16) (i : Ins) (s : State) :
    (runSkipif jid queue i s).state.pending = s.pending ∧ (runSkipif jid queue i s).state.guards = s.guards := by
  grind [runSkipif, State.skipNext_kept, Ran.bad_kept, State.readMapped_kept, Ran.ok_kept, foldl_kept, Ran.state, Ran.ok, Ran.bad]

theorem State.signal_kept (s : State) (jid : ℕ) (i : Ins) :
    (State.signal s jid i).pending = s.pending ∧ (State.signal s jid i).guards = s.guards := by
  grind [State.signal, State.queueWrite_kept, State.fireVector_kept, State.countEmission_kept, foldl_kept]

theorem stepSignal_kept (jid : ℕ) (queue : BitVec 16) (i : Ins) (s : State) :
    (stepSignal jid queue i s).state.pending = s.pending ∧ (stepSignal jid queue i s).state.guards = s.guards := by
  grind [stepSignal, State.postAll_kept, State.signal_kept, Ran.ok_kept, foldl_kept, Ran.state, Ran.ok, Ran.bad]

theorem runSignal_kept (jid : ℕ) (queue : BitVec 16) (i : Ins) (s : State) :
    (runSignal jid queue i s).state.pending = s.pending ∧ (runSignal jid queue i s).state.guards = s.guards := by
  grind [runSignal, Ran.bad_kept, stepSignal_kept, foldl_kept, Ran.state, Ran.ok, Ran.bad]

theorem State.bumpQueues_kept (s : State) :
    (State.bumpQueues s).pending = s.pending ∧ (State.bumpQueues s).guards = s.guards := by
  grind [State.bumpQueues, State.setQueue_kept, State.mirrorQueue_kept, State.forEach_kept]

theorem modeTarget_kept (s : State) (queue : BitVec 16) (tgt : Mode) :
    ∀ t, (modeTarget s queue tgt) = some t → t.pending = s.pending ∧ t.guards = s.guards := by
  unfold modeTarget; (repeat' split) <;> grind [State.postEverything_kept, State.enterMode_kept, State.refreshReplicas_kept, State.bumpQueues_kept, foldl_kept]

theorem runMode_kept (x1 : ℕ) (queue : BitVec 16) (i : Ins) (s : State) :
    (runMode x1 queue i s).state.pending = s.pending ∧ (runMode x1 queue i s).state.guards = s.guards := by
  grind [runMode, Ran.bad_kept, modeTarget_kept, Ran.ok_kept, foldl_kept, Ran.state, Ran.ok, Ran.bad]

/-! ### Queues -/

theorem State.issueFetch_kept (s : State) (q : ℕ) (j : RIdx) (second : Bool) :
    (State.issueFetch s q j second).pending = s.pending ∧ (State.issueFetch s q j second).guards = s.guards := by
  grind [State.issueFetch, State.setQueue_kept, State.queueRead_kept, foldl_kept]

theorem State.fetchBelow_kept (s : State) (q : ℕ) :
    (State.fetchBelow s q).pending = s.pending ∧ (State.fetchBelow s q).guards = s.guards := by
  grind [State.fetchBelow, State.issueFetch_kept, State.forEach_kept]

theorem State.fetchNext_kept (s : State) (q : ℕ) :
    (State.fetchNext s q).pending = s.pending ∧ (State.fetchNext s q).guards = s.guards := by
  grind [State.fetchNext, State.issueFetch_kept, foldl_kept]

theorem runQcreate_kept (x1 : ℕ) (x2 : BitVec 16) (i : Ins) (s : State) :
    (runQcreate x1 x2 i s).state.pending = s.pending ∧ (runQcreate x1 x2 i s).state.guards = s.guards := by
  grind [runQcreate, State.setQueue_kept, Ran.bad_kept, State.mirrorQueue_kept, Ran.ok_kept, foldl_kept, Ran.state, Ran.ok, Ran.bad]

theorem runQmodify_kept (x1 : ℕ) (x2 : BitVec 16) (i : Ins) (s : State) :
    (runQmodify x1 x2 i s).state.pending = s.pending ∧ (runQmodify x1 x2 i s).state.guards = s.guards := by
  grind [runQmodify, State.setQueue_kept, Ran.bad_kept, State.mirrorQueue_kept, Ran.ok_kept, foldl_kept, Ran.state, Ran.ok, Ran.bad]

theorem stepQdestroy_kept (i : Ins) (head0 : ℕ) (posted : Option ℕ) (s : State) :
    (stepQdestroy i head0 posted s).state.pending = s.pending ∧ (stepQdestroy i head0 posted s).state.guards = s.guards := by
  grind [stepQdestroy, State.microPasses_kept, State.setQueue_kept, State.place_kept, State.setQueueOpt_kept, Ran.bad_kept, State.mirrorQueue_kept, Ran.ok_kept, State.takeFree_kept, foldl_kept, Ran.state, Ran.ok, Ran.bad]

theorem runQdestroy_kept (x1 : ℕ) (x2 : BitVec 16) (i : Ins) (s : State) :
    (runQdestroy x1 x2 i s).state.pending = s.pending ∧ (runQdestroy x1 x2 i s).state.guards = s.guards := by
  grind [runQdestroy, State.setQueue_kept, stepQdestroy_kept, State.fetchBelow_kept, Ran.bad_kept, foldl_kept, Ran.state, Ran.ok, Ran.bad]

theorem State.retryHeld_kept (s : State) (q : ℕ) :
    (State.retryHeld s q).pending = s.pending ∧ (State.retryHeld s q).guards = s.guards := by
  grind [State.retryHeld, State.setQueue_kept, State.writeEntry_kept, foldl_kept]

theorem State.ringFreed_kept (s : State) (q : ℕ) :
    (State.ringFreed s q).pending = s.pending ∧ (State.ringFreed s q).guards = s.guards := by
  simp [State.ringFreed, State.drainHeld_kept, State.flushAllEvents_kept, State.flushGaps_kept, State.flushPn_kept, State.retryHeld_kept]

theorem State.doorbellWrite_kept (s : State) (q : ℕ) (j : RIdx) :
    (State.doorbellWrite s q j).pending = s.pending ∧ (State.doorbellWrite s q j).guards = s.guards := by
  grind [State.doorbellWrite, State.setQueue_kept, State.setDoorbell_kept, State.queueFault_kept, State.fetchBelow_kept, State.mirrorQueue_kept, State.ringFreed_kept, foldl_kept]

theorem State.poll_kept (s : State) (q : ℕ) :
    (State.poll s q).pending = s.pending ∧ (State.poll s q).guards = s.guards := by
  grind [State.poll, State.setQueue_kept, State.issueFetch_kept, State.forEach_kept]

theorem State.fetched_kept (s : State) (q : ℕ) (f : Fetch) (data : BitVec 512) :
    (State.fetched s q f data).pending = s.pending ∧ (State.fetched s q f data).guards = s.guards := by
  grind [State.fetched, State.setQueue_kept, State.issueFetch_kept, foldl_kept]

theorem State.retain_kept (s : State) (e : JEntry) :
    (State.retain s e).pending = s.pending ∧ (State.retain s e).guards = s.guards := by
  grind [State.retain, State.setQueue_kept, State.fetchNext_kept, State.dropEntry_kept, State.updEntry_kept, State.mirrorQueue_kept, foldl_kept]

theorem State.accept_kept (s : State) (q : ℕ) :
    (State.accept s q).pending = s.pending ∧ (State.accept s q).guards = s.guards := by
  grind [State.accept, State.setQueue_kept, State.mirrorEntry_kept, State.setJournal_kept, State.retain_kept, State.mirrorQueue_kept, State.takeId_kept, foldl_kept]

theorem State.retainHeld_kept (s : State) :
    (State.retainHeld s).pending = s.pending ∧ (State.retainHeld s).guards = s.guards := by
  grind [State.retainHeld, State.retain_kept, State.forEach_kept]

theorem State.headWrite_kept (s : State) (q : ℕ) :
    (State.headWrite s q).pending = s.pending ∧ (State.headWrite s q).guards = s.guards := by
  grind [State.headWrite, State.setQueue_kept, State.queueWrite_kept, foldl_kept]

theorem State.modTimeout_kept (s : State) (q : ℕ) :
    (State.modTimeout s q).pending = s.pending ∧ (State.modTimeout s q).guards = s.guards := by
  grind [State.modTimeout, State.fireVector_kept, foldl_kept]

theorem State.clearPending_kept (s : State) (v : ℕ) :
    (State.clearPending s v).pending = s.pending ∧ (State.clearPending s v).guards = s.guards := ⟨rfl, rfl⟩

theorem State.unmask_kept (s : State) (v : ℕ) :
    (State.unmask s v).pending = s.pending ∧ (State.unmask s v).guards = s.guards := by
  grind [State.unmask, State.sendMessage_kept, State.setVector_kept, foldl_kept]

/-! ### Gcm -/

/-! ### Macsec -/

theorem State.raiseMark_kept (s : State) (n : ℕ) :
    (State.raiseMark s n).pending = s.pending ∧ (State.raiseMark s n).guards = s.guards := by
  grind [State.raiseMark, State.takeFree_kept, State.setKeySlot_kept, foldl_kept]

theorem State.pnWarn_kept (s : State) (n : ℕ) :
    (State.pnWarn s n).pending = s.pending ∧ (State.pnWarn s n).guards = s.guards := by
  grind [State.pnWarn, State.pnRecord_kept, State.setKeySlot_kept, foldl_kept]

theorem State.pnExhaust_kept (s : State) (n : ℕ) :
    (State.pnExhaust s n).pending = s.pending ∧ (State.pnExhaust s n).guards = s.guards := by
  grind [State.pnExhaust, State.pnRecord_kept, State.setSecPort_kept, State.setKeySlot_kept, foldl_kept]

theorem State.pnEvents_kept (s : State) (n : ℕ) :
    (State.pnEvents s n).pending = s.pending ∧ (State.pnEvents s n).guards = s.guards := by
  grind [State.pnEvents, State.pnWarn_kept, State.pnExhaust_kept, foldl_kept]

theorem State.takePn_kept (s : State) (n : ℕ) :
    (State.takePn s n).2.pending = s.pending ∧ (State.takePn s n).2.guards = s.guards := by
  simp [State.takePn, State.raiseMark_kept, State.pnEvents_kept, State.setKeySlot_kept]

theorem State.resumeSa_kept (s : State) (n : ℕ) :
    (State.resumeSa s n).pending = s.pending ∧ (State.resumeSa s n).guards = s.guards := by
  grind [State.resumeSa, State.raiseMark_kept, State.pnEvents_kept, State.countSec_kept, State.setKeySlot_kept, foldl_kept]

theorem State.resumePorts_kept (s : State) (ps : List ℕ) :
    (State.resumePorts s ps).pending = s.pending ∧ (State.resumePorts s ps).guards = s.guards := by
  grind [State.resumePorts, State.resumeSa_kept, State.forEach_kept]

theorem State.clearScratch_kept (s : State) (queue : BitVec 16) (jid : ℕ) :
    (State.clearScratch s queue jid).pending = s.pending ∧ (State.clearScratch s queue jid).guards = s.guards := by
  grind [State.clearScratch, State.setSec_kept, foldl_kept]

theorem installKey_kept (jid : ℕ) (queue : BitVec 16) (i : Ins) (s : State) :
    (installKey jid queue i s).state.pending = s.pending ∧ (installKey jid queue i s).state.guards = s.guards := by
  grind [installKey, Ran.bad_kept, State.raiseMark_kept, State.clearScratch_kept, Ran.ok_kept, State.setKeySlot_kept, foldl_kept, Ran.state, Ran.ok, Ran.bad]

theorem State.zeroBuffer_kept (s : State) (jid : ℕ) (buf : HostAddr) :
    (State.zeroBuffer s jid buf).pending = s.pending ∧ (State.zeroBuffer s jid buf).guards = s.guards := by
  simp [State.zeroBuffer, State.updEntry_kept, State.queueWrite_kept]

theorem stepKeyload_kept (jid : Nat) (queue : BitVec 16) (i : Ins) (phase : Nat) (s : State) :
    (stepKeyload jid queue i phase s).state.pending = s.pending ∧ (stepKeyload jid queue i phase s).state.guards = s.guards := by
  have hz := fun s' b => State.zeroBuffer_kept s' jid b
  have hf := State.fetchHost_kept s jid (i.b.setWidth 57) 64 none
  unfold stepKeyload
  dsimp only
  split
  · split
    · exact hz _ _
    · split <;> rename_i hh <;> rw [hh] at hf
      · exact hf
      · exact hf
      · exact ⟨(hz _ _).1.trans hf.1, (hz _ _).2.trans hf.2⟩
  · split
    · split
      · exact State.clearScratch_kept _ _ _
      · split
        · exact ⟨rfl, rfl⟩
        · exact ⟨rfl, rfl⟩
    · exact ⟨rfl, rfl⟩
  · exact installKey_kept _ _ _ _

theorem runKeyload_kept (jid : ℕ) (queue : BitVec 16) (i : Ins) (s : State) :
    (runKeyload jid queue i s).state.pending = s.pending ∧ (runKeyload jid queue i s).state.guards = s.guards := by
  grind [runKeyload, stepKeyload_kept, Ran.bad_kept, foldl_kept, Ran.state, Ran.ok, Ran.bad]

theorem State.zeroRetired_kept (s : State) (p : ℕ) :
    (State.zeroRetired s p).pending = s.pending ∧ (State.zeroRetired s p).guards = s.guards := by
  grind [State.zeroRetired, State.setKeySlot_kept, State.forEach_kept]

theorem stepKeyretire_kept (n : ℕ) (s : State) :
    (stepKeyretire n s).state.pending = s.pending ∧ (stepKeyretire n s).state.guards = s.guards := by
  grind [stepKeyretire, State.microPasses_kept, Ran.ok_kept, State.setKeySlot_kept, foldl_kept, Ran.state, Ran.ok, Ran.bad]

theorem runKeyretire_kept (x1 : ℕ) (x2 : BitVec 16) (i : Ins) (s : State) :
    (runKeyretire x1 x2 i s).state.pending = s.pending ∧ (runKeyretire x1 x2 i s).state.guards = s.guards := by
  grind [runKeyretire, Ran.bad_kept, stepKeyretire_kept, State.setSecPort_kept, Ran.ok_kept, State.setKeySlot_kept, foldl_kept, Ran.state, Ran.ok, Ran.bad]

theorem State.eraseKeys_kept (s : State) :
    (State.eraseKeys s).pending = s.pending ∧ (State.eraseKeys s).guards = s.guards := by
  simp [State.eraseKeys, State.setSec_kept, State.setSecPort_kept, State.forEach_kept]

/-! ### Pcs -/

theorem State.laneBeat_kept (s : State) (p : ℕ) :
    (State.laneBeat s p).pending = s.pending ∧ (State.laneBeat s p).guards = s.guards := by
  grind [State.laneBeat, State.setPort_kept, State.emit_kept, State.forEach_kept]

theorem State.laneCycle_kept (s : State) :
    (State.laneCycle s).pending = s.pending ∧ (State.laneCycle s).guards = s.guards := by
  grind [State.laneCycle, State.laneBeat_kept, State.forEach_kept]

theorem State.laneCycles_kept (x1 : ℕ) (x2 : State) :
    (State.laneCycles x1 x2).pending = x2.pending ∧ (State.laneCycles x1 x2).guards = x2.guards := by
  fun_induction State.laneCycles x1 x2 <;> grind [State.laneCycle_kept, foldl_kept]

theorem State.laneTime_kept (s : State) :
    (State.laneTime s).pending = s.pending ∧ (State.laneTime s).guards = s.guards := by
  grind [State.laneTime, State.laneCycles_kept, foldl_kept]

theorem State.toLanes_kept (s : State) (p : ℕ) (f : Pcs → Pcs) :
    (State.toLanes s p f).pending = s.pending ∧ (State.toLanes s p f).guards = s.guards := ⟨rfl, rfl⟩

theorem State.startPcs_kept (s : State) (p : ℕ) :
    (State.startPcs s p).pending = s.pending ∧ (State.startPcs s p).guards = s.guards := ⟨rfl, rfl⟩

/-! ### Transmit -/

theorem State.updInj_kept (s : State) (iid : ℕ) (f : Inj → Inj) :
    (State.updInj s iid f).pending = s.pending ∧ (State.updInj s iid f).guards = s.guards := ⟨rfl, rfl⟩

theorem State.injRecord_kept (s : State) (e : Inj) (flags : Byte) (t : Stamp) (status : Byte) (len : ℕ) :
    (State.injRecord s e flags t status len).pending = s.pending ∧ (State.injRecord s e flags t status len).guards = s.guards := by
  grind [State.injRecord, State.genReserved_kept, foldl_kept]

theorem State.notSent_kept (s : State) (iid : ℕ) (reason : Byte) :
    (State.notSent s iid reason).pending = s.pending ∧ (State.notSent s iid reason).guards = s.guards := by
  grind [State.notSent, State.updInj_kept, State.injRecord_kept, foldl_kept]

theorem State.pipeRecord_kept (s : State) (p : ℕ) (src : TxSrc) (flags : Byte) (t : Stamp) (status : Byte) (len : ℕ) :
    (State.pipeRecord s p src flags t status len).pending = s.pending ∧ (State.pipeRecord s p src flags t status len).guards = s.guards := by
  unfold State.pipeRecord; (repeat' split) <;> grind [State.genReserved_kept, foldl_kept]

theorem State.unsent_kept (s : State) (p : ℕ) (src : TxSrc) (reason : Byte) (word : ℕ) :
    (State.unsent s p src reason word).pending = s.pending ∧ (State.unsent s p src reason word).guards = s.guards := by
  unfold State.unsent; (repeat' split) <;> grind [State.notSent_kept, State.pipeRecord_kept, State.event_kept, foldl_kept]

theorem State.readBuffer_kept (s : State) (e : Inj) (cells : ℕ) :
    (State.readBuffer s e cells).pending = s.pending ∧ (State.readBuffer s e cells).guards = s.guards := by
  simp [State.readBuffer, State.updInj_kept, State.queueRead_kept, foldl_kept]

theorem State.readWhile_kept (p : ℕ) (x2 : List Inj) (x3 : State) :
    (State.readWhile p x2 x3).pending = x3.pending ∧ (State.readWhile p x2 x3).guards = x3.guards := by
  fun_induction State.readWhile p x2 x3 <;> grind [State.readBuffer_kept, foldl_kept]

theorem State.startReads_kept (s : State) (p : ℕ) :
    (State.startReads s p).pending = s.pending ∧ (State.startReads s p).guards = s.guards := by
  grind [State.startReads, State.readWhile_kept, foldl_kept]

theorem State.addInj_kept (s : State) (e : Inj) :
    (State.addInj s e).pending = s.pending ∧ (State.addInj s e).guards = s.guards := ⟨rfl, rfl⟩

theorem State.consume_kept (s : State) (q : ℕ) :
    (State.consume s q).pending = s.pending ∧ (State.consume s q).guards = s.guards := by
  unfold State.consume; (repeat' split) <;> grind [State.setQueue_kept, State.fetchNext_kept, State.setPort_kept, State.mirrorInj_kept, State.mirrorQueue_kept, State.reserveRecord_kept, State.startReads_kept, State.takeId_kept, State.addInj_kept, State.unsent_kept, foldl_kept]

theorem State.stage_kept (s : State) (e : Inj) (frame : List Byte) :
    (State.stage s e frame).pending = s.pending ∧ (State.stage s e frame).guards = s.guards := by
  grind [State.stage, State.updInj_kept, State.setPort_kept, State.startReads_kept, State.unsent_kept, foldl_kept]

theorem State.injReadsEnd_kept (s : State) (iid : ℕ) :
    (State.injReadsEnd s iid).pending = s.pending ∧ (State.injReadsEnd s iid).guards = s.guards := ⟨rfl, rfl⟩

theorem State.injUnreadable_kept (s : State) (e : Inj) :
    (State.injUnreadable s e).pending = s.pending ∧ (State.injUnreadable s e).guards = s.guards := by
  simp [State.injUnreadable, State.startReads_kept, State.takeFree_kept, State.notSent_kept, State.injReadsEnd_kept]

theorem State.injectFetched_kept (s : State) (q : ℕ) (ok : Bool) (frame : List Byte) :
    (State.injectFetched s q ok frame).pending = s.pending ∧ (State.injectFetched s q ok frame).guards = s.guards := by
  grind [State.injectFetched, State.injUnreadable_kept, State.stage_kept, State.injReadsEnd_kept, foldl_kept]

theorem State.pbFault_kept (s : State) (k : ℕ) (f : Byte × Byte × Byte × Byte → Byte × Byte × Byte × Byte) :
    (State.pbFault s k f).pending = s.pending ∧ (State.pbFault s k f).guards = s.guards := ⟨rfl, rfl⟩

theorem State.pbMisroute_kept (s : State) (k : ℕ) :
    (State.pbMisroute s k).pending = s.pending ∧ (State.pbMisroute s k).guards = s.guards := ⟨rfl, rfl⟩

theorem State.pbLength_kept (s : State) (k : ℕ) :
    (State.pbLength s k).pending = s.pending ∧ (State.pbLength s k).guards = s.guards := ⟨rfl, rfl⟩

theorem State.pbCredit_kept (s : State) (k : ℕ) :
    (State.pbCredit s k).pending = s.pending ∧ (State.pbCredit s k).guards = s.guards := ⟨rfl, rfl⟩

theorem State.pbLost_kept (s : State) (k : ℕ) :
    (State.pbLost s k).pending = s.pending ∧ (State.pbLost s k).guards = s.guards := ⟨rfl, rfl⟩

theorem State.pipeReserve_kept (s : State) (w : QWord) :
    (State.pipeReserve s w).2.pending = s.pending ∧ (State.pipeReserve s w).2.guards = s.guards := by
  grind [State.pipeReserve, State.setTimeUnit_kept, State.reserveRecord_kept, foldl_kept]

theorem State.pipeTx_kept (s : State) (k : ℕ) (p : ℕ) (w : QWord) (frame : List Byte) (tie : Bool) :
    (State.pipeTx s k p w frame tie).pending = s.pending ∧ (State.pipeTx s k p w frame tie).guards = s.guards := by
  grind [State.pipeTx, State.setPort_kept, State.pbMisroute_kept, State.pbCredit_kept, State.pipeReserve_kept, State.pbLength_kept, State.takeId_kept, State.unsent_kept, foldl_kept]

theorem State.compensate_kept (s : State) (old : List Byte) (new : List Byte) (o : ℕ) :
    (State.compensate s old new o).2.pending = s.pending ∧ (State.compensate s old new o).2.guards = s.guards := ⟨rfl, rfl⟩

theorem State.oneStep_kept (s : State) (f : List Byte) (o : ℕ) (t : Stamp) :
    (State.oneStep s f o t).2.pending = s.pending ∧ (State.oneStep s f o t).2.guards = s.guards := ⟨rfl, rfl⟩

theorem State.sendControl_kept (s : State) (p : ℕ) (frame : List Byte) :
    (State.sendControl s p frame).pending = s.pending ∧ (State.sendControl s p frame).guards = s.guards := ⟨rfl, rfl⟩

theorem State.buildPause_kept (s : State) (p : ℕ) :
    (State.buildPause s p).pending = s.pending ∧ (State.buildPause s p).guards = s.guards := by
  grind [State.buildPause, State.setPort_kept, State.sendControl_kept, State.event_kept, State.forEach_kept]

theorem State.sendPause_kept (s : State) (p : ℕ) :
    (State.sendPause s p).pending = s.pending ∧ (State.sendPause s p).guards = s.guards := by
  grind [State.sendPause, State.setPort_kept, State.buildPause_kept, foldl_kept]

theorem State.pauseDue_kept (s : State) (p : ℕ) :
    (State.pauseDue s p).pending = s.pending ∧ (State.pauseDue s p).guards = s.guards := by
  grind [State.pauseDue, State.buildPause_kept, foldl_kept]

theorem State.fillBuckets_kept (s : State) (n : ℕ) :
    (State.fillBuckets s n).pending = s.pending ∧ (State.fillBuckets s n).guards = s.guards := by
  simp [State.fillBuckets, State.setPort_kept, State.forEach_kept]

theorem State.noteRefusal_kept (s : State) (p : ℕ) (reason : Byte) :
    (State.noteRefusal s p reason).pending = s.pending ∧ (State.noteRefusal s p reason).guards = s.guards := by
  grind [State.noteRefusal, State.setPort_kept, foldl_kept]

theorem State.dropTx_kept (s : State) (p : ℕ) (fid : ℕ) :
    (State.dropTx s p fid).pending = s.pending ∧ (State.dropTx s p fid).guards = s.guards := ⟨rfl, rfl⟩

theorem State.refuseTx_kept (s : State) (p : ℕ) (f : TxFr) (reason : Byte) (word : ℕ) :
    (State.refuseTx s p f reason word).pending = s.pending ∧ (State.refuseTx s p f reason word).guards = s.guards := by
  simp [State.refuseTx, State.dropTx_kept, State.startReads_kept, State.noteRefusal_kept, State.unsent_kept]

theorem State.flushTx_kept (s : State) (p : ℕ) :
    (State.flushTx s p).pending = s.pending ∧ (State.flushTx s p).guards = s.guards := by
  simp [State.flushTx, State.refuseTx_kept, State.forEach_kept]

theorem State.txPoint_kept (s : State) (p : ℕ) :
    (State.txPoint s p).2.pending = s.pending ∧ (State.txPoint s p).2.guards = s.guards := by
  grind [State.txPoint, State.takeFree_kept, foldl_kept]

theorem State.txStamp_kept (s : State) (p : ℕ) :
    (State.txStamp s p).2.2.pending = s.pending ∧ (State.txStamp s p).2.2.guards = s.guards := by
  grind [State.txStamp, State.txPoint_kept, foldl_kept]

theorem State.ptpUpdate_kept (s : State) (f : TxFr) (bytes : List Byte) (t : Stamp) :
    (State.ptpUpdate s f bytes t).2.2.2.pending = s.pending ∧ (State.ptpUpdate s f bytes t).2.2.2.guards = s.guards := by
  grind [State.ptpUpdate, State.setTimeUnit_kept, State.compensate_kept, State.oneStep_kept, foldl_kept]

theorem State.secure_kept (s : State) (p : ℕ) (f : TxFr) (bytes : List Byte) :
    (State.secure s p f bytes).2.2.pending = s.pending ∧ (State.secure s p f bytes).2.2.guards = s.guards := by
  grind [State.secure, State.takePn_kept, State.countSec_kept, foldl_kept]

theorem State.startTx_kept (s : State) (p : ℕ) (pre : Bool) (f : TxFr) :
    (State.startTx s p pre f).pending = s.pending ∧ (State.startTx s p pre f).guards = s.guards := by
  grind [State.startTx, State.updInj_kept, State.txStamp_kept, State.setPort_kept, State.dropTx_kept, State.ptpUpdate_kept, State.secure_kept, State.emit_kept, foldl_kept]

theorem State.startHeld_kept (s : State) (p : ℕ) (pre : Bool) (f : TxFr) :
    (State.startHeld s p pre f).pending = s.pending ∧ (State.startHeld s p pre f).guards = s.guards := by
  grind [State.startHeld, State.updInj_kept, State.mirrorInj_kept, State.startTx_kept, foldl_kept]

theorem State.tryStart_kept (x1 : ℕ) (x2 : ℕ) (x3 : Bool) (x4 : State) :
    (State.tryStart x1 x2 x3 x4).pending = x4.pending ∧ (State.tryStart x1 x2 x3 x4).guards = x4.guards := by
  fun_induction State.tryStart x1 x2 x3 x4 <;> grind [State.startHeld_kept, State.refuseTx_kept, foldl_kept]

theorem State.txStart_kept (s : State) (p : ℕ) (pre : Bool) :
    (State.txStart s p pre).pending = s.pending ∧ (State.txStart s p pre).guards = s.guards := by
  grind [State.txStart, State.setPort_kept, State.tryStart_kept, State.emit_kept, foldl_kept]

theorem State.sendLast_kept (s : State) (p : ℕ) (f : TxFr) :
    (State.sendLast s p f).pending = s.pending ∧ (State.sendLast s p f).guards = s.guards := ⟨rfl, rfl⟩

theorem State.sendFragment_kept (s : State) (p : ℕ) (f : TxFr) (b : ℕ) :
    (State.sendFragment s p f b).pending = s.pending ∧ (State.sendFragment s p f b).guards = s.guards := ⟨rfl, rfl⟩

theorem State.sendCut_kept (s : State) (p : ℕ) (f : TxFr) :
    (State.sendCut s p f).pending = s.pending ∧ (State.sendCut s p f).guards = s.guards := ⟨rfl, rfl⟩

theorem State.preemptAt_kept (s : State) (p : ℕ) (b : ℕ) :
    (State.preemptAt s p b).pending = s.pending ∧ (State.preemptAt s p b).guards = s.guards := by
  grind [State.preemptAt, State.setPort_kept, State.pauseDue_kept, State.sendFragment_kept, State.emit_kept, State.event_kept, foldl_kept]

theorem State.countSent_kept (s : State) (p : ℕ) (f : TxFr) :
    (State.countSent s p f).pending = s.pending ∧ (State.countSent s p f).guards = s.guards := by
  grind [State.countSent, State.count_kept, State.event_kept, foldl_kept]

theorem State.reportSent_kept (s : State) (p : ℕ) (f : TxFr) :
    (State.reportSent s p f).pending = s.pending ∧ (State.reportSent s p f).guards = s.guards := by
  grind [State.reportSent, State.updInj_kept, State.injRecord_kept, State.mirrorInj_kept, State.pipeRecord_kept, foldl_kept]

theorem State.txEnd_kept (s : State) (p : ℕ) (pre : Bool) :
    (State.txEnd s p pre).pending = s.pending ∧ (State.txEnd s p pre).guards = s.guards := by
  grind [State.txEnd, State.setPort_kept, State.reportSent_kept, State.pauseDue_kept, State.countSent_kept, State.startReads_kept, State.sendLast_kept, State.zeroRetired_kept, State.emit_kept, foldl_kept]

theorem State.cutWire_kept (s : State) (p : ℕ) :
    (State.cutWire s p).pending = s.pending ∧ (State.cutWire s p).guards = s.guards := by
  grind [State.cutWire, State.setPort_kept, State.sendCut_kept, State.unsent_kept, State.zeroRetired_kept, State.emit_kept, foldl_kept]

end Machine
end Sys2Proof
end

