-- ==== Sys2Proof/Laws/KeptPorts.lean ====
section
/-! SUPPORT. Frames of ports, guards, Registry, collectives, reception and the tables: none of them touches the queue of commands, and none but
GUARDSET, GUARDLOCK, a cold reset and AON power-up touches the guard settings and their lock (R148). One lemma per function. -/

namespace Sys2Proof
namespace Machine

/-! ### Ports -/

theorem State.leaveUp_kept (s : State) (p : ℕ) :
    (State.leaveUp s p).pending = s.pending ∧ (State.leaveUp s p).guards = s.guards := by
  simp [State.leaveUp, State.cutWire_kept, State.setPort_kept, State.event_kept]

theorem State.sendVerify_kept (s : State) (p : ℕ) (respond : Bool) :
    (State.sendVerify s p respond).pending = s.pending ∧ (State.sendVerify s p respond).guards = s.guards := ⟨rfl, rfl⟩

theorem State.startVerify_kept (s : State) (p : ℕ) :
    (State.startVerify s p).pending = s.pending ∧ (State.startVerify s p).guards = s.guards := by
  grind [State.startVerify, State.setPort_kept, State.sendVerify_kept, foldl_kept]

theorem State.enterUp_kept (s : State) (p : ℕ) :
    (State.enterUp s p).pending = s.pending ∧ (State.enterUp s p).guards = s.guards := by
  grind [State.enterUp, State.startVerify_kept, State.setPort_kept, State.sendPause_kept, foldl_kept]

theorem State.dropArriving_kept (s : State) (p : ℕ) :
    (State.dropArriving s p).pending = s.pending ∧ (State.dropArriving s p).guards = s.guards := by
  grind [State.dropArriving, State.setSliceL_kept, State.forEach_kept]

theorem State.setLink_kept (s : State) (p : ℕ) (st : PortSt) :
    (State.setLink s p st).pending = s.pending ∧ (State.setLink s p st).guards = s.guards := by
  grind [State.setLink, State.leaveUp_kept, State.dropArriving_kept, State.setPort_kept, State.flushTx_kept, State.endBackground_kept, State.enterUp_kept, State.event_kept, foldl_kept]

theorem State.resetLanes_kept (s : State) (p : ℕ) :
    (State.resetLanes s p).pending = s.pending ∧ (State.resetLanes s p).guards = s.guards := by
  simp [State.resetLanes, State.setLane_kept, State.forEach_kept]

theorem State.dropLocks_kept (s : State) (ls : List ℕ) :
    (State.dropLocks s ls).pending = s.pending ∧ (State.dropLocks s ls).guards = s.guards := by
  grind [State.dropLocks, State.setLane_kept, State.setLink_kept, State.forEach_kept]

theorem State.loseLock_kept (s : State) (l : ℕ) :
    (State.loseLock s l).pending = s.pending ∧ (State.loseLock s l).guards = s.guards := by
  grind [State.loseLock, State.setPort_kept, State.setLane_kept, State.setLink_kept, State.event_kept, foldl_kept]

theorem runPortcfg_kept (x1 : ℕ) (x2 : BitVec 16) (i : Ins) (s : State) :
    (runPortcfg x1 x2 i s).state.pending = s.pending ∧ (runPortcfg x1 x2 i s).state.guards = s.guards := by
  grind [runPortcfg, State.resetLanes_kept, State.setPort_kept, Ran.bad_kept, Ran.ok_kept, foldl_kept, Ran.state, Ran.ok, Ran.bad]

theorem State.enablePort_kept (s : State) (p : ℕ) :
    (State.enablePort s p).pending = s.pending ∧ (State.enablePort s p).guards = s.guards := by
  grind [State.enablePort, State.setPort_kept, State.startPcs_kept, State.setLink_kept, foldl_kept]

theorem stepPortup_kept (i : Ins) (since : ℕ) (s : State) :
    (stepPortup i since s).state.pending = s.pending ∧ (stepPortup i since s).state.guards = s.guards := by
  grind [stepPortup, State.microPasses_kept, Ran.ok_kept, foldl_kept, Ran.state, Ran.ok, Ran.bad]

theorem runPortup_kept (x1 : ℕ) (queue : BitVec 16) (i : Ins) (s : State) :
    (runPortup x1 queue i s).state.pending = s.pending ∧ (runPortup x1 queue i s).state.guards = s.guards := by
  grind [runPortup, State.enablePort_kept, State.beginBackground_kept, Ran.bad_kept, Ran.ok_kept, foldl_kept, Ran.state, Ran.ok, Ran.bad]

theorem State.stopIntake_kept (s : State) (p : ℕ) :
    (State.stopIntake s p).pending = s.pending ∧ (State.stopIntake s p).guards = s.guards := by
  simp [State.stopIntake, State.setPort_kept, State.unsent_kept, State.forEach_kept]

theorem stepPortdown_kept (i : Ins) (phase : ℕ) (reported : ℕ) (s : State) :
    (stepPortdown i phase reported s).state.pending = s.pending ∧ (stepPortdown i phase reported s).state.guards = s.guards := by
  grind [stepPortdown, State.resetLanes_kept, State.cutWire_kept, State.setPort_kept, State.flushTx_kept, State.setLink_kept, Ran.ok_kept, foldl_kept, Ran.state, Ran.ok, Ran.bad]

theorem runPortdown_kept (x1 : ℕ) (x2 : BitVec 16) (i : Ins) (s : State) :
    (runPortdown x1 x2 i s).state.pending = s.pending ∧ (runPortdown x1 x2 i s).state.guards = s.guards := by
  grind [runPortdown, State.stopIntake_kept, Ran.bad_kept, Ran.ok_kept, foldl_kept, Ran.state, Ran.ok, Ran.bad]

theorem State.signalDetect_kept (s : State) (l : ℕ) (high : Bool) :
    (State.signalDetect s l high).pending = s.pending ∧ (State.signalDetect s l high).guards = s.guards := by
  grind [State.signalDetect, State.setLane_kept, State.event_kept, State.loseLock_kept, foldl_kept]

theorem State.gainLock_kept (s : State) (p : ℕ) (l : ℕ) (m : Marker) :
    (State.gainLock s p l m).pending = s.pending ∧ (State.gainLock s p l m).guards = s.guards := by
  grind [State.gainLock, State.setPort_kept, State.setLane_kept, foldl_kept]

theorem State.candidate_kept (s : State) (p : ℕ) (l : ℕ) (m : Marker) :
    (State.candidate s p l m).pending = s.pending ∧ (State.candidate s p l m).guards = s.guards := by
  grind [State.candidate, State.setLane_kept, State.gainLock_kept, foldl_kept]

theorem State.lockedMarker_kept (s : State) (p : ℕ) (l : ℕ) (m : Marker) :
    (State.lockedMarker s p l m).pending = s.pending ∧ (State.lockedMarker s p l m).guards = s.guards := by
  grind [State.lockedMarker, State.setPort_kept, State.setLane_kept, State.event_kept, State.loseLock_kept, foldl_kept]

theorem State.deskewStep_kept (s : State) (p : ℕ) :
    (State.deskewStep s p).pending = s.pending ∧ (State.deskewStep s p).guards = s.guards := by
  grind [State.deskewStep, State.setLane_kept, State.setLink_kept, State.event_kept, State.forEach_kept]

theorem State.marker_kept (s : State) (l : ℕ) (m : Marker) :
    (State.marker s l m).pending = s.pending ∧ (State.marker s l m).guards = s.guards := by
  grind [State.marker, State.candidate_kept, State.lockedMarker_kept, State.deskewStep_kept, foldl_kept]

theorem State.codeword_kept (s : State) (l : ℕ) (corrected : ℕ) (badBlocks : ℕ) (bad : Bool) :
    (State.codeword s l corrected badBlocks bad).pending = s.pending ∧ (State.codeword s l corrected badBlocks bad).guards = s.guards := by
  grind [State.codeword, State.setPort_kept, State.setLane_kept, State.count_kept, State.event_kept, State.loseLock_kept, foldl_kept]

theorem State.degradeInterval_kept (s : State) (p : ℕ) :
    (State.degradeInterval s p).pending = s.pending ∧ (State.degradeInterval s p).guards = s.guards := by
  grind [State.degradeInterval, State.setPort_kept, State.event_kept, foldl_kept]

theorem State.faultSets_kept (s : State) (p : ℕ) (remote : Bool) (present : Bool) :
    (State.faultSets s p remote present).pending = s.pending ∧ (State.faultSets s p remote present).guards = s.guards := by
  grind [State.faultSets, State.setPort_kept, State.setLink_kept, foldl_kept]

theorem State.calibrate_kept (s : State) (l : ℕ) (rx : BitVec 15) (tx : BitVec 15) :
    (State.calibrate s l rx tx).pending = s.pending ∧ (State.calibrate s l rx tx).guards = s.guards := by
  grind [State.calibrate, State.setLane_kept, foldl_kept]

theorem State.verifyTimer_kept (s : State) (p : ℕ) :
    (State.verifyTimer s p).pending = s.pending ∧ (State.verifyTimer s p).guards = s.guards := by
  grind [State.verifyTimer, State.setPort_kept, State.sendVerify_kept, State.event_kept, foldl_kept]

/-! ### Guards -/

theorem State.xoffChange_kept (s : State) (p : ℕ) (i : ℕ) (high : Bool) :
    (State.xoffChange s p i high).pending = s.pending ∧ (State.xoffChange s p i high).guards = s.guards := by
  grind [State.xoffChange, State.setPort_kept, State.sendPause_kept, foldl_kept]

theorem State.pfcRefresh_kept (s : State) (p : ℕ) (i : ℕ) :
    (State.pfcRefresh s p i).pending = s.pending ∧ (State.pfcRefresh s p i).guards = s.guards := by
  grind [State.pfcRefresh, State.sendPause_kept, foldl_kept]

theorem State.sentExpires_kept (s : State) (p : ℕ) (i : ℕ) :
    (State.sentExpires s p i).pending = s.pending ∧ (State.sentExpires s p i).guards = s.guards := by
  grind [State.sentExpires, State.setPort_kept, foldl_kept]

theorem State.pauseExpires_kept (s : State) (p : ℕ) (i : ℕ) :
    (State.pauseExpires s p i).pending = s.pending ∧ (State.pauseExpires s p i).guards = s.guards := by
  grind [State.pauseExpires, State.setPort_kept, foldl_kept]

theorem State.dutyClip_kept (s : State) (p : ℕ) (i : ℕ) :
    (State.dutyClip s p i).pending = s.pending ∧ (State.dutyClip s p i).guards = s.guards := by
  grind [State.dutyClip, State.setPort_kept, State.sendPause_kept, State.guardEvent_kept, State.event_kept, foldl_kept]

theorem State.honourLine_kept (s : State) (p : ℕ) :
    (State.honourLine s p).pending = s.pending ∧ (State.honourLine s p).guards = s.guards := by
  grind [State.honourLine, State.sendPause_kept, foldl_kept]

theorem State.dutyRelease_kept (s : State) (p : ℕ) (i : ℕ) :
    (State.dutyRelease s p i).pending = s.pending ∧ (State.dutyRelease s p i).guards = s.guards := by
  grind [State.dutyRelease, State.setPort_kept, State.guardEvent_kept, State.honourLine_kept, foldl_kept]

theorem State.stormRx_kept (s : State) (p : ℕ) (i : ℕ) :
    (State.stormRx s p i).pending = s.pending ∧ (State.stormRx s p i).guards = s.guards := by
  grind [State.stormRx, State.setPort_kept, State.guardEvent_kept, State.event_kept, foldl_kept]

theorem State.stormTxEngages_kept (s : State) (p : ℕ) (i : ℕ) :
    (State.stormTxEngages s p i).pending = s.pending ∧ (State.stormTxEngages s p i).guards = s.guards := by
  grind [State.stormTxEngages, State.setPort_kept, State.guardEvent_kept, State.event_kept, foldl_kept]

theorem State.stormTxFires_kept (s : State) (p : ℕ) (i : ℕ) :
    (State.stormTxFires s p i).pending = s.pending ∧ (State.stormTxFires s p i).guards = s.guards := by
  grind [State.stormTxFires, State.sendPause_kept, State.stormTxEngages_kept, State.forEach_kept]

theorem State.stormRelease_kept (s : State) (p : ℕ) (i : ℕ) (sent : Bool) :
    (State.stormRelease s p i sent).pending = s.pending ∧ (State.stormRelease s p i sent).guards = s.guards := by
  grind [State.stormRelease, State.setPort_kept, State.guardEvent_kept, State.honourLine_kept, foldl_kept]

theorem State.refusalReport_kept (s : State) (p : ℕ) (guard : Byte) :
    (State.refusalReport s p guard).pending = s.pending ∧ (State.refusalReport s p guard).guards = s.guards := by
  grind [State.refusalReport, State.setPort_kept, State.guardEvent_kept, foldl_kept]

theorem State.guardResult_kept (s : State) (g : GuardPort) (i : Ins) :
    (State.guardResult s g i).2.pending = s.pending ∧ (State.guardResult s g i).2.guards = s.guards := by
  grind [State.guardResult, State.takeFree_kept, foldl_kept]

theorem State.guardWrite_stays (s : State) (i : Ins) (p : Nat) (h : s.guards.locked = false) :
    GuardsStay s (s.guardWrite i p) ∧ (s.guardWrite i p).guards.locked = false := by
  have hs (v : GuardPort) := State.setGuardPort_stays s p v h
  have hl (v : GuardPort) : (s.setGuardPort p v).guards.locked = false := h
  unfold State.guardWrite; dsimp only; split
  · exact ⟨(hs _).trans (.of_kept (State.setPort_kept _ _ _)), hl _⟩
  · exact ⟨hs _, hl _⟩

theorem State.guardWrites_stay (s : State) (i : Ins) (l : List Nat) (h : s.guards.locked = false) :
    GuardsStay s (s.forEach l fun s p => s.guardWrite i p) := by
  unfold State.forEach
  induction l generalizing s with
  | nil => exact .refl s
  | cons a l ih => have := s.guardWrite_stays i a h; exact this.1.trans (ih _ this.2)

theorem runGuardset_stays (j : Nat) (q : BitVec 16) (i : Ins) (s : State) : GuardsStay s (runGuardset j q i s).state := by
  unfold runGuardset
  split
  · exact .refl s
  · split
    · exact .refl s
    · rename_i h
      exact (State.guardWrites_stay s i _ (by simpa using h)).trans (.of_kept (State.guardResult_kept _ _ _))

theorem runGuardlock_stays (j : Nat) (q : BitVec 16) (i : Ins) (s : State) : GuardsStay s (runGuardlock j q i s).state := by
  unfold runGuardlock
  split
  · exact .refl s
  · rename_i h; exact ⟨rfl, fun hl => absurd hl h, id⟩

/-! ### Sort -/

/-! ### Registry -/

theorem State.oweDelta_kept (s : State) (index : ℕ) (n : ℕ) (len : ℕ) (key : Option DWord) :
    (State.oweDelta s index n len key).pending = s.pending ∧ (State.oweDelta s index n len key).guards = s.guards := by
  grind [State.oweDelta, foldl_kept]

theorem State.setCache_kept (s : State) (c : List CacheLine) :
    (State.setCache s c).pending = s.pending ∧ (State.setCache s c).guards = s.guards := ⟨rfl, rfl⟩

theorem State.cacheLine_kept (s : State) (i : ℕ) :
    ∀ t, (State.cacheLine s i) = some t → t.pending = s.pending ∧ t.guards = s.guards := by
  grind [State.cacheLine, State.setCache_kept, State.writeBack_kept, foldl_kept]

theorem State.pinLine_kept (s : State) (i : ℕ) (up : Bool) :
    (State.pinLine s i up).pending = s.pending ∧ (State.pinLine s i up).guards = s.guards := ⟨rfl, rfl⟩

theorem State.updRx_kept (s : State) (fid : ℕ) (g : RxFr → RxFr) :
    (State.updRx s fid g).pending = s.pending ∧ (State.updRx s fid g).guards = s.guards := ⟨rfl, rfl⟩

theorem State.asUnsorted_kept (s : State) (fid : ℕ) (r : BitVec 3) :
    (State.asUnsorted s fid r).pending = s.pending ∧ (State.asUnsorted s fid r).guards = s.guards := ⟨rfl, rfl⟩

theorem State.asPair_kept (s : State) (fid : ℕ) (i : ℕ) :
    (State.asPair s fid i).pending = s.pending ∧ (State.asPair s fid i).guards = s.guards := by
  grind [State.asPair, State.cacheLine_kept, State.updRx_kept, State.asUnsorted_kept, State.pinLine_kept, foldl_kept]

theorem State.setProbes_kept (s : State) (ps : List Probe) :
    (State.setProbes s ps).pending = s.pending ∧ (State.setProbes s ps).guards = s.guards := ⟨rfl, rfl⟩

theorem State.makeWay_kept (s : State) (i : ℕ) :
    (State.makeWay s i).pending = s.pending ∧ (State.makeWay s i).guards = s.guards := by
  grind [State.makeWay, State.writeBack_kept, foldl_kept]

theorem State.askNext_kept (s : State) (c : ℕ) :
    (State.askNext s c).pending = s.pending ∧ (State.askNext s c).guards = s.guards := by
  grind [State.askNext, State.setProbes_kept, State.makeWay_kept, State.emit_kept, foldl_kept]

theorem State.resolve_kept (s : State) (fid : ℕ) (c : Class) :
    (State.resolve s fid c).pending = s.pending ∧ (State.resolve s fid c).guards = s.guards := by
  grind [State.resolve, State.updRx_kept, State.asPair_kept, State.setProbes_kept, State.asUnsorted_kept, State.askNext_kept, foldl_kept]

theorem State.endProbe_kept (s : State) (p : Probe) :
    (State.endProbe s p).pending = s.pending ∧ (State.endProbe s p).guards = s.guards := ⟨rfl, rfl⟩

theorem State.probeFails_kept (s : State) (p : Probe) (r : BitVec 3) :
    (State.probeFails s p r).pending = s.pending ∧ (State.probeFails s p r).guards = s.guards := by
  simp [State.probeFails, State.asUnsorted_kept, State.forEach_kept]

theorem State.probeFinds_kept (s : State) (p : Probe) (i : ℕ) :
    (State.probeFinds s p i).pending = s.pending ∧ (State.probeFinds s p i).guards = s.guards := by
  simp [State.probeFinds, State.asPair_kept, State.forEach_kept]

theorem State.absent_kept (s : State) (p : Probe) :
    (State.absent s p).pending = s.pending ∧ (State.absent s p).guards = s.guards := by
  grind [State.absent, State.probeFails_kept, State.cacheLine_kept, State.probeFinds_kept, State.setPairEntry_kept, State.takeFree_kept, State.oweDelta_kept, foldl_kept]

theorem State.uncorrectable_kept (s : State) (i : ℕ) :
    (State.uncorrectable s i).pending = s.pending ∧ (State.uncorrectable s i).guards = s.guards := by
  grind [State.uncorrectable, State.setReg_kept, State.emitGap_kept, State.setPairEntry_kept, State.takeFree_kept, State.oweDelta_kept, foldl_kept]

theorem State.probed_kept (s : State) (p : Probe) (bad : Bool) :
    (State.probed s p bad).pending = s.pending ∧ (State.probed s p bad).guards = s.guards := by
  grind [State.probed, State.setProbes_kept, State.probeFinds_kept, State.absent_kept, State.uncorrectable_kept, State.endProbe_kept, State.askNext_kept, foldl_kept]

theorem State.ledgerAnswer_kept (s : State) (tag : BitVec 11) (bad : Bool) :
    (State.ledgerAnswer s tag bad).pending = s.pending ∧ (State.ledgerAnswer s tag bad).guards = s.guards := by
  grind [State.ledgerAnswer, State.setReg_kept, State.probed_kept, foldl_kept]

theorem State.probeTimeout_kept (s : State) (tag : BitVec 11) :
    (State.probeTimeout s tag).pending = s.pending ∧ (State.probeTimeout s tag).guards = s.guards := by
  grind [State.probeTimeout, State.probeFails_kept, State.setProbes_kept, foldl_kept]

theorem State.ledgerLost_kept (s : State) (tag : BitVec 11) :
    (State.ledgerLost s tag).pending = s.pending ∧ (State.ledgerLost s tag).guards = s.guards := by
  grind [State.ledgerLost, State.setReg_kept, State.emitGap_kept, State.probeTimeout_kept, foldl_kept]

theorem State.setUnsorted_kept (s : State) (p : ℕ) (r : BitVec 3) (u : Unsorted) :
    (State.setUnsorted s p r u).pending = s.pending ∧ (State.setUnsorted s p r u).guards = s.guards := ⟨rfl, rfl⟩

theorem State.registryCount_kept (s : State) (f : RxFr) :
    (State.registryCount s f).pending = s.pending ∧ (State.registryCount s f).guards = s.guards := by
  grind [State.registryCount, State.setUnsorted_kept, State.setPairEntry_kept, State.oweDelta_kept, State.pinLine_kept, foldl_kept]

theorem State.releaseRes_kept (s : State) (f : RxFr) :
    (State.releaseRes s f).pending = s.pending ∧ (State.releaseRes s f).guards = s.guards := by
  grind [State.releaseRes, State.setProbes_kept, State.pinLine_kept, foldl_kept]

theorem State.leaveRx_kept (s : State) (fid : ℕ) :
    (State.leaveRx s fid).pending = s.pending ∧ (State.leaveRx s fid).guards = s.guards := ⟨rfl, rfl⟩

theorem State.dropRx_kept (s : State) (f : RxFr) (w : ℕ) :
    (State.dropRx s f w).pending = s.pending ∧ (State.dropRx s f w).guards = s.guards := by
  simp [State.dropRx, State.releaseRes_kept, State.leaveRx_kept, State.event_kept]

theorem State.ageVisit_kept (s : State) (i : ℕ) (bad : Bool) :
    (State.ageVisit s i bad).pending = s.pending ∧ (State.ageVisit s i bad).guards = s.guards := by
  grind [State.ageVisit, State.uncorrectable_kept, State.setPairEntry_kept, State.oweDelta_kept, foldl_kept]

theorem State.clearTable_kept (s : State) :
    (State.clearTable s).pending = s.pending ∧ (State.clearTable s).guards = s.guards := by
  grind [State.clearTable, State.setReg_kept, foldl_kept]

theorem State.writeBackAll_kept (s : State) :
    (State.writeBackAll s).pending = s.pending ∧ (State.writeBackAll s).guards = s.guards := by
  simp [State.writeBackAll, State.writeBack_kept, State.forEach_kept]

theorem State.discardCache_kept (s : State) :
    (State.discardCache s).pending = s.pending ∧ (State.discardCache s).guards = s.guards := by
  simp [State.discardCache, State.setCache_kept, State.recount_kept, State.forEach_kept]

theorem State.coldWriteback_kept (s : State) (ok : Bool) :
    (State.coldWriteback s ok).pending = s.pending ∧ (State.coldWriteback s ok).guards = s.guards := by
  grind [State.coldWriteback, State.setReg_kept, State.writeBackAll_kept, State.discardCache_kept, State.emitGap_kept, foldl_kept]

theorem State.sweepRecord_kept (s : State) (gen : BitVec 16) (body : List Byte) :
    (State.sweepRecord s gen body).pending = s.pending ∧ (State.sweepRecord s gen body).guards = s.guards := by
  simp [State.sweepRecord, State.genRecord_kept]

theorem State.sweepVisit_kept (s : State) (i : ℕ) (bad : Bool) :
    (State.sweepVisit s i bad).2.pending = s.pending ∧ (State.sweepVisit s i bad).2.guards = s.guards := by
  grind [State.sweepVisit, State.setReg_kept, State.uncorrectable_kept, State.setPairEntry_kept, State.sweepRecord_kept, foldl_kept]

theorem sweepList_kept (bad : List ℕ) (x2 : List ℕ) (x3 : State) :
    (sweepList bad x2 x3).2.pending = x3.pending ∧ (sweepList bad x2 x3).2.guards = x3.guards := by
  fun_induction sweepList bad x2 x3 <;> grind [State.sweepVisit_kept, foldl_kept]

theorem State.sweepBatch_kept (s : State) (bad : List ℕ) :
    (State.sweepBatch s bad).pending = s.pending ∧ (State.sweepBatch s bad).guards = s.guards := by
  grind [State.sweepBatch, State.setReg_kept, sweepList_kept, foldl_kept]

theorem State.closeItem_kept (s : State) (n : ℕ) :
    (State.closeItem s n).2.pending = s.pending ∧ (State.closeItem s n).2.guards = s.guards := by
  grind [State.closeItem, State.setReg_kept, State.setUnsorted_kept, State.sweepRecord_kept, foldl_kept]

theorem State.closeItems_kept (x1 : ℕ) (x2 : State) :
    (State.closeItems x1 x2).pending = x2.pending ∧ (State.closeItems x1 x2).guards = x2.guards := by
  fun_induction State.closeItems x1 x2 <;> grind [State.setReg_kept, State.closeItem_kept, foldl_kept]

theorem State.sweepPart_kept (s : State) (bad : List ℕ) :
    (State.sweepPart s bad).pending = s.pending ∧ (State.sweepPart s bad).guards = s.guards := by
  grind [State.sweepPart, State.setReg_kept, State.sweepBatch_kept, State.closeItems_kept, foldl_kept]

theorem State.readForWrite_kept (s : State) (n : ℕ) :
    (State.readForWrite s n).pending = s.pending ∧ (State.readForWrite s n).guards = s.guards := by
  grind [State.readForWrite, State.uncorrectable_kept, State.takeFree_kept, foldl_kept]

theorem State.pairwrOne_kept (s : State) (i : Ins) (n : ℕ) :
    (State.pairwrOne s i n).2.pending = s.pending ∧ (State.pairwrOne s i n).2.guards = s.guards := by
  grind [State.pairwrOne, State.setPairEntry_kept, State.oweDelta_kept, State.readForWrite_kept, foldl_kept]

theorem pairwrList_kept (i : Ins) (x2 : List ℕ) (x3 : ℕ) (x4 : ℕ) (x5 : State) :
    (pairwrList i x2 x3 x4 x5).2.2.pending = x5.pending ∧ (pairwrList i x2 x3 x4 x5).2.2.guards = x5.guards := by
  fun_induction pairwrList i x2 x3 x4 x5 <;> grind [State.pairwrOne_kept, foldl_kept]

theorem stepPairwr_kept (i : Ins) (done : ℕ) (written : ℕ) (skipped : ℕ) (s : State) :
    (stepPairwr i done written skipped s).state.pending = s.pending ∧ (stepPairwr i done written skipped s).state.guards = s.guards := by
  grind [stepPairwr, State.microPasses_kept, Ran.ok_kept, pairwrList_kept, foldl_kept, Ran.state, Ran.ok, Ran.bad]

theorem runPairwr_kept (x1 : ℕ) (x2 : BitVec 16) (i : Ins) (s : State) :
    (runPairwr x1 x2 i s).state.pending = s.pending ∧ (runPairwr x1 x2 i s).state.guards = s.guards := by
  grind [runPairwr, Ran.bad_kept, stepPairwr_kept, foldl_kept, Ran.state, Ran.ok, Ran.bad]

/-! ### Collective -/

theorem State.drainCheck_kept (s : State) (k : ℕ) :
    (State.drainCheck s k).pending = s.pending ∧ (State.drainCheck s k).guards = s.guards := by
  grind [State.drainCheck, State.setSliceL_kept, State.endBackground_kept, foldl_kept]

theorem State.inReception_kept (s : State) (k : ℕ) :
    (State.inReception s k).2.pending = s.pending ∧ (State.inReception s k).2.guards = s.guards := by
  grind [State.inReception, State.takeFree_kept, foldl_kept]

theorem State.swapOne_kept (s : State) (t : DWord) (queue : Option (BitVec 16)) (k : ℕ) :
    (State.swapOne s t queue k).pending = s.pending ∧ (State.swapOne s t queue k).guards = s.guards := by
  grind [State.swapOne, State.setSliceL_kept, State.drainCheck_kept, State.beginBackground_kept, State.inReception_kept, foldl_kept]

theorem State.beginShadow_kept (s : State) :
    (State.beginShadow s).pending = s.pending ∧ (State.beginShadow s).guards = s.guards := by
  grind [State.beginShadow, State.setCasc_kept, foldl_kept]

theorem State.switchEpoch_kept (s : State) (t : DWord) :
    (State.switchEpoch s t).pending = s.pending ∧ (State.switchEpoch s t).guards = s.guards := by
  simp [State.switchEpoch, State.setReg_kept, State.beginShadow_kept]

theorem State.setArmedEpoch_kept (s : State) (a : Option Armed) :
    (State.setArmedEpoch s a).pending = s.pending ∧ (State.setArmedEpoch s a).guards = s.guards := ⟨rfl, rfl⟩

theorem State.setArmedSnap_kept (s : State) (a : Option Armed) :
    (State.setArmedSnap s a).pending = s.pending ∧ (State.setArmedSnap s a).guards = s.guards := ⟨rfl, rfl⟩

theorem State.noteSwap_kept (s : State) (a : Armed) :
    (State.noteSwap s a).pending = s.pending ∧ (State.noteSwap s a).guards = s.guards := ⟨rfl, rfl⟩

theorem State.fireEpoch_kept (s : State) :
    (State.fireEpoch s).pending = s.pending ∧ (State.fireEpoch s).guards = s.guards := by
  grind [State.fireEpoch, State.setArmedEpoch_kept, State.swapOne_kept, State.noteSwap_kept, State.forEach_kept]

theorem State.fireSnap_kept (s : State) :
    (State.fireSnap s).pending = s.pending ∧ (State.fireSnap s).guards = s.guards := by
  grind [State.fireSnap, State.setArmedSnap_kept, State.switchEpoch_kept, foldl_kept]

theorem State.setColls_kept (s : State) (l : List Coll) :
    (State.setColls s l).pending = s.pending ∧ (State.setColls s l).guards = s.guards := ⟨rfl, rfl⟩

theorem State.updColl_kept (s : State) (issuer : BitVec 3) (cid : ℕ) (f : Coll → Coll) :
    (State.updColl s issuer cid f).pending = s.pending ∧ (State.updColl s issuer cid f).guards = s.guards := ⟨rfl, rfl⟩

theorem State.memberArm_kept (s : State) (c : Coll) :
    (State.memberArm s c).pending = s.pending ∧ (State.memberArm s c).guards = s.guards := by
  grind [State.memberArm, State.setArmedSnap_kept, State.updColl_kept, State.setColls_kept, State.setArmedEpoch_kept, foldl_kept]

theorem State.memberHold_kept (s : State) (issuer : BitVec 3) (cid : ℕ) :
    (State.memberHold s issuer cid).pending = s.pending ∧ (State.memberHold s issuer cid).guards = s.guards := by
  grind [State.memberHold, State.setArmedSnap_kept, State.setArmedEpoch_kept, foldl_kept]

theorem State.disarmColl_kept (s : State) (issuer : BitVec 3) (cid : ℕ) :
    (State.disarmColl s issuer cid).pending = s.pending ∧ (State.disarmColl s issuer cid).guards = s.guards := by
  grind [State.disarmColl, State.setArmedSnap_kept, State.setArmedEpoch_kept, foldl_kept]

theorem State.noteCollEnd_kept (s : State) (op : Option Byte) :
    (s.noteCollEnd op).pending = s.pending ∧ (s.noteCollEnd op).guards = s.guards := by
  unfold State.noteCollEnd; split <;> exact ⟨rfl, rfl⟩

theorem State.memberEnded_kept (s : State) (issuer : BitVec 3) (cid : ℕ) (status : Byte) (t : DWord) (map : Byte) :
    (State.memberEnded s issuer cid status t map).pending = s.pending ∧ (State.memberEnded s issuer cid status t map).guards = s.guards := by
  grind [State.memberEnded, State.noteCollEnd_kept, State.setCasc_kept, State.setColls_kept, State.disarmColl_kept, foldl_kept]

theorem State.toMembers_kept (s : State) (mask : Byte) (m : CollMsg) :
    (State.toMembers s mask m).pending = s.pending ∧ (State.toMembers s mask m).guards = s.guards := by
  simp [State.toMembers, State.sendFlit_kept]

theorem State.headArm_kept (s : State) (c : Coll) :
    (State.headArm s c).pending = s.pending ∧ (State.headArm s c).guards = s.guards := by
  grind [State.headArm, State.memberArm_kept, State.toMembers_kept, foldl_kept]

theorem State.headEnd_kept (s : State) (c : Coll) (status : Byte) (t : DWord) :
    (State.headEnd s c status t).pending = s.pending ∧ (State.headEnd s c status t).guards = s.guards := by
  simp [State.headEnd, State.memberEnded_kept, State.toMembers_kept]

theorem State.headStart_kept (s : State) (c : Coll) : (s.headStart c).pending = s.pending ∧ (s.headStart c).guards = s.guards := by
  unfold State.headStart
  extract_lets c ended go
  have h (c : Coll) : (go c).pending = s.pending ∧ (go c).guards = s.guards := by
    dsimp only [go]
    split
    · exact s.headEnd_kept _ _ _
    · split <;> exact State.headArm_kept _ _
  split
  · exact h _
  · split
    · exact h _
    · split
      · exact h _
      · split
        · exact h _
        · exact s.headEnd_kept _ _ _

theorem State.headNext_kept (s : State) (op : Byte) :
    (State.headNext s op).pending = s.pending ∧ (State.headNext s op).guards = s.guards := by
  grind [State.headNext, State.setCasc_kept, State.headStart_kept, foldl_kept]

theorem State.headCheck_kept (s : State) (issuer : BitVec 3) (cid : ℕ) :
    (State.headCheck s issuer cid).pending = s.pending ∧ (State.headCheck s issuer cid).guards = s.guards := by
  grind [State.headCheck, State.headEnd_kept, State.headNext_kept, foldl_kept]

theorem State.headRelease_kept (s : State) (c : Coll) : (s.headRelease c).pending = s.pending ∧ (s.headRelease c).guards = s.guards := by
  have h (t : State) := t.headArm_kept
  have h' (g) := s.updColl_kept c.issuer c.cid g
  unfold State.headRelease
  split
  · exact ⟨rfl, rfl⟩
  · split
    · exact h s c
    · exact ⟨(h _ _).1.trans (h' _).1, (h _ _).2.trans (h' _).2⟩

theorem State.noteReport_kept (s : State) (src : BitVec 3) (issuer : BitVec 3) (cid : ℕ) :
    (State.noteReport s src issuer cid).pending = s.pending ∧ (State.noteReport s src issuer cid).guards = s.guards := by
  grind [State.noteReport, State.setCasc_kept, foldl_kept]

theorem State.headTake_kept (s : State) (src : BitVec 3) (x3 : CollMsg) :
    (State.headTake s src x3).pending = s.pending ∧ (State.headTake s src x3).guards = s.guards := by
  unfold State.headTake; (repeat' split) <;> grind [State.setCasc_kept, State.updColl_kept, State.memberHold_kept, State.noteReport_kept, State.toMembers_kept, State.headCheck_kept, State.headStart_kept, State.headRelease_kept, foldl_kept]

theorem State.toHead_kept (s : State) (m : CollMsg) :
    (State.toHead s m).pending = s.pending ∧ (State.toHead s m).guards = s.guards := by
  grind [State.toHead, State.sendFlit_kept, State.headTake_kept, foldl_kept]

theorem State.headLose_kept (s : State) (m : BitVec 3) :
    (State.headLose s m).pending = s.pending ∧ (State.headLose s m).guards = s.guards := by
  grind [State.headLose, State.updColl_kept, State.headCheck_kept, State.headRelease_kept, State.forEach_kept]

theorem State.report_kept (s : State) (issuer : BitVec 3) (cid : ℕ) :
    (State.report s issuer cid).pending = s.pending ∧ (State.report s issuer cid).guards = s.guards := by
  grind [State.report, State.sendFlit_kept, State.updColl_kept, State.noteReport_kept, State.toHead_kept, foldl_kept]

theorem State.armMember_kept (s : State) (c : Coll) :
    (State.armMember s c).pending = s.pending ∧ (State.armMember s c).guards = s.guards := by
  grind [State.armMember, State.setArmedSnap_kept, State.setArmedEpoch_kept, foldl_kept]

theorem State.serveColl_kept (s : State) (c : Coll) :
    (State.serveColl s c).pending = s.pending ∧ (State.serveColl s c).guards = s.guards := by
  grind [State.serveColl, State.armMember_kept, State.setArmedSnap_kept, State.report_kept, State.updColl_kept, State.setArmedEpoch_kept, State.toHead_kept, foldl_kept]

theorem State.releaseLocal_kept (s : State) :
    (State.releaseLocal s).pending = s.pending ∧ (State.releaseLocal s).guards = s.guards := by
  grind [State.releaseLocal, State.setArmedSnap_kept, State.setArmedEpoch_kept, foldl_kept]

theorem State.readiness_kept (s : State) :
    (State.readiness s).pending = s.pending ∧ (State.readiness s).guards = s.guards := by
  grind [State.readiness, State.releaseLocal_kept, State.serveColl_kept, State.forEach_kept]

theorem State.drained_kept (s : State) (k : ℕ) :
    (State.drained s k).pending = s.pending ∧ (State.drained s k).guards = s.guards := by
  grind [State.drained, State.readiness_kept, State.drainCheck_kept, foldl_kept]

theorem State.fireDue_kept (s : State) (snap : Bool) :
    (State.fireDue s snap).pending = s.pending ∧ (State.fireDue s snap).guards = s.guards := by
  grind [State.fireDue, State.fireSnap_kept, State.readiness_kept, State.fireEpoch_kept, foldl_kept]

theorem State.issueColl_kept (s : State) (jid : ℕ) (queue : BitVec 16) (op : Byte) (a : Word) (target : BitVec 16) (b : DWord) (waited : Bool) :
    (State.issueColl s jid queue op a target b waited).pending = s.pending ∧ (State.issueColl s jid queue op a target b waited).guards = s.guards := by
  simp [State.issueColl, State.readiness_kept, State.setCasc_kept, State.toHead_kept]

theorem State.dropIssued_kept (s : State) (jid : ℕ) :
    (State.dropIssued s jid).pending = s.pending ∧ (State.dropIssued s jid).guards = s.guards := ⟨rfl, rfl⟩

theorem epochEnds_kept (jid : ℕ) (i : Ins) (lead : ℕ) (s : State) :
    (epochEnds jid i lead s).state.pending = s.pending ∧ (epochEnds jid i lead s).state.guards = s.guards := by
  grind [epochEnds, State.microPasses_kept, State.readiness_kept, State.dropIssued_kept, State.setCasc_kept, State.setArmedEpoch_kept, foldl_kept, Ran.state, Ran.ok, Ran.bad]

theorem epochBegins_kept (jid : Nat) (queue : BitVec 16) (i : Ins) (lead : Nat) (waited : Bool) (s : State) :
    (epochBegins jid queue i lead waited s).state.pending = s.pending ∧ (epochBegins jid queue i lead waited s).state.guards = s.guards := by
  have h (t : State) := epochEnds_kept jid i lead t
  have hf (a) := (s.setArmedEpoch a).fireEpoch_kept
  unfold epochBegins
  extract_lets a
  clear_value a
  split
  · exact s.issueColl_kept ..
  · split
    · exact ⟨(h _).1.trans (hf _).1, (h _).2.trans (hf _).2⟩
    · split
      · exact ⟨rfl, rfl⟩
      · split <;> exact ⟨rfl, rfl⟩

theorem stepEpoch_kept (jid : ℕ) (queue : BitVec 16) (i : Ins) (phase : ℕ) (lead : ℕ) (s : State) :
    (stepEpoch jid queue i phase lead s).state.pending = s.pending ∧ (stepEpoch jid queue i phase lead s).state.guards = s.guards := by
  grind [stepEpoch, State.fireDue_kept, State.microPasses_kept, epochBegins_kept, epochEnds_kept, foldl_kept, Ran.state, Ran.ok, Ran.bad]

theorem runEpoch_kept (jid : ℕ) (queue : BitVec 16) (i : Ins) (s : State) :
    (runEpoch jid queue i s).state.pending = s.pending ∧ (runEpoch jid queue i s).state.guards = s.guards := by
  grind [runEpoch, Ran.bad_kept, epochBegins_kept, foldl_kept, Ran.state, Ran.ok, Ran.bad]

theorem snapEnds_kept (jid : ℕ) (i : Ins) (lead : ℕ) (s : State) :
    (snapEnds jid i lead s).state.pending = s.pending ∧ (snapEnds jid i lead s).state.guards = s.guards := by
  grind [snapEnds, State.microPasses_kept, State.readiness_kept, State.dropIssued_kept, State.setCasc_kept, State.setArmedSnap_kept, foldl_kept, Ran.state, Ran.ok, Ran.bad]

theorem snapBegins_kept (jid : Nat) (queue : BitVec 16) (i : Ins) (lead : Nat) (waited : Bool) (s : State) :
    (snapBegins jid queue i lead waited s).state.pending = s.pending ∧ (snapBegins jid queue i lead waited s).state.guards = s.guards := by
  have h (t : State) := snapEnds_kept jid i lead t
  have hf (a) := (s.setArmedSnap a).fireSnap_kept
  unfold snapBegins
  extract_lets a
  clear_value a
  split
  · exact s.issueColl_kept ..
  · split
    · exact ⟨(h _).1.trans (hf _).1, (h _).2.trans (hf _).2⟩
    · split
      · exact ⟨rfl, rfl⟩
      · split <;> exact ⟨rfl, rfl⟩

theorem stepSnap_kept (jid : ℕ) (queue : BitVec 16) (i : Ins) (phase : ℕ) (lead : ℕ) (s : State) :
    (stepSnap jid queue i phase lead s).state.pending = s.pending ∧ (stepSnap jid queue i phase lead s).state.guards = s.guards := by
  grind [stepSnap, State.fireDue_kept, State.microPasses_kept, snapBegins_kept, snapEnds_kept, foldl_kept, Ran.state, Ran.ok, Ran.bad]

theorem runSnap_kept (jid : ℕ) (queue : BitVec 16) (i : Ins) (s : State) :
    (runSnap jid queue i s).state.pending = s.pending ∧ (runSnap jid queue i s).state.guards = s.guards := by
  grind [runSnap, snapBegins_kept, Ran.bad_kept, foldl_kept, Ran.state, Ran.ok, Ran.bad]

theorem State.sweepOn_kept (s : State) (uncorrectable : List ℕ) :
    (State.sweepOn s uncorrectable).pending = s.pending ∧ (State.sweepOn s uncorrectable).guards = s.guards := by
  grind [State.sweepOn, State.readiness_kept, State.sweepPart_kept, foldl_kept]

theorem stepFence_kept (jid : ℕ) (i : Ins) (since : ℕ) (dirty : List ℕ) (recs : List (ℕ × ℕ)) (before : ℕ) (s : State) :
    (stepFence jid i since dirty recs before s).state.pending = s.pending ∧ (stepFence jid i since dirty recs before s).state.guards = s.guards := by
  grind [stepFence, State.microPasses_kept, State.readiness_kept, State.dropIssued_kept, Ran.ok_kept, foldl_kept, Ran.state, Ran.ok, Ran.bad]

theorem runFence_kept (jid : ℕ) (queue : BitVec 16) (i : Ins) (s : State) :
    (runFence jid queue i s).state.pending = s.pending ∧ (runFence jid queue i s).state.guards = s.guards := by
  grind [runFence, State.issueColl_kept, Ran.bad_kept, stepFence_kept, foldl_kept, Ran.state, Ran.ok, Ran.bad]

/-! ### Receive -/

theorem State.macControl_kept (s : State) (p : ℕ) (f : List Byte) :
    (State.macControl s p f).pending = s.pending ∧ (State.macControl s p f).guards = s.guards := by
  grind [State.macControl, State.setPort_kept, State.event_kept, State.forEach_kept]

theorem State.takeIn_kept (s : State) (p : ℕ) (k : ℕ) (f : RxFrame) (plain : List Byte) (macsec : Bool) :
    (State.takeIn s p k f plain macsec).pending = s.pending ∧ (State.takeIn s p k f plain macsec).guards = s.guards := ⟨rfl, rfl⟩

theorem validateTagged_kept (s : State) (p : Nat) (f : List Byte) (wire : Nat) :
   ∀ a b t, validateTagged s p f wire = .pass a b t → t.pending = s.pending ∧ t.guards = s.guards := by
  unfold validateTagged
  grind [State.countSec_kept, State.count_kept, State.setKeySlot_kept]

theorem validateRx_kept (s : State) (p : Nat) (f : List Byte) (wire : Nat) :
   ∀ a b t, validateRx s p f wire = .pass a b t → t.pending = s.pending ∧ t.guards = s.guards := by
  have h := validateTagged_kept s p f wire
  unfold validateRx
  grind [State.countSec_kept]

theorem State.accepted_kept (s : State) (p : ℕ) (k : ℕ) (f : RxFrame) (body : List Byte) :
    (State.accepted s p k f body).pending = s.pending ∧ (State.accepted s p k f body).guards = s.guards := by
  grind [State.accepted, State.countCompat_kept, State.takeIn_kept, validateRx_kept, State.macControl_kept, State.countSec_kept, foldl_kept]

theorem State.arrived_kept (s : State) (k : ℕ) (p : ℕ) (pre : Bool) :
    (State.arrived s k p pre).pending = s.pending ∧ (State.arrived s k p pre).guards = s.guards := by
  grind [State.arrived, State.setSliceL_kept, foldl_kept]

theorem State.receive_kept (s : State) (p : ℕ) (f : RxFrame) :
    (State.receive s p f).pending = s.pending ∧ (State.receive s p f).guards = s.guards := by
  grind [State.receive, State.setPort_kept, State.accepted_kept, State.arrived_kept, State.count_kept, State.event_kept, State.drained_kept, foldl_kept]

theorem State.sortEvents_kept (s : State) (k : ℕ) (p : ℕ) (c : Sorted) :
    (State.sortEvents s k p c).pending = s.pending ∧ (State.sortEvents s k p c).guards = s.guards := by
  grind [State.sortEvents, State.eventSlice_kept, State.event_kept, foldl_kept]

theorem State.parseWire_kept (s : State) (k : ℕ) (f : RxFr) :
    (State.parseWire s k f).pending = s.pending ∧ (State.parseWire s k f).guards = s.guards := by
  grind [State.parseWire, State.updRx_kept, State.sortEvents_kept, State.dropRx_kept, State.resolve_kept, State.drained_kept, foldl_kept]

theorem State.parseRecirc_kept (s : State) (k : ℕ) (f : RxFr) :
    (State.parseRecirc s k f).pending = s.pending ∧ (State.parseRecirc s k f).guards = s.guards := by
  grind [State.parseRecirc, State.eventSlice_kept, State.drained_kept, foldl_kept]

theorem State.setSlots_kept (s : State) (k : ℕ) (n : ℕ) :
    (State.setSlots s k n).pending = s.pending ∧ (State.setSlots s k n).guards = s.guards := ⟨rfl, rfl⟩

theorem State.parseNext_kept (s : State) (k : ℕ) :
    (State.parseNext s k).pending = s.pending ∧ (State.parseNext s k).guards = s.guards := by
  grind [State.parseNext, State.parseWire_kept, State.setSlots_kept, State.parseRecirc_kept, foldl_kept]

theorem State.markReplica_kept (s : State) (k : ℕ) (words : List ℕ) :
    (State.markReplica s k words).pending = s.pending ∧ (State.markReplica s k words).guards = s.guards := ⟨rfl, rfl⟩

theorem State.countWraps_kept (s : State) (p : ℕ) (len : ℕ) :
    (State.countWraps s p len).pending = s.pending ∧ (State.countWraps s p len).guards = s.guards := ⟨rfl, rfl⟩

theorem State.acceptRx_kept (s : State) (f : RxFr) :
    (State.acceptRx s f).pending = s.pending ∧ (State.acceptRx s f).guards = s.guards := by
  grind [State.acceptRx, State.registryCount_kept, State.countWraps_kept, State.count_kept, State.event_kept, foldl_kept]

theorem State.cross_kept (s : State) (k : ℕ) (f : RxFr) (again : Bool) :
    (State.cross s k f again).pending = s.pending ∧ (State.cross s k f again).guards = s.guards := ⟨rfl, rfl⟩

theorem State.handOver_kept (s : State) (k : ℕ) (f : RxFr) :
    (State.handOver s k f).pending = s.pending ∧ (State.handOver s k f).guards = s.guards := by
  grind [State.handOver, State.cross_kept, State.updRx_kept, State.leaveRx_kept, State.acceptRx_kept, State.drained_kept, foldl_kept]

theorem State.handBack_kept (s : State) (k : ℕ) (f : RxFr) :
    (State.handBack s k f).pending = s.pending ∧ (State.handBack s k f).guards = s.guards := by
  simp [State.handBack, State.cross_kept, State.emit_kept, State.drained_kept]

theorem State.handNext_kept (s : State) (k : ℕ) :
    (State.handNext s k).pending = s.pending ∧ (State.handNext s k).guards = s.guards := by
  grind [State.handNext, State.handOver_kept, State.handBack_kept, foldl_kept]

theorem State.puntWrites_kept (s : State) (q : ℕ) (x : Queue) (f : RxFr) (n : ℕ) :
    (State.puntWrites s q x f n).pending = s.pending ∧ (State.puntWrites s q x f n).guards = s.guards := by
  simp [State.puntWrites, State.queueWrite_kept, State.forEach_kept]

theorem State.puntPhase_kept (s : State) (q : ℕ) (x : Queue) (fid : ℕ) (first : RIdx) (i : ℕ) (n : ℕ) :
    (State.puntPhase s q x fid first i n).pending = s.pending ∧ (State.puntPhase s q x fid first i n).guards = s.guards := by
  grind [State.puntPhase, State.updRx_kept, State.queueWrite_kept, State.moderate_kept, foldl_kept]

theorem State.puntStart_kept (s : State) (q : ℕ) (x : Queue) (f : RxFr) :
    (State.puntStart s q x f).pending = s.pending ∧ (State.puntStart s q x f).guards = s.guards := by
  simp [State.puntStart, State.setQueue_kept, State.updRx_kept, State.puntWrites_kept]

theorem State.puntDrop_kept (s : State) (f : RxFr) :
    (State.puntDrop s f).pending = s.pending ∧ (State.puntDrop s f).guards = s.guards := by
  grind [State.puntDrop, State.leaveRx_kept, State.dropRx_kept, State.event_kept, foldl_kept]

theorem State.puntDone_kept (s : State) (f : RxFr) :
    (State.puntDone s f).pending = s.pending ∧ (State.puntDone s f).guards = s.guards := by
  grind [State.puntDone, State.leaveRx_kept, State.acceptRx_kept, State.event_kept, State.drained_kept, foldl_kept]

theorem State.puntFailed_kept (s : State) (q : ℕ) (idx : RIdx) :
    (State.puntFailed s q idx).pending = s.pending ∧ (State.puntFailed s q idx).guards = s.guards := by
  grind [State.puntFailed, State.setQueue_kept, State.setDma_kept, State.queueFault_kept, State.puntDrop_kept, State.drained_kept, State.forEach_kept]

theorem State.puntAnswered_kept (s : State) (fid : ℕ) :
    (State.puntAnswered s fid).pending = s.pending ∧ (State.puntAnswered s fid).guards = s.guards := by
  grind [State.puntAnswered, State.puntPhase_kept, State.puntDrop_kept, State.puntDone_kept, State.drained_kept, foldl_kept]

theorem State.puntTakenBack_kept (s : State) (f : RxFr) :
    (State.puntTakenBack s f).pending = s.pending ∧ (State.puntTakenBack s f).guards = s.guards := by
  grind [State.puntTakenBack, State.setQueue_kept, State.setDma_kept, foldl_kept]

theorem State.puntNext_kept (s : State) (k : ℕ) :
    (State.puntNext s k).pending = s.pending ∧ (State.puntNext s k).guards = s.guards := by
  grind [State.puntNext, State.puntStart_kept, State.puntDrop_kept, State.drained_kept, foldl_kept]

theorem State.recirculate_kept (s : State) (k : ℕ) (p : ℕ) (frame : List Byte) (w : QWord) :
    (State.recirculate s k p frame w).pending = s.pending ∧ (State.recirculate s k p frame w).guards = s.guards := by
  grind [State.recirculate, State.pbMisroute_kept, State.pbCredit_kept, State.handBack_kept, State.parseRecirc_kept, State.takeId_kept, State.emit_kept, State.event_kept, foldl_kept]

theorem State.creditReturn_kept (s : State) (k : ℕ) (n : ℕ) :
    (State.creditReturn s k n).pending = s.pending ∧ (State.creditReturn s k n).guards = s.guards := by
  grind [State.creditReturn, State.pbCredit_kept, foldl_kept]

theorem State.setHeld_kept (s : State) (k : ℕ) (bank : BitVec 1) (v : Bool) :
    (State.setHeld s k bank v).pending = s.pending ∧ (State.setHeld s k bank v).guards = s.guards := ⟨rfl, rfl⟩

theorem State.freeFrames_kept (s : State) (which : RxFr → Bool) :
    (State.freeFrames s which).pending = s.pending ∧ (State.freeFrames s which).guards = s.guards := by
  grind [State.freeFrames, State.puntTakenBack_kept, State.dropRx_kept, State.puntDrop_kept, State.puntDone_kept, State.drained_kept, State.forEach_kept]

theorem State.freeStaging_kept (s : State) (ps : List ℕ) :
    (State.freeStaging s ps).pending = s.pending ∧ (State.freeStaging s ps).guards = s.guards := by
  simp [State.freeStaging, State.freeFrames_kept]

theorem State.dropRecirc_kept (s : State) (which : ℕ → Bool) :
    (State.dropRecirc s which).pending = s.pending ∧ (State.dropRecirc s which).guards = s.guards := by
  simp [State.dropRecirc, State.pbLost_kept, foldl_kept]

/-! ### TableWrite -/

theorem TableKind.write_kept (t : TableKind) (ks : List Nat) (n m : Nat) (bs : List Byte) (s : State) :
    (t.write ks n m bs s).pending = s.pending ∧ (t.write ks n m bs s).guards = s.guards :=
  State.forEach_kept _ _ _ fun _ _ => ⟨rfl, rfl⟩

theorem TableKind.step_kept (t : TableKind) (jid : Nat) (i : Ins) (ks : List Nat) (done : Nat) (s : State) :
    (t.step jid i ks done s).state.pending = s.pending ∧ (t.step jid i ks done s).state.guards = s.guards := by
  grind [TableKind.step, Ran.state, Ran.ok, Ran.bad, State.fetchHost_kept, Fetched.state, TableKind.write_kept]

theorem State.rulewrEnds_kept (s : State) (jid : ℕ) (ks : List ℕ) :
    (State.rulewrEnds s jid ks).pending = s.pending ∧ (State.rulewrEnds s jid ks).guards = s.guards := by
  simp [State.rulewrEnds, State.readiness_kept, State.setSliceL_kept, State.forEach_kept]

theorem stepRulewr_kept (jid : Nat) (i : Ins) (ks : List Nat) (done : Nat) (s : State) :
    (stepRulewr jid i ks done s).state.pending = s.pending ∧ (stepRulewr jid i ks done s).state.guards = s.guards := by
  have h := TableKind.step_kept rules jid i ks done s
  unfold stepRulewr
  split
  · exact State.microPasses_kept s
  · revert h; cases rules.step jid i ks done s <;> intro h
    · have h'' := fun s' => State.rulewrEnds_kept s' jid ks
      exact ⟨(h'' _).1.trans h.1, (h'' _).2.trans h.2⟩
    · exact h
    · exact h
    · exact h

theorem runRulewr_kept (jid : ℕ) (x2 : BitVec 16) (i : Ins) (s : State) :
    (runRulewr jid x2 i s).state.pending = s.pending ∧ (runRulewr jid x2 i s).state.guards = s.guards := by
  grind [runRulewr, stepRulewr_kept, State.setSliceL_kept, Ran.bad_kept, State.forEach_kept, Ran.state, Ran.ok, Ran.bad]

theorem runBindwr_kept (jid : ℕ) (x2 : BitVec 16) (i : Ins) (s : State) :
    (runBindwr jid x2 i s).state.pending = s.pending ∧ (runBindwr jid x2 i s).state.guards = s.guards := by
  grind [runBindwr, TableKind.step_kept, Ran.bad_kept, foldl_kept, Ran.state, Ran.ok, Ran.bad]

theorem runPattwr_kept (jid : ℕ) (x2 : BitVec 16) (i : Ins) (s : State) :
    (runPattwr jid x2 i s).state.pending = s.pending ∧ (runPattwr jid x2 i s).state.guards = s.guards := by
  grind [runPattwr, TableKind.step_kept, Ran.bad_kept, foldl_kept, Ran.state, Ran.ok, Ran.bad]

theorem State.reloadReplica_kept (s : State) (k : ℕ) (w : ℕ) :
    (State.reloadReplica s k w).pending = s.pending ∧ (State.reloadReplica s k w).guards = s.guards := ⟨rfl, rfl⟩

/-! ### Statistics -/

theorem State.statClear_kept (s : State) (set : ℕ) (unit : ℕ) :
    (State.statClear s set unit).pending = s.pending ∧ (State.statClear s set unit).guards = s.guards := by
  grind [State.statClear, State.setStats_kept, State.forEach_kept]

theorem State.statWrite_kept (s : State) (jid : ℕ) (base : HostAddr) (b : List Byte) :
    (State.statWrite s jid base b).pending = s.pending ∧ (State.statWrite s jid base b).guards = s.guards := by
  simp [State.statWrite, State.updEntry_kept, State.queueWrite_kept]

theorem stepStatread_kept (jid : ℕ) (i : Ins) (unit : ℕ) (bytes : ℕ) (s : State) :
    (stepStatread jid i unit bytes s).state.pending = s.pending ∧ (stepStatread jid i unit bytes s).state.guards = s.guards := by
  grind [stepStatread, State.statClear_kept, State.statWrite_kept, State.updEntry_kept, Ran.ok_kept, foldl_kept, Ran.state, Ran.ok, Ran.bad]

theorem runStatread_kept (jid : ℕ) (x2 : BitVec 16) (i : Ins) (s : State) :
    (runStatread jid x2 i s).state.pending = s.pending ∧ (runStatread jid x2 i s).state.guards = s.guards := by
  grind [runStatread, Ran.bad_kept, stepStatread_kept, foldl_kept, Ran.state, Ran.ok, Ran.bad]

end Machine
end Sys2Proof
end

