-- ==== Sys2Proof/Laws/KeptPower.lean ====
section
/-! SUPPORT. Frames of power, time, faults, resets, the control store and the DMA channels: none of them touches the queue of commands, and none but
GUARDSET, GUARDLOCK, a cold reset and AON power-up touches the guard settings and their lock (R148). One lemma per function. -/

namespace Sys2Proof
namespace Machine

/-! ### Power -/

theorem State.losePigeonholes_kept (s : State) :
    (State.losePigeonholes s).pending = s.pending ∧ (State.losePigeonholes s).guards = s.guards := ⟨rfl, rfl⟩

theorem State.rewriteCompletions_kept (s : State) :
    (State.rewriteCompletions s).pending = s.pending ∧ (State.rewriteCompletions s).guards = s.guards := by
  grind [State.rewriteCompletions, State.place_kept, State.postEverything_kept, State.forEach_kept]

theorem State.loseFetches_kept (s : State) :
    (State.loseFetches s).pending = s.pending ∧ (State.loseFetches s).guards = s.guards := ⟨rfl, rfl⟩

theorem State.hostLoses_kept (s : State) :
    (State.hostLoses s).pending = s.pending ∧ (State.hostLoses s).guards = s.guards := ⟨rfl, rfl⟩

theorem State.regLoses_kept (s : State) :
    (State.regLoses s).pending = s.pending ∧ (State.regLoses s).guards = s.guards := ⟨rfl, rfl⟩

theorem State.sliceDrops_kept (s : State) (k : Nat) : (s.sliceDrops k).pending = s.pending ∧ (s.sliceDrops k).guards = s.guards := by
  have h1 := s.freeFrames_kept fun f => (portsOf k).contains f.port.toNat || f.slice.toNat == k
  have h2 := fun t : State => t.forEach_kept (portsOf k) (fun s p => (s.flushTx p).cutWire p) fun s p =>
    ⟨((s.flushTx p).cutWire_kept p).1.trans (s.flushTx_kept p).1, ((s.flushTx p).cutWire_kept p).2.trans (s.flushTx_kept p).2⟩
  exact ⟨(h2 _).1.trans h1.1, (h2 _).2.trans h1.2⟩

theorem State.sliceLoses_kept (s : State) (n : Nat) : (s.sliceLoses n).pending = s.pending ∧ (s.sliceLoses n).guards = s.guards := by
  unfold State.sliceLoses
  dsimp only
  split
  · exact s.setSliceP_kept n {}
  · refine kept_trans ?_ (State.forEach_kept _ _ _ fun s l => s.setLane_kept l _)
    refine kept_trans ?_ (State.forEach_kept _ _ _ fun s p => s.setPort_kept p _)
    refine kept_trans ?_ (State.setSliceL_kept _ _ _)
    refine kept_trans ?_ (State.dropLocks_kept _ _)
    refine kept_trans ?_ (State.dropRecirc_kept _ _)
    exact kept_trans (s.setSliceP_kept n {}) (State.sliceDrops_kept _ _)

theorem State.domainLoses_kept (s : State) (d : ℕ) (into : RestSt) :
    (State.domainLoses s d into).pending = s.pending ∧ (State.domainLoses s d into).guards = s.guards := by
  grind [State.domainLoses, State.setTimeUnit_kept, State.orphan_kept, State.hostLoses_kept, State.regLoses_kept, State.sliceLoses_kept, State.forEach_kept]

theorem State.startRail_kept (s : State) (d : ℕ) :
    (State.startRail s d).pending = s.pending ∧ (State.startRail s d).guards = s.guards := ⟨rfl, rfl⟩

theorem State.startRails_kept (s : State) :
    (State.startRails s).pending = s.pending ∧ (State.startRails s).guards = s.guards := by
  grind [State.startRails, State.startRail_kept, State.forEach_kept]

theorem State.timeRests_kept (s : State) (into : RestSt) :
    (State.timeRests s into).pending = s.pending ∧ (State.timeRests s into).guards = s.guards := by
  grind [State.timeRests, State.ppsLow_kept, State.setTimeUnit_kept, foldl_kept]

theorem State.beginEntry_kept (s : State) (d : ℕ) :
    (State.beginEntry s d).pending = s.pending ∧ (State.beginEntry s d).guards = s.guards := by
  grind [State.beginEntry, State.writeBackAll_kept, State.domainLoses_kept, State.timeRests_kept, State.setDom_kept, foldl_kept]

theorem State.beginReleased_kept (s : State) (d : ℕ) :
    (State.beginReleased s d).pending = s.pending ∧ (State.beginReleased s d).guards = s.guards := by
  grind [State.beginReleased, State.beginEntry_kept, State.setDom_kept, foldl_kept]

theorem State.entryCycle_kept (s : State) (d : ℕ) :
    (State.entryCycle s d).pending = s.pending ∧ (State.entryCycle s d).guards = s.guards := by
  grind [State.entryCycle, State.beginReleased_kept, State.setDom_kept, State.startRails_kept, foldl_kept]

theorem State.haltChannels_kept (s : State) :
    (State.haltChannels s).pending = s.pending ∧ (State.haltChannels s).guards = s.guards := by
  grind [State.haltChannels, State.setDma_kept, State.orphan_kept, State.forEach_kept]

theorem State.domainUp_kept (s : State) (d : ℕ) (fromOff : Bool) :
    (State.domainUp s d fromOff).pending = s.pending ∧ (State.domainUp s d fromOff).guards = s.guards := by
  unfold State.domainUp; (repeat' split) <;> grind [State.haltChannels_kept, State.releaseScl_kept, State.setLane_kept, State.setDma_kept, State.setTimeUnit_kept, State.rewriteCompletions_kept, State.fetchBelow_kept, State.setDom_kept, State.sendWaiting_kept, State.fillReplica_kept, State.startRails_kept, State.setTop_kept, State.forEach_kept]

theorem State.railEnds_kept (s : State) (d : ℕ) :
    (State.railEnds s d).pending = s.pending ∧ (State.railEnds s d).guards = s.guards := by
  grind [State.railEnds, State.setDom_kept, foldl_kept]

theorem State.restoreStep_kept (s : State) (d : ℕ) :
    (State.restoreStep s d).pending = s.pending ∧ (State.restoreStep s d).guards = s.guards := by
  grind [State.restoreStep, State.domainUp_kept, State.railEnds_kept, State.setDom_kept, foldl_kept]

theorem State.pllLocks_kept (s : State) :
    (State.pllLocks s).pending = s.pending ∧ (State.pllLocks s).guards = s.guards := by
  grind [State.pllLocks, State.railEnds_kept, State.forEach_kept]

theorem State.placeVotes_kept (s : State) (c : ℕ) (ds : List ℕ) :
    (State.placeVotes s c ds).pending = s.pending ∧ (State.placeVotes s c ds).guards = s.guards := ⟨rfl, rfl⟩

theorem stepVote_kept (ds : BitVec 25) (s : State) :
    (stepVote ds s).state.pending = s.pending ∧ (stepVote ds s).state.guards = s.guards := by
  grind [stepVote, State.microPasses_kept, Ran.ok_kept, foldl_kept, Ran.state, Ran.ok, Ran.bad]

theorem runVote_kept (x1 : ℕ) (x2 : BitVec 16) (i : Ins) (s : State) :
    (runVote x1 x2 i s).state.pending = s.pending ∧ (runVote x1 x2 i s).state.guards = s.guards := by
  grind [runVote, State.placeVotes_kept, Ran.bad_kept, State.setDom_kept, stepVote_kept, State.startRails_kept, foldl_kept, Ran.state, Ran.ok, Ran.bad]

theorem State.withdrawFrom_kept (jid : ℕ) (d : ℕ) (x3 : List ℕ) (x4 : List (ℕ × ℕ)) (x5 : State) :
    (State.withdrawFrom jid d x3 x4 x5).2.2.pending = x5.pending ∧ (State.withdrawFrom jid d x3 x4 x5).2.2.guards = x5.guards := by
  fun_induction State.withdrawFrom jid d x3 x4 x5 <;> grind [State.setVotes_kept, foldl_kept]

theorem unvoteRefused_kept (jid : ℕ) (stopped : List ℕ) (withdrawn : List (ℕ × ℕ)) (k : ℕ) (d : ℕ) (s : State) :
    (unvoteRefused jid stopped withdrawn k d s).state.pending = s.pending ∧ (unvoteRefused jid stopped withdrawn k d s).state.guards = s.guards := by
  grind [unvoteRefused, State.placeVotes_kept, State.setDom_kept, State.startRails_kept, State.forEach_kept, Ran.state, Ran.ok, Ran.bad]

theorem stepUnvoteRefused_kept (stopped : List ℕ) (k : Byte) (d : ℕ) (s : State) :
    (stepUnvoteRefused stopped k d s).state.pending = s.pending ∧ (stepUnvoteRefused stopped k d s).state.guards = s.guards := by
  grind [stepUnvoteRefused, foldl_kept, Ran.state, Ran.ok, Ran.bad]

theorem stepUnvote_kept (jid : ℕ) (i : Ins) (todo : List ℕ) (stopped : List ℕ) (withdrawn : List (ℕ × ℕ)) (s : State) :
    (stepUnvote jid i todo stopped withdrawn s).state.pending = s.pending ∧ (stepUnvote jid i todo stopped withdrawn s).state.guards = s.guards := by
  unfold stepUnvote; (repeat' split) <;> grind [unvoteRefused_kept, State.withdrawFrom_kept, State.beginEntry_kept, Ran.ok_kept, foldl_kept, Ran.state, Ran.ok, Ran.bad]

theorem runUnvote_kept (x1 : ℕ) (x2 : BitVec 16) (i : Ins) (s : State) :
    (runUnvote x1 x2 i s).state.pending = s.pending ∧ (runUnvote x1 x2 i s).state.guards = s.guards := by
  grind [runUnvote, Ran.bad_kept, foldl_kept, Ran.state, Ran.ok, Ran.bad]

theorem State.wake_kept (s : State) (source : BitVec 4) (detail : BitVec 16) :
    (State.wake s source detail).pending = s.pending ∧ (State.wake s source detail).guards = s.guards := by
  grind [State.wake, State.placeVotes_kept, State.startRails_kept, foldl_kept]

theorem State.setHints_kept (s : State) (l : List Hint) :
    (State.setHints s l).pending = s.pending ∧ (State.setHints s l).guards = s.guards := ⟨rfl, rfl⟩

theorem runHint_kept (x1 : ℕ) (x2 : BitVec 16) (i : Ins) (s : State) :
    (runHint x1 x2 i s).state.pending = s.pending ∧ (runHint x1 x2 i s).state.guards = s.guards := by
  grind [runHint, Ran.bad_kept, Ran.ok_kept, State.setHints_kept, foldl_kept, Ran.state, Ran.ok, Ran.bad]

theorem runHintCancel_kept (x1 : ℕ) (x2 : BitVec 16) (x3 : Ins) (s : State) :
    (runHintCancel x1 x2 x3 s).state.pending = s.pending ∧ (runHintCancel x1 x2 x3 s).state.guards = s.guards := ⟨rfl, rfl⟩

theorem runCapset_kept (x1 : ℕ) (x2 : BitVec 16) (i : Ins) (s : State) :
    (runCapset x1 x2 i s).state.pending = s.pending ∧ (runCapset x1 x2 i s).state.guards = s.guards := by
  grind [runCapset, Ran.bad_kept, Ran.ok_kept, State.setPower_kept, foldl_kept, Ran.state, Ran.ok, Ran.bad]

theorem State.calibrated_kept (s : State) (m : BitVec 16) (mean : ℕ) :
    (State.calibrated s m mean).2.pending = s.pending ∧ (State.calibrated s m mean).2.guards = s.guards := by
  grind [State.calibrated, State.takeFree_kept, foldl_kept]

theorem State.measure_kept (s : State) (m : BitVec 16) (mean : ℕ) :
    (State.measure s m mean).pending = s.pending ∧ (State.measure s m mean).guards = s.guards := by
  simp [State.measure, State.calibrated_kept, State.setPower_kept]

theorem State.setDepth_kept (s : State) (j : ℕ) (c : BitVec 3) :
    (State.setDepth s j c).pending = s.pending ∧ (State.setDepth s j c).guards = s.guards := ⟨rfl, rfl⟩

theorem State.shedRung_kept (s : State) (o : CapObs) :
    (State.shedRung s o).pending = s.pending ∧ (State.shedRung s o).guards = s.guards := by
  grind [State.shedRung, State.setDepth_kept, State.setPower_kept, foldl_kept]

theorem State.restoreRung_kept (s : State) :
    (State.restoreRung s).pending = s.pending ∧ (State.restoreRung s).guards = s.guards := by
  grind [State.restoreRung, State.setDepth_kept, State.setPower_kept, foldl_kept]

theorem State.shedRungs_kept (o : CapObs) (x2 : ℕ) (x3 : State) :
    (State.shedRungs o x2 x3).pending = x3.pending ∧ (State.shedRungs o x2 x3).guards = x3.guards := by
  fun_induction State.shedRungs o x2 x3 <;> grind [State.shedRung_kept, foldl_kept]

theorem State.capFails_kept (s : State) :
    (State.capFails s).pending = s.pending ∧ (State.capFails s).guards = s.guards := by
  grind [State.capFails, State.fireVector_kept, State.setPower_kept, foldl_kept]

theorem State.capEvaluate_kept (s : State) (o : CapObs) :
    (State.capEvaluate s o).pending = s.pending ∧ (State.capEvaluate s o).guards = s.guards := by
  grind [State.capEvaluate, State.shedRungs_kept, State.restoreRung_kept, State.capFails_kept, State.setPower_kept, foldl_kept]

/-! ### Postmark -/

theorem State.alarmDue_kept (s : State) (n : BitVec 1) :
    (State.alarmDue s n).pending = s.pending ∧ (State.alarmDue s n).guards = s.guards := by
  grind [State.alarmDue, State.setTimeUnit_kept, State.wake_kept, State.fireVector_kept, foldl_kept]

theorem State.afterStep_kept (s : State) :
    (State.afterStep s).pending = s.pending ∧ (State.afterStep s).guards = s.guards := by
  simp [State.afterStep, State.fireDue_kept, State.alarmDue_kept]

theorem State.tellTime_kept (s : State) (step : Bool) :
    (State.tellTime s step).pending = s.pending ∧ (State.tellTime s step).guards = s.guards := by
  grind [State.tellTime, State.sendFlit_kept, foldl_kept]

theorem runTimeset_kept (x1 : ℕ) (x2 : BitVec 16) (i : Ins) (s : State) :
    (runTimeset x1 x2 i s).state.pending = s.pending ∧ (runTimeset x1 x2 i s).state.guards = s.guards := by
  grind [runTimeset, State.afterStep_kept, State.stepTo_kept, State.tellTime_kept, State.setTimeUnit_kept, State.freshTau_kept, Ran.bad_kept, Ran.ok_kept, foldl_kept, Ran.state, Ran.ok, Ran.bad]

theorem runTimeadj_kept (x1 : ℕ) (x2 : BitVec 16) (i : Ins) (s : State) :
    (runTimeadj x1 x2 i s).state.pending = s.pending ∧ (runTimeadj x1 x2 i s).state.guards = s.guards := by
  grind [runTimeadj, State.acceptOffset_kept, Ran.bad_kept, Ran.ok_kept, foldl_kept, Ran.state, Ran.ok, Ran.bad]

theorem runTimestep_kept (x1 : ℕ) (x2 : BitVec 16) (i : Ins) (s : State) :
    (runTimestep x1 x2 i s).state.pending = s.pending ∧ (runTimestep x1 x2 i s).state.guards = s.guards := by
  grind [runTimestep, State.afterStep_kept, State.stepTo_kept, State.tellTime_kept, State.setTimeUnit_kept, State.freshTau_kept, Ran.bad_kept, Ran.ok_kept, foldl_kept, Ran.state, Ran.ok, Ran.bad]

theorem State.takeTod_kept (s : State) (at_ : ℤ) :
    (State.takeTod s at_).pending = s.pending ∧ (State.takeTod s at_).guards = s.guards := by
  grind [State.takeTod, State.afterStep_kept, State.stepTo_kept, State.setTimeUnit_kept, foldl_kept]

theorem State.ppsIn_kept (s : State) (phase : ℕ) :
    (State.ppsIn s phase).pending = s.pending ∧ (State.ppsIn s phase).guards = s.guards := by
  grind [State.ppsIn, State.acceptOffset_kept, State.setTimeUnit_kept, State.takeTod_kept, foldl_kept]

theorem State.todIn_kept (s : State) (b : List Byte) (inTime : Bool) :
    (State.todIn s b inTime).pending = s.pending ∧ (State.todIn s b inTime).guards = s.guards := by
  grind [State.todIn, State.setTimeUnit_kept, foldl_kept]

theorem State.ppsDrive_kept (s : State) (rise : Bool) :
    (State.ppsDrive s rise).pending = s.pending ∧ (State.ppsDrive s rise).guards = s.guards := by
  grind [State.ppsDrive, State.setTimeUnit_kept, State.emit_kept, foldl_kept]

theorem State.cascField_kept (s : State) (offset : ℤ) :
    (State.cascField s offset).2.pending = s.pending ∧ (State.cascField s offset).2.guards = s.guards := by
  grind [State.cascField, State.takeFree_kept, foldl_kept]

theorem State.timeExchange_kept (s : State) (offset : ℤ) (roundTrip : ℕ) :
    (State.timeExchange s offset roundTrip).pending = s.pending ∧ (State.timeExchange s offset roundTrip).guards = s.guards := by
  grind [State.timeExchange, State.afterStep_kept, State.stepTo_kept, State.setTimeUnit_kept, State.ppsSettle_kept, State.cascField_kept, foldl_kept]

theorem State.headTime_kept (s : State) (now : ℕ) (st : TimeSt) (step : Bool) (correction : ℕ) :
    (State.headTime s now st step correction).pending = s.pending ∧ (State.headTime s now st step correction).guards = s.guards := by
  grind [State.headTime, State.afterStep_kept, State.stepTo_kept, State.setTimeUnit_kept, State.ppsSettle_kept, State.freshTau_kept, foldl_kept]

theorem State.timeHeadLost_kept (s : State) :
    (State.timeHeadLost s).pending = s.pending ∧ (State.timeHeadLost s).guards = s.guards := by
  grind [State.timeHeadLost, State.setTimeUnit_kept, foldl_kept]

/-! ### Faults -/

theorem State.quarantinePorts_kept (s : State) (which : ℕ → Bool) :
    (State.quarantinePorts s which).pending = s.pending ∧ (State.quarantinePorts s which).guards = s.guards := by
  simp [State.quarantinePorts, State.setLink_kept, State.freeStaging_kept, State.forEach_kept]

theorem State.leftService_kept (s : State) :
    (State.leftService s).pending = s.pending ∧ (State.leftService s).guards = s.guards := by
  grind [State.leftService, State.headLose_kept, foldl_kept]

theorem State.enterQuarantine_kept (s : State) :
    (State.enterQuarantine s).pending = s.pending ∧ (State.enterQuarantine s).guards = s.guards := by
  simp [State.enterQuarantine, State.quarantinePorts_kept, State.leftService_kept, State.enterMode_kept]

theorem State.recordFault_kept (s : State) (cause : Byte) (unit : Byte) :
    (State.recordFault s cause unit).pending = s.pending ∧ (State.recordFault s cause unit).guards = s.guards := ⟨rfl, rfl⟩

theorem State.takeFault_kept (s : State) (cause : Byte) (unit : Byte) :
    (State.takeFault s cause unit).pending = s.pending ∧ (State.takeFault s cause unit).guards = s.guards := by
  grind [State.takeFault, State.enterQuarantine_kept, State.recordFault_kept, State.quarantinePorts_kept, State.setTop_kept, foldl_kept]

theorem State.raiseFault_kept (s : State) (cause : Byte) (unit : Byte) :
    (State.raiseFault s cause unit).pending = s.pending ∧ (State.raiseFault s cause unit).guards = s.guards := by
  grind [State.raiseFault, State.takeFault_kept, State.setTop_kept, foldl_kept]

theorem State.reopen_kept (s : State) (t : ℕ) :
    (State.reopen s t).pending = s.pending ∧ (State.reopen s t).guards = s.guards := by
  grind [State.reopen, State.setQueue_kept, foldl_kept]

theorem State.endForced_kept (s : State) (jid : ℕ) (st : Status) :
    (State.endForced s jid st).pending = s.pending ∧ (State.endForced s jid st).guards = s.guards := by
  grind [State.endForced, State.setPort_kept, State.setCasc_kept, State.setArmedSnap_kept, State.finish_kept, State.clearScratch_kept, State.setCs_kept, State.setArmedEpoch_kept, State.setSliceP_kept, State.reopen_kept, State.rulewrEnds_kept, State.setTop_kept, foldl_kept]

theorem State.say_kept (s : State) (l : MonLine) :
    (State.say s l).pending = s.pending ∧ (State.say s l).guards = s.guards := ⟨rfl, rfl⟩

theorem State.erase_kept (s : State) :
    (State.erase s).pending = s.pending ∧ (State.erase s).guards = s.guards := by
  grind [State.erase, State.setSec_kept, State.endForced_kept, State.eraseKeys_kept, State.forEach_kept]

theorem State.enterMaintenance_kept (s : State) :
    (State.enterMaintenance s).pending = s.pending ∧ (State.enterMaintenance s).guards = s.guards := by
  grind [State.enterMaintenance, State.leftService_kept, State.enterMode_kept, State.setLink_kept, State.forEach_kept]

theorem State.opens_kept (s : State) (tap : Bool) :
    (State.opens s tap).pending = s.pending ∧ (State.opens s tap).guards = s.guards := by
  grind [State.opens, State.say_kept, State.enterMaintenance_kept, foldl_kept]

theorem State.eraseAndOpen_kept (s : State) (tap : Bool) (readBackFails : ℕ) :
    (State.eraseAndOpen s tap readBackFails).pending = s.pending ∧ (State.eraseAndOpen s tap readBackFails).guards = s.guards := by
  grind [State.eraseAndOpen, State.opens_kept, State.say_kept, State.erase_kept, State.raiseFault_kept, State.setTop_kept, foldl_kept]

theorem State.unlock_kept (s : State) (tap : Bool) (readBackFails : ℕ) :
    (State.unlock s tap readBackFails).pending = s.pending ∧ (State.unlock s tap readBackFails).guards = s.guards := by
  grind [State.unlock, State.eraseAndOpen_kept, State.setTop_kept, foldl_kept]

theorem State.takeOne_kept (s : State) (x2 : Due) :
    (State.takeOne s x2).pending = s.pending ∧ (State.takeOne s x2).guards = s.guards := by
  unfold State.takeOne; (repeat' split) <;> grind [State.takeFault_kept, State.eraseAndOpen_kept, State.opens_kept, foldl_kept]

theorem State.takeAll_kept (s : State) :
    (State.takeAll s).pending = s.pending ∧ (State.takeAll s).guards = s.guards := by
  grind [State.takeAll, State.takeOne_kept, State.setTop_kept, State.forEach_kept]

theorem State.takeDue_kept (s : State) :
    (State.takeDue s).pending = s.pending ∧ (State.takeDue s).guards = s.guards := by
  grind [State.takeDue, State.takeAll_kept, foldl_kept]

theorem State.mismatch_kept (s : State) (e : JEntry) :
    (State.mismatch s e).pending = s.pending ∧ (State.mismatch s e).guards = s.guards := by
  grind [State.mismatch, State.updEntry_kept, foldl_kept]

theorem State.journalError_kept (s : State) (q : QId) (idx : RIdx) :
    (State.journalError s q idx).pending = s.pending ∧ (State.journalError s q idx).guards = s.guards := by
  grind [State.journalError, State.endForced_kept, foldl_kept]

theorem State.tested_kept (s : State) (a : Bool) (b : Bool) :
    (State.tested s a b).pending = s.pending ∧ (State.tested s a b).guards = s.guards := ⟨rfl, rfl⟩

theorem State.fence_kept (s : State) (fenceA : Bool) :
    (State.fence s fenceA).pending = s.pending ∧ (State.fence s fenceA).guards = s.guards := by
  simp [State.fence, State.bumpQueues_kept, State.setDom_kept]

theorem State.rejoin_kept (s : State) :
    (State.rejoin s).pending = s.pending ∧ (State.rejoin s).guards = s.guards := by
  simp [State.rejoin, State.bumpQueues_kept, State.setDom_kept]

theorem State.selfTestEnd_kept (s : State) (a : Bool) (b : Bool) :
    (State.selfTestEnd s a b).pending = s.pending ∧ (State.selfTestEnd s a b).guards = s.guards := by
  grind [State.selfTestEnd, State.updEntry_kept, State.endForced_kept, State.fence_kept, State.raiseFault_kept, State.tested_kept, foldl_kept]

theorem State.periodicTest_kept (s : State) (a : Bool) (b : Bool) :
    (State.periodicTest s a b).pending = s.pending ∧ (State.periodicTest s a b).guards = s.guards := by
  grind [State.periodicTest, State.rejoin_kept, State.fence_kept, State.raiseFault_kept, State.tested_kept, foldl_kept]

theorem State.postmasterReset_kept (s : State) :
    (State.postmasterReset s).pending = s.pending ∧ (State.postmasterReset s).guards = s.guards := by
  simp [State.postmasterReset, State.rollBackAll_kept, State.resumePorts_kept, State.takeAll_kept]

theorem State.sliceReset_kept (s : State) (n : Nat) : (s.sliceReset n).pending = s.pending ∧ (s.sliceReset n).guards = s.guards := by
  unfold State.sliceReset
  split
  · exact ⟨rfl, rfl⟩
  · refine kept_trans ?_ (State.resumePorts_kept _ _)
    refine kept_trans ?_ (State.forEach_kept _ _ _ fun s p => kept_ite (s.setLink_kept p _) ⟨rfl, rfl⟩)
    refine kept_trans ?_ (State.dropLocks_kept _ _)
    exact kept_trans (State.sliceDrops_kept _ _) (State.fillReplica_kept _ _)

theorem State.moveSlice_kept (s : State) (k : ℕ) (back : Bool) :
    (State.moveSlice s k back).pending = s.pending ∧ (State.moveSlice s k back).guards = s.guards := by
  simp [State.moveSlice, State.setPort_kept, State.setSliceL_kept, State.resumePorts_kept, State.setSliceP_kept, State.setTop_kept, State.forEach_kept]

theorem State.tableError_kept (s : State) (n : ℕ) (kind : BitVec 4) (entry : BitVec 13) (bank : Bool) :
    (State.tableError s n kind entry bank).pending = s.pending ∧ (State.tableError s n kind entry bank).guards = s.guards := by
  grind [State.tableError, State.setSliceL_kept, State.setSliceP_kept, foldl_kept]

theorem State.holdSlice_kept (s : State) (n : ℕ) :
    (State.holdSlice s n).pending = s.pending ∧ (State.holdSlice s n).guards = s.guards := by
  grind [State.holdSlice, State.resetLanes_kept, State.raiseFault_kept, State.setSliceP_kept, State.moveSlice_kept, State.setLink_kept, State.fillReplica_kept, State.forEach_kept]

theorem State.sliceFault_kept (s : State) (n : ℕ) (kind : BitVec 4) (entry : BitVec 13) (bank : Bool) :
    (State.sliceFault s n kind entry bank).pending = s.pending ∧ (State.sliceFault s n kind entry bank).guards = s.guards := by
  grind [State.sliceFault, State.sliceReset_kept, State.holdSlice_kept, State.tableError_kept, State.setSliceP_kept, foldl_kept]

theorem stepSpare_kept (i : Ins) (phase : ℕ) (since : ℕ) (mark : ℕ) (s : State) :
    (stepSpare i phase since mark s).state.pending = s.pending ∧ (stepSpare i phase since mark s).state.guards = s.guards := by
  unfold stepSpare; (repeat' split) <;> grind [State.microPasses_kept, State.freeFrames_kept, State.moveSlice_kept, Ran.ok_kept, State.fillReplica_kept, State.setTop_kept, foldl_kept, Ran.state, Ran.ok, Ran.bad]

theorem spareBegins_kept (k : ℕ) (s : State) :
    (spareBegins k s).state.pending = s.pending ∧ (spareBegins k s).state.guards = s.guards := ⟨rfl, rfl⟩

theorem runSpareMove_kept (x1 : ℕ) (x2 : BitVec 16) (i : Ins) (s : State) :
    (runSpareMove x1 x2 i s).state.pending = s.pending ∧ (runSpareMove x1 x2 i s).state.guards = s.guards := by
  grind [runSpareMove, spareBegins_kept, Ran.bad_kept, foldl_kept, Ran.state, Ran.ok, Ran.bad]

theorem runSpareReturn_kept (x1 : ℕ) (x2 : BitVec 16) (i : Ins) (s : State) :
    (runSpareReturn x1 x2 i s).state.pending = s.pending ∧ (runSpareReturn x1 x2 i s).state.guards = s.guards := by
  grind [runSpareReturn, spareBegins_kept, Ran.bad_kept, foldl_kept, Ran.state, Ran.ok, Ran.bad]

theorem stepSlicetest_kept (i : Ins) (steps : ℕ) (s : State) :
    (stepSlicetest i steps s).state.pending = s.pending ∧ (stepSlicetest i steps s).state.guards = s.guards := by
  grind [stepSlicetest, State.setSliceP_kept, Ran.ok_kept, State.takeFree_kept, foldl_kept, Ran.state, Ran.ok, Ran.bad]

theorem runSlicetest_kept (x1 : ℕ) (x2 : BitVec 16) (i : Ins) (s : State) :
    (runSlicetest x1 x2 i s).state.pending = s.pending ∧ (runSlicetest x1 x2 i s).state.guards = s.guards := by
  grind [runSlicetest, Ran.bad_kept, stepSlicetest_kept, State.setSliceP_kept, foldl_kept, Ran.state, Ran.ok, Ran.bad]

/-! ### Resets -/

theorem State.dropTraffic_kept (s : State) :
    (State.dropTraffic s).pending = s.pending ∧ (State.dropTraffic s).guards = s.guards := by
  simp [State.dropTraffic, State.cutWire_kept, State.flushTx_kept, State.dropRecirc_kept, State.freeFrames_kept, State.drained_kept, State.forEach_kept]

theorem State.reportInjected_kept (s : State) :
    (State.reportInjected s).pending = s.pending ∧ (State.reportInjected s).guards = s.guards := by
  simp [State.reportInjected, State.notSent_kept, State.forEach_kept]

theorem State.noRequests_kept (s : State) :
    (State.noRequests s).pending = s.pending ∧ (State.noRequests s).guards = s.guards := ⟨rfl, rfl⟩

theorem State.settleRings_kept (s : State) : s.settleRings.pending = s.pending ∧ s.settleRings.guards = s.guards := by
  unfold State.settleRings
  refine kept_trans ?_ (State.forEach_kept _ _ _ fun s q => ?_)
  · refine kept_trans ?_ (State.forEach_kept _ _ _ fun s e => kept_trans (State.publishEntry_kept s _ _ _) (State.noRequests_kept _))
    exact kept_trans s.noRequests_kept (foldl_kept _ _ (fun s r => s.emit_kept _) _)
  · split
    · exact kept_trans (s.setQueue_kept _ _) (State.settleFront_kept _ _)
    · exact ⟨rfl, rfl⟩

theorem State.settleWrites_kept (s : State) :
    (State.settleWrites s).pending = s.pending ∧ (State.settleWrites s).guards = s.guards := by
  simp [State.settleWrites, State.settleRings_kept, State.setJournal_kept, State.loseFetches_kept]

theorem State.resetDma_kept (s : State) :
    (State.resetDma s).pending = s.pending ∧ (State.resetDma s).guards = s.guards := by
  grind [State.resetDma, State.haltChannels_kept, State.setDma_kept, foldl_kept]

theorem State.warmReset_kept (s : State) :
    (State.warmReset s).pending = s.pending ∧ (State.warmReset s).guards = s.guards := by
  unfold State.warmReset; (repeat' split) <;> grind [State.rollBackAll_kept, State.dropTraffic_kept, State.resetLanes_kept, State.setReg_kept, State.reportInjected_kept, State.losePigeonholes_kept, State.settleWrites_kept, State.takeAll_kept, State.resetDma_kept, State.setLink_kept, State.setTop_kept, State.forEach_kept]

theorem State.coldKeep_pending (s : State) : s.coldKeep.pending = s.pending := rfl

theorem State.coldReset_pending (s : State) : s.coldReset.pending = s.pending := by
  have h := kept_trans s.rollBackAll_kept (State.dropTraffic_kept _)
  have h := kept_trans h (State.reportInjected_kept _)
  have h := kept_trans h (State.settleRings_kept _)
  have h := kept_trans h (State.leftService_kept _)
  have h := kept_trans (kept_trans h (State.ppsLow_kept _)) (State.releaseScl_kept _)
  exact (State.coldKeep_pending _).trans h.1

theorem State.pinsOf_kept (s : State) (t : State) :
    (State.pinsOf s t).pending = t.pending ∧ (State.pinsOf s t).guards = t.guards := ⟨rfl, rfl⟩

theorem State.release_kept (s : State) (cascId : BitVec 3) :
    (State.release s cascId).pending = s.pending ∧ (State.release s cascId).guards = s.guards := by
  grind [State.release, State.rewriteCompletions_kept, State.fetchBelow_kept, State.resumePorts_kept, State.refreshReplicas_kept, State.setTop_kept, State.forEach_kept]

theorem State.powerUp_pending (s : State) (b : BitVec 16) (o : Bool) (r : BitVec 2) : (s.powerUp b o r).pending = s.pending := rfl

/-! ### ControlStore -/

theorem State.changeCs_kept (s : State) (c : Cs) :
    (State.changeCs s c).pending = s.pending ∧ (State.changeCs s c).guards = s.guards := by
  grind [State.changeCs, State.setCs_kept, State.refreshReplicas_kept, foldl_kept]

theorem State.stampCs_kept (s : State) : s.stampCs.pending = s.pending ∧ s.stampCs.guards = s.guards := State.setCs_kept _ _

theorem stepCsload_kept (jid : ℕ) (i : Ins) (done : ℕ) (s : State) :
    (stepCsload jid i done s).state.pending = s.pending ∧ (stepCsload jid i done s).state.guards = s.guards := by
  have h := State.fetchHost_kept s jid (i.b.setWidth 57 + BitVec.ofNat 57 (16 * done)) (16 * min 512 (loadCount i - done)) (some 28)
  have hc := State.changeCs_kept
  have hs := State.stampCs_kept
  unfold stepCsload
  dsimp only
  split <;> rename_i hf <;> rw [hf] at h <;> simp only [Fetched.state] at h
  · exact h
  · exact kept_trans h (hs _)
  · split
    · exact kept_trans (kept_trans h (hc _ _)) (hs _)
    · exact kept_trans h (hc _ _)

theorem runCsload_kept (jid : ℕ) (x2 : BitVec 16) (i : Ins) (s : State) :
    (runCsload jid x2 i s).state.pending = s.pending ∧ (runCsload jid x2 i s).state.guards = s.guards := by
  grind [runCsload, stepCsload_kept, Ran.bad_kept, State.setCs_kept, foldl_kept, Ran.state, Ran.ok, Ran.bad]

theorem swapTo_kept (mapped : Bool) (page : BitVec 3) (s : State) :
    (swapTo mapped page s).state.pending = s.pending ∧ (swapTo mapped page s).state.guards = s.guards := by
  simp [swapTo, State.changeCs_kept, State.stampCs_kept, Ran.state, Ran.ok]

theorem runCsswapMap_kept (x1 : ℕ) (x2 : BitVec 16) (i : Ins) (s : State) :
    (runCsswapMap x1 x2 i s).state.pending = s.pending ∧ (runCsswapMap x1 x2 i s).state.guards = s.guards := by
  grind [runCsswapMap, swapTo_kept, foldl_kept, Ran.state, Ran.ok, Ran.bad]

theorem runCsswapUnmap_kept (x1 : ℕ) (x2 : BitVec 16) (x3 : Ins) (s : State) :
    (runCsswapUnmap x1 x2 x3 s).state.pending = s.pending ∧ (runCsswapUnmap x1 x2 x3 s).state.guards = s.guards := by
  grind [runCsswapUnmap, swapTo_kept, foldl_kept, Ran.state, Ran.ok, Ran.bad]

theorem stepCsverify_kept (done : Nat) (crc : Word) (s : State) :
    (stepCsverify done crc s).state.pending = s.pending ∧ (stepCsverify done crc s).state.guards = s.guards := by
  unfold stepCsverify
  generalize crcWords s.cs.word done 4096 crc = c
  dsimp only
  split
  · exact ⟨rfl, rfl⟩
  · split <;> exact ⟨rfl, rfl⟩

theorem runCsverify_kept (x1 : ℕ) (x2 : BitVec 16) (x3 : Ins) (s : State) :
    (runCsverify x1 x2 x3 s).state.pending = s.pending ∧ (runCsverify x1 x2 x3 s).state.guards = s.guards := ⟨rfl, rfl⟩

theorem State.updReload_kept (s : State) (ovl : Bool) (word : ℕ) (f : Reload → Reload) :
    (State.updReload s ovl word f).pending = s.pending ∧ (State.updReload s ovl word f).guards = s.guards := ⟨rfl, rfl⟩

theorem State.dropReload_kept (s : State) (ovl : Bool) (word : ℕ) :
    (State.dropReload s ovl word).pending = s.pending ∧ (State.dropReload s ovl word).guards = s.guards := ⟨rfl, rfl⟩

theorem State.issueReloads_kept (s : State) :
    (State.issueReloads s).pending = s.pending ∧ (State.issueReloads s).guards = s.guards := by
  grind [State.issueReloads, State.sendReq_kept, State.internalRuns_kept, State.forEach_kept]

theorem State.parityCheck_kept (s : State) (ovl : Bool) (word : ℕ) (q : QId) :
    (State.parityCheck s ovl word q).pending = s.pending ∧ (State.parityCheck s ovl word q).guards = s.guards := by
  grind [State.parityCheck, State.updEntry_kept, State.takeAll_kept, State.updReload_kept, foldl_kept]

theorem State.reloadGivesUp_kept (s : State) (r : Reload) :
    (State.reloadGivesUp s r).pending = s.pending ∧ (State.reloadGivesUp s r).guards = s.guards := by
  grind [State.reloadGivesUp, State.takeDue_kept, State.endForced_kept, State.raiseFault_kept, State.dropReload_kept, State.forEach_kept]

theorem State.reloadDone_kept (s : State) (ovl : Bool) (word : ℕ) (data : Option QWord) :
    (State.reloadDone s ovl word data).pending = s.pending ∧ (State.reloadDone s ovl word data).guards = s.guards := by
  grind [State.reloadDone, State.reloadGivesUp_kept, State.setCs_kept, State.dropReload_kept, State.updReload_kept, foldl_kept]

theorem State.csParity_kept (s : State) (ovl : Bool) (word : ℕ) (fetched : Option QId) :
    (State.csParity s ovl word fetched).pending = s.pending ∧ (State.csParity s ovl word fetched).guards = s.guards := by
  grind [State.csParity, State.parityCheck_kept, State.issueReloads_kept, State.setCs_kept, foldl_kept]

theorem State.scrubReplica_kept (s : State) (n : ℕ) (k : ℕ) :
    (State.scrubReplica s n k).pending = s.pending ∧ (State.scrubReplica s n k).guards = s.guards := by
  grind [State.scrubReplica, State.setSliceL_kept, State.setCs_kept, foldl_kept]

theorem State.scrubWord_kept (s : State) :
    (State.scrubWord s).pending = s.pending ∧ (State.scrubWord s).guards = s.guards := by
  grind [State.scrubWord, State.scrubReplica_kept, State.setCs_kept, State.forEach_kept]

/-! ### Dma -/

theorem State.updChan_kept (s : State) (c : ℕ) (f : Chan → Chan) :
    (State.updChan s c f).pending = s.pending ∧ (State.updChan s c f).guards = s.guards := ⟨rfl, rfl⟩

theorem State.chanReads_kept (s : State) (c : ℕ) (a : ℕ) (key : ℕ) (l : List (ℕ × ℕ)) :
    (State.chanReads s c a key l).pending = s.pending ∧ (State.chanReads s c a key l).guards = s.guards := by
  simp [State.chanReads, State.sendReq_kept, State.forEach_kept]

theorem State.chanWrites_kept (s : State) (c : ℕ) (a : ℕ) (off : ℕ) (bs : List Byte) (relaxed : Bool) (l : List (ℕ × ℕ)) :
    (State.chanWrites s c a off bs relaxed l).pending = s.pending ∧ (State.chanWrites s c a off bs relaxed l).guards = s.guards := by
  simp [State.chanWrites, State.sendReq_kept, State.forEach_kept]

theorem State.readLine_kept (s : State) (c : ℕ) :
    (State.readLine s c).pending = s.pending ∧ (State.readLine s c).guards = s.guards := by
  simp [State.readLine, State.updChan_kept, State.sendReq_kept]

theorem State.haltChan_kept (s : State) (c : ℕ) (reason : BitVec 4) :
    (State.haltChan s c reason).pending = s.pending ∧ (State.haltChan s c reason).guards = s.guards := by
  grind [State.haltChan, State.updChan_kept, State.orphan_kept, State.fireVector_kept, State.endBackground_kept, foldl_kept]

theorem State.chanGoesTo_kept (s : State) (c : ℕ) (a : HostAddr) (jump : Bool) :
    (State.chanGoesTo s c a jump).pending = s.pending ∧ (State.chanGoesTo s c a jump).guards = s.guards := by
  grind [State.chanGoesTo, State.updChan_kept, State.haltChan_kept, State.readLine_kept, foldl_kept]

theorem State.chanNext_kept (s : State) (c : ℕ) :
    (State.chanNext s c).pending = s.pending ∧ (State.chanNext s c).guards = s.guards := by
  simp [State.chanNext, State.chanGoesTo_kept]

theorem State.startProgram_kept (s : State) (c : ℕ) (a : HostAddr) (prio : BitVec 2) :
    (State.startProgram s c a prio).pending = s.pending ∧ (State.startProgram s c a prio).guards = s.guards := by
  simp [State.startProgram, State.updChan_kept, State.orphan_kept, State.readLine_kept, State.takeFree_kept]

theorem State.shadowRuns_kept (s : State) (c : ℕ) :
    (State.shadowRuns s c).pending = s.pending ∧ (State.shadowRuns s c).guards = s.guards := ⟨rfl, rfl⟩

theorem State.takeShadow_kept (s : State) (c : ℕ) :
    (State.takeShadow s c).pending = s.pending ∧ (State.takeShadow s c).guards = s.guards := by
  simp [State.takeShadow, State.updChan_kept, State.shadowRuns_kept, State.startProgram_kept]

theorem State.programEnds_kept (s : State) (c : ℕ) :
    (State.programEnds s c).pending = s.pending ∧ (State.programEnds s c).guards = s.guards := by
  grind [State.programEnds, State.updChan_kept, State.takeShadow_kept, State.fireVector_kept, State.endBackground_kept, foldl_kept]

theorem State.rereadEnd_kept (s : State) (c : ℕ) :
    (State.rereadEnd s c).pending = s.pending ∧ (State.rereadEnd s c).guards = s.guards := by
  simp [State.rereadEnd, State.updChan_kept, State.sendReq_kept]

theorem State.pointsReached_kept (s : State) (c : ℕ) (x : Span) :
    (State.pointsReached s c x).2.pending = s.pending ∧ (State.pointsReached s c x).2.guards = s.guards := by
  grind [State.pointsReached, State.updChan_kept, State.fireVector_kept, foldl_kept]

theorem State.moveReads_kept (s : State) (c : ℕ) (x : Span) :
    (State.moveReads s c x).pending = s.pending ∧ (State.moveReads s c x).guards = s.guards := by
  grind [State.moveReads, State.updChan_kept, State.chanReads_kept, foldl_kept]

theorem State.moveWrites_kept (s : State) (c : Nat) (x : Span) :
    ∀ t, s.moveWrites c x = some t → t.pending = s.pending ∧ t.guards = s.guards := by
  intro t h
  simp only [State.moveWrites, Option.ite_none_left_eq_some, Option.some.injEq] at h
  obtain ⟨_, rfl⟩ := h
  exact kept_trans (State.updChan_kept _ _ _) (State.chanWrites_kept ..)

theorem State.fillWrites_kept (s : State) (c : ℕ) (v : Word) (x : Span) :
    (State.fillWrites s c v x).pending = s.pending ∧ (State.fillWrites s c v x).guards = s.guards := by
  grind [State.fillWrites, State.updChan_kept, State.chanWrites_kept, foldl_kept]

theorem State.compareReads_kept (s : State) (c : ℕ) (v : Option Word) (cont : Bool) (x : Span) (seen : Bool) :
    (State.compareReads s c v cont x seen).pending = s.pending ∧ (State.compareReads s c v cont x seen).guards = s.guards := by
  grind [State.compareReads, State.updChan_kept, State.chanReads_kept, foldl_kept]

theorem State.advanceCursors_kept (s : State) (c : ℕ) (n : ℕ) :
    (State.advanceCursors s c n).pending = s.pending ∧ (State.advanceCursors s c n).guards = s.guards := ⟨rfl, rfl⟩

theorem State.compareOn_kept (s : State) (c : ℕ) (v : Option Word) (cont : Bool) (x : Span) (seen : Bool) :
    (State.compareOn s c v cont x seen).pending = s.pending ∧ (State.compareOn s c v cont x seen).guards = s.guards := by
  unfold State.compareOn; (repeat' split) <;> grind [State.chanNext_kept, State.updChan_kept, State.haltChan_kept, State.compareReads_kept, State.advanceCursors_kept, State.takeFree_kept, foldl_kept]

theorem State.chanProgress_kept (s : State) (c : Nat) : (s.chanProgress c).pending = s.pending ∧ (s.chanProgress c).guards = s.guards := by
  unfold State.chanProgress
  have hm := fun x t h => s.moveWrites_kept c x t h
  have hs := fun s : State => s.chanNext_kept c
  (repeat' split) <;> grind [State.haltChan_kept, State.chanNext_kept, State.moveReads_kept, State.fillWrites_kept, State.compareOn_kept, State.fireVector_kept]

theorem State.beginXfer_kept (s : State) (c : ℕ) (w : ChIns) (allowed : Bool) (h : Bool) (f : Bool) (x : Span → Xfer) :
    (State.beginXfer s c w allowed h f x).pending = s.pending ∧ (State.beginXfer s c w allowed h f x).guards = s.guards := by
  grind [State.beginXfer, State.updChan_kept, State.haltChan_kept, State.setChan_kept, State.pointsReached_kept, State.chanProgress_kept, foldl_kept]

theorem State.chanMove_kept (s : State) (c : ℕ) (w : ChIns) :
    (State.chanMove s c w).pending = s.pending ∧ (State.chanMove s c w).guards = s.guards := by
  grind [State.chanMove, State.beginXfer_kept, foldl_kept]

theorem State.chanFill_kept (s : State) (c : ℕ) (w : ChIns) :
    (State.chanFill s c w).pending = s.pending ∧ (State.chanFill s c w).guards = s.guards := by
  grind [State.chanFill, State.beginXfer_kept, foldl_kept]

theorem State.chanCompare_kept (s : State) (c : ℕ) (w : ChIns) :
    (State.chanCompare s c w).pending = s.pending ∧ (State.chanCompare s c w).guards = s.guards := by
  grind [State.chanCompare, State.beginXfer_kept, foldl_kept]

theorem State.chanLoop_kept (s : State) (c : ℕ) (w : ChIns) :
    (State.chanLoop s c w).pending = s.pending ∧ (State.chanLoop s c w).guards = s.guards := by
  grind [State.chanLoop, State.chanNext_kept, State.haltChan_kept, State.chanGoesTo_kept, State.setChan_kept, foldl_kept]

theorem State.chanWait_kept (s : State) (c : ℕ) (w : ChIns) :
    (State.chanWait s c w).pending = s.pending ∧ (State.chanWait s c w).guards = s.guards := by
  grind [State.chanWait, State.chanNext_kept, State.updChan_kept, State.haltChan_kept, State.setChan_kept, foldl_kept]

theorem State.chanSignal_kept (s : State) (c : ℕ) (w : ChIns) :
    (State.chanSignal s c w).pending = s.pending ∧ (State.chanSignal s c w).guards = s.guards := by
  grind [State.chanSignal, State.chanNext_kept, State.updChan_kept, State.haltChan_kept, State.fireVector_kept, State.chanWrites_kept, foldl_kept]

theorem State.chanLink_kept (s : State) (c : ℕ) (w : ChIns) :
    (State.chanLink s c w).pending = s.pending ∧ (State.chanLink s c w).guards = s.guards := by
  grind [State.chanLink, State.haltChan_kept, State.chanGoesTo_kept, foldl_kept]

theorem State.chanNop_kept (s : State) (c : ℕ) (op : BitVec 4) (w : ChIns) :
    (State.chanNop s c op w).pending = s.pending ∧ (State.chanNop s c op w).guards = s.guards := by
  grind [State.chanNop, State.chanNext_kept, State.haltChan_kept, foldl_kept]

theorem State.chanEnd_kept (s : State) (c : ℕ) (w : ChIns) :
    (State.chanEnd s c w).pending = s.pending ∧ (State.chanEnd s c w).guards = s.guards := by
  grind [State.chanEnd, State.updChan_kept, State.programEnds_kept, State.rereadEnd_kept, foldl_kept]

theorem State.rereadDone_kept (s : State) (c : ℕ) (isLink : Bool) (target : HostAddr) :
    (State.rereadDone s c isLink target).pending = s.pending ∧ (State.rereadDone s c isLink target).guards = s.guards := by
  grind [State.rereadDone, State.updChan_kept, State.haltChan_kept, State.chanGoesTo_kept, State.programEnds_kept, State.rereadEnd_kept, foldl_kept]

theorem State.idleCheck_kept (s : State) (c : ℕ) :
    (State.idleCheck s c).pending = s.pending ∧ (State.idleCheck s c).guards = s.guards := by
  grind [State.idleCheck, State.updChan_kept, State.takeShadow_kept, foldl_kept]

theorem State.creditsCome_kept (s : State) (c : ℕ) :
    (State.creditsCome s c).pending = s.pending ∧ (State.creditsCome s c).guards = s.guards := by
  grind [State.creditsCome, State.chanNext_kept, State.setChan_kept, foldl_kept]

theorem State.bellRings_kept (s : State) (c : ℕ) :
    (State.bellRings s c).pending = s.pending ∧ (State.bellRings s c).guards = s.guards := by
  grind [State.bellRings, State.updChan_kept, State.rereadEnd_kept, foldl_kept]

theorem State.dmaBell_kept (s : State) (c : ℕ) (w : Word) :
    (State.dmaBell s c w).pending = s.pending ∧ (State.dmaBell s c w).guards = s.guards := by
  grind [State.dmaBell, State.updChan_kept, State.bellRings_kept, State.logAccess_kept, State.logAsleep_kept, State.creditsCome_kept, foldl_kept]

theorem State.chanData_kept (s : State) (c : ℕ) (off : ℕ) (bs : List Byte) :
    (State.chanData s c off bs).pending = s.pending ∧ (State.chanData s c off bs).guards = s.guards := by
  simp [State.chanData, State.updChan_kept, State.chanProgress_kept]

theorem State.lineDone_kept (s : State) (c : ℕ) (bs : List Byte) :
    (State.lineDone s c bs).pending = s.pending ∧ (State.lineDone s c bs).guards = s.guards := ⟨rfl, rfl⟩

theorem State.failsAt_kept (s : State) (c : ℕ) (off : ℕ) :
    (State.failsAt s c off).pending = s.pending ∧ (State.failsAt s c off).guards = s.guards := ⟨rfl, rfl⟩

theorem State.chanReadFails_kept (s : State) (c : ℕ) (key : ℕ) :
    (State.chanReadFails s c key).pending = s.pending ∧ (State.chanReadFails s c key).guards = s.guards := by
  simp [State.chanReadFails, State.chanProgress_kept, State.failsAt_kept]

theorem State.spanWritten_kept (s : State) (c : ℕ) (x : Span) (mk : Span → Xfer) :
    (State.spanWritten s c x mk).pending = s.pending ∧ (State.spanWritten s c x mk).guards = s.guards := by
  grind [State.spanWritten, State.updChan_kept, State.pointsReached_kept, State.advanceCursors_kept, foldl_kept]

theorem State.chanWritten_kept (s : State) (c : ℕ) :
    (State.chanWritten s c).pending = s.pending ∧ (State.chanWritten s c).guards = s.guards := by
  grind [State.chanWritten, State.chanProgress_kept, State.spanWritten_kept, foldl_kept]

theorem State.chanWriteFails_kept (s : State) (c : ℕ) (off : ℕ) :
    (State.chanWriteFails s c off).pending = s.pending ∧ (State.chanWriteFails s c off).guards = s.guards := by
  grind [State.chanWriteFails, State.haltChan_kept, State.chanWritten_kept, State.failsAt_kept, foldl_kept]

theorem State.chanFetchFails_kept (s : State) (c : ℕ) :
    (State.chanFetchFails s c).pending = s.pending ∧ (State.chanFetchFails s c).guards = s.guards := by
  grind [State.chanFetchFails, State.updChan_kept, State.haltChan_kept, foldl_kept]

theorem runDmarun_kept (x1 : ℕ) (queue : BitVec 16) (i : Ins) (s : State) :
    (runDmarun x1 queue i s).state.pending = s.pending ∧ (runDmarun x1 queue i s).state.guards = s.guards := by
  grind [runDmarun, State.beginBackground_kept, Ran.bad_kept, Ran.ok_kept, State.startProgram_kept, foldl_kept, Ran.state, Ran.ok, Ran.bad]

theorem runDmarunArm_kept (x1 : ℕ) (queue : BitVec 16) (i : Ins) (s : State) :
    (runDmarunArm x1 queue i s).state.pending = s.pending ∧ (runDmarunArm x1 queue i s).state.guards = s.guards := by
  grind [runDmarunArm, State.updChan_kept, State.beginBackground_kept, Ran.bad_kept, Ran.ok_kept, foldl_kept, Ran.state, Ran.ok, Ran.bad]

theorem State.stopNow_kept (s : State) (c : ℕ) :
    (State.stopNow s c).pending = s.pending ∧ (State.stopNow s c).guards = s.guards := by
  simp [State.stopNow, State.updChan_kept, State.setDma_kept, State.chanWritten_kept]

theorem stepDmastop_kept (i : Ins) (s : State) :
    (stepDmastop i s).state.pending = s.pending ∧ (stepDmastop i s).state.guards = s.guards := by
  grind [stepDmastop, Ran.ok_kept, foldl_kept, Ran.state, Ran.ok, Ran.bad]

theorem runDmastop_kept (x1 : ℕ) (x2 : BitVec 16) (i : Ins) (s : State) :
    (runDmastop x1 x2 i s).state.pending = s.pending ∧ (runDmastop x1 x2 i s).state.guards = s.guards := by
  grind [runDmastop, State.updChan_kept, State.haltChan_kept, stepDmastop_kept, State.stopNow_kept, Ran.bad_kept, State.endBackground_kept, foldl_kept, Ran.state, Ran.ok, Ran.bad]

/-! ### OpenCode -/

theorem runInvoked_kept (op : Byte) (jid : ℕ) (queue : BitVec 16) (i : Ins) (s : State) :
    (runInvoked op jid queue i s).state.pending = s.pending ∧ (runInvoked op jid queue i s).state.guards = s.guards := by
  grind [runInvoked, runDmastop_kept, runDmarun_kept, runSignal_kept, runHint_kept, runEpoch_kept, runPortcfg_kept, runHintCancel_kept, runSet_kept, runDmarunArm_kept, runCapset_kept, runTimeadj_kept, runTimestep_kept, runGet_kept, runKeyretire_kept, foldl_kept, Ran.state, Ran.ok, Ran.bad]

theorem State.openFault_kept (s : State) (reason : BitVec 4) (op : Byte) (word : BitVec 16) :
    (State.openFault s reason op word).pending = s.pending ∧ (State.openFault s reason op word).guards = s.guards := ⟨rfl, rfl⟩

/-- The state a micro-operation hands on keeps the queue of commands and the guard settings. -/
def MicroDone.Keeps (m : Micro) : MicroDone → Prop
  | .next m' => m'.after.pending = m.after.pending ∧ m'.after.guards = m.after.guards
  | .stop (.commit m') => m'.after.pending = m.after.pending ∧ m'.after.guards = m.after.guards
  | .stop (.done _ _ _ m') => m'.after.pending = m.after.pending ∧ m'.after.guards = m.after.guards
  | .stop _ => True

theorem Micro.invoke_keeps (m : Micro) (jid : Nat) (queue : BitVec 16) (d : BitVec 4) (a b : DWord) :
    (m.invoke jid queue d a b).Keeps m := by
  have h1 := runInvoked_kept (m.invoked a b).1 jid queue (m.invoked a b).2 m.after
  unfold Micro.invoke
  generalize m.invoked a b = oi at h1 ⊢
  obtain ⟨op, i⟩ := oi
  dsimp only at h1 ⊢
  split
  · exact ⟨rfl, rfl⟩
  · split
    · exact trivial
    · split
      · exact ⟨rfl, rfl⟩
      · split
        · exact ⟨rfl, rfl⟩
        · split <;> rename_i hr
          · rw [hr] at h1
            exact h1
          · exact trivial

theorem Micro.operate_keeps (m : Micro) (before : State) (jid : Nat) (queue : BitVec 16) (host : List (Nat × Option DWord)) (w : QWord) :
    (m.operate before jid queue host w).Keeps m := by
  have hi (m' : Micro) := m'.invoke_keeps jid queue
  have hs (a k v : Word) := m.after.applySet_kept a.toNat k v
  have hq (a : HostAddr) (bs : List Byte) := kept_trans (m.after.queueWrite_kept a bs false .none none) (State.countEmission_kept _ jid)
  have hv (v : Nat) := kept_trans (m.after.fireVector_kept v) (State.countEmission_kept _ jid)
  have hg (a : Nat) : ∀ d, describe m.after a = some d →
      (m.after.readMapped .postmaster d a).2.pending = m.after.pending ∧ (m.after.readMapped .postmaster d a).2.guards = m.after.guards :=
    fun d h => State.readMapped_kept m.after .postmaster d a h
  unfold Micro.operate
  dsimp only
  split
  · exact ⟨rfl, rfl⟩
  iterate 8 exact ⟨rfl, rfl⟩
  · unfold Micro.pget
    split
    · exact trivial
    · split
      · exact trivial
      · dsimp only [MicroDone.Keeps]
        split
        · exact hg _ _ ‹_›
        · exact ⟨rfl, rfl⟩
  · split
    · exact trivial
    · unfold Micro.pset
      split
      · exact trivial
      · split
        · exact trivial
        · exact hs _ _ _
  · split
    · exact trivial
    · split <;> first | exact ⟨rfl, rfl⟩ | exact trivial
  · split
    · exact trivial
    · split
      · exact trivial
      · exact hq _ _
  · split
    · exact trivial
    · exact hv _
  · split
    · exact trivial
    · exact hi { m with effects := m.effects + 1 } _ _ _
  · exact ⟨rfl, rfl⟩
  · split
    · exact ⟨rfl, rfl⟩
    · exact trivial
  · exact trivial

/-- What a step's run ends with keeps them too. -/
def MicroEnd.Keeps (m : Micro) : MicroEnd → Prop
  | .commit m' => m'.after.pending = m.after.pending ∧ m'.after.guards = m.after.guards
  | .done _ _ _ m' => m'.after.pending = m.after.pending ∧ m'.after.guards = m.after.guards
  | _ => True

theorem Micro.run_keeps (before : State) (jid : Nat) (queue : BitVec 16) (host : List (Nat × Option DWord)) (fuel : Nat) (m : Micro) :
    (Micro.run before jid queue host fuel m).Keeps m := by
  induction fuel generalizing m with
  | zero => exact trivial
  | succ n ih =>
    unfold Micro.run
    split
    · exact trivial
    · split
      · exact trivial
      · dsimp only
        split
        · exact trivial
        · have h := m.operate_keeps before jid queue host (before.cs.word m.pc.toNat)
          split <;> rename_i hr <;> rw [hr] at h
          · rename_i m'
            have h' := ih (m'.goesOn (before.cs.word m.pc.toNat))
            revert h'
            cases Micro.run before jid queue host n (m'.goesOn (before.cs.word m.pc.toNat)) with
            | commit x => exact fun h' => ⟨h'.1.trans h.1, h'.2.trans h.2⟩
            | done a b c x => exact fun h' => ⟨h'.1.trans h.1, h'.2.trans h.2⟩
            | _ => exact fun _ => trivial
          · exact h
          · rename_i e he
            cases e with
            | commit x => exact absurd rfl (he x)
            | done a b c x => exact h
            | _ => exact trivial

theorem SubRun.step_kept (r : SubRun) (jid : ℕ) (queue : BitVec 16) (i : Ins) (s : State) :
    (SubRun.step r jid queue i s).state.pending = s.pending ∧ (SubRun.step r jid queue i s).state.guards = s.guards := by
  unfold SubRun.step; (repeat' split) <;> grind [stepDmastop_kept, stepKeyretire_kept, stepEpoch_kept, stepSignal_kept, foldl_kept, Ran.state, Ran.ok, Ran.bad]

theorem OpenSt.invoked_kept (o : OpenSt) (n : Nat) (i : Ins) (r : Ran) :
    (o.invoked n i r).state.pending = r.state.pending ∧ (o.invoked n i r).state.guards = r.state.guards := by
  cases r <;> exact ⟨rfl, rfl⟩

theorem State.openParity_kept (s : State) (e : JEntry) (word : ℕ) :
    (State.openParity s e word).pending = s.pending ∧ (State.openParity s e word).guards = s.guards := ⟨rfl, rfl⟩

theorem openRun_kept (jid : Nat) (e : JEntry) (o : OpenSt) (s : State) :
    (openRun jid e o s).state.pending = s.pending ∧ (openRun jid e o s).state.guards = s.guards := by
  unfold openRun
  generalize o.cont.getD (openRegs e o.saved, s.cs.start e.op) = gp
  have h := Micro.run_keeps s jid e.queue o.host 4096 { g := gp.1, pc := gp.2, params := o.params, answers := o.answers, after := s }
  have hf := fun a => s.fetchHost_kept jid a 8 none
  dsimp only at h ⊢
  split <;> rename_i hr <;> rw [hr] at h
  · exact h
  · exact h
  · exact ⟨rfl, rfl⟩
  · exact ⟨rfl, rfl⟩
  · rename_i a _
    have hf := hf a
    split <;> rename_i hh <;> rw [hh] at hf <;> exact hf
  · exact kept_trans (runInvoked_kept _ _ _ _ _) (OpenSt.invoked_kept _ _ _ _)
  · exact s.openParity_kept e _

theorem stepOpen_kept (jid : Nat) (o : OpenSt) (s : State) :
    (stepOpen jid o s).state.pending = s.pending ∧ (stepOpen jid o s).state.guards = s.guards := by
  unfold stepOpen
  split
  · exact ⟨rfl, rfl⟩
  · split
    · exact ⟨rfl, rfl⟩
    · exact kept_trans (SubRun.step_kept _ _ _ _ _) (OpenSt.invoked_kept _ _ _ _)
    · dsimp only
      split
      · exact openRun_kept _ _ _ _
      · rename_i r _
        have hf := s.fetchHost_kept jid r.base 8 none
        split <;> rename_i hh <;> rw [hh] at hf
        · exact hf
        · exact kept_trans hf (openRun_kept _ _ _ _)
        · exact kept_trans hf (openRun_kept _ _ _ _)

theorem runOpen_kept (jid : ℕ) (x2 : BitVec 16) (x3 : Ins) (s : State) :
    (runOpen jid x2 x3 s).state.pending = s.pending ∧ (runOpen jid x2 x3 s).state.guards = s.guards := by
  grind [runOpen, stepOpen_kept, foldl_kept, Ran.state, Ran.ok, Ran.bad]

end Machine
end Sys2Proof
end

