-- ==== Sys2Proof/Laws/KeptFabric.lean ====
section
/-! SUPPORT. Frames of the fabric, the twin, the cascade, the window, the monitor and the routines: none of them touches the queue of commands, and none but
GUARDSET, GUARDLOCK, a cold reset and AON power-up touches the guard settings and their lock (R148). One lemma per function. -/

namespace Sys2Proof
namespace Machine

/-! ### Fabric -/

theorem State.queueStops_kept (s : State) (q : ℕ) :
    (State.queueStops s q).pending = s.pending ∧ (State.queueStops s q).guards = s.guards := by
  grind [State.queueStops, State.setQueue_kept, State.queueFault_kept, State.place_kept, State.takeFree_kept, foldl_kept]

theorem State.ringFails_kept (s : State) (q : QId) (idx : RIdx) :
    (State.ringFails s q idx).pending = s.pending ∧ (State.ringFails s q idx).guards = s.guards := by
  grind [State.ringFails, State.setQueue_kept, State.setDma_kept, State.queueFault_kept, foldl_kept]

theorem State.writeHeld_kept (x1 : ℕ) (x2 : ℕ) (x3 : State) :
    (State.writeHeld x1 x2 x3).pending = x3.pending ∧ (State.writeHeld x1 x2 x3).guards = x3.guards := by
  fun_induction State.writeHeld x1 x2 x3 <;> grind [State.setQueue_kept, State.writeEntry_kept, foldl_kept]

theorem State.ringDone_kept (s : State) (q : QId) (idx : RIdx) :
    (State.ringDone s q idx).pending = s.pending ∧ (State.ringDone s q idx).guards = s.guards := by
  grind [State.ringDone, State.writeHeld_kept, State.setQueue_kept, State.drainHeld_kept, State.settleFront_kept, foldl_kept]

theorem State.routineData_kept (s : State) (jid : ℕ) (off : ℕ) (bs : List Byte) :
    (State.routineData s jid off bs).pending = s.pending ∧ (State.routineData s jid off bs).guards = s.guards := ⟨rfl, rfl⟩

theorem State.routineFails_kept (s : State) (jid : ℕ) (off : ℕ) :
    (State.routineFails s jid off).pending = s.pending ∧ (State.routineFails s jid off).guards = s.guards := ⟨rfl, rfl⟩

theorem State.messageDone_kept (s : State) (v : ℕ) :
    (State.messageDone s v).pending = s.pending ∧ (State.messageDone s v).guards = s.guards := ⟨rfl, rfl⟩

theorem State.messageFails_kept (s : State) (v : ℕ) :
    (State.messageFails s v).pending = s.pending ∧ (State.messageFails s v).guards = s.guards := ⟨rfl, rfl⟩

theorem State.answered_kept (s : State) (r : Req) (data : List Byte) :
    (State.answered s r data).pending = s.pending ∧ (State.answered s r data).guards = s.guards := by
  grind [State.answered, State.routineData_kept, State.fetched_kept, State.lineDone_kept, State.puntAnswered_kept, State.chanData_kept, State.messageDone_kept, State.chanWritten_kept, State.ringDone_kept, State.reloadDone_kept, State.publishReady_kept, State.rereadDone_kept, foldl_kept]

theorem State.failedAccess_kept (s : State) (r : Req) :
    (State.failedAccess s r).pending = s.pending ∧ (State.failedAccess s r).guards = s.guards := by
  grind [State.failedAccess, State.injUnreadable_kept, State.routineFails_kept, State.queueFault_kept, State.chanWriteFails_kept, State.queueStops_kept, State.messageFails_kept, State.reloadDone_kept, State.ringFails_kept, State.chanFetchFails_kept, State.chanReadFails_kept, State.puntFailed_kept, foldl_kept]

theorem State.sendBacklog_kept (s : State) :
    (State.sendBacklog s).pending = s.pending ∧ (State.sendBacklog s).guards = s.guards := by
  grind [State.sendBacklog, State.sendReq_kept, State.setDma_kept, foldl_kept]

theorem State.internalFails_kept (s : State) (r : Req) :
    (State.internalFails s r).pending = s.pending ∧ (State.internalFails s r).guards = s.guards := by
  grind [State.internalFails, State.setChan_kept, foldl_kept]

theorem State.masterAnswer_kept (s : State) (tag : BitVec 10) (err : Bool) (data : List Byte) :
    (State.masterAnswer s tag err data).pending = s.pending ∧ (State.masterAnswer s tag err data).guards = s.guards := by
  grind [State.masterAnswer, State.internalFails_kept, State.sendBacklog_kept, State.failedAccess_kept, State.setDma_kept, State.answered_kept, State.internalEnds_kept, State.emit_kept, foldl_kept]

/-! ### Twin -/

theorem State.setOther_kept (s : State) (o : Partner) :
    (State.setOther s o).pending = s.pending ∧ (State.setOther s o).guards = s.guards := ⟨rfl, rfl⟩

theorem State.setTwin_kept (s : State) (t : TwinSt) :
    (State.setTwin s t).pending = s.pending ∧ (State.setTwin s t).guards = s.guards := ⟨rfl, rfl⟩

theorem State.unbind_kept (s : State) :
    (State.unbind s).pending = s.pending ∧ (State.unbind s).guards = s.guards := by
  grind [State.unbind, State.setCasc_kept, State.retainHeld_kept, foldl_kept]

theorem State.sendContexts_kept (s : State) :
    (State.sendContexts s).pending = s.pending ∧ (State.sendContexts s).guards = s.guards := by
  simp [State.sendContexts, State.mirrorEntry_kept, State.setCasc_kept, State.mirrorInj_kept, State.mirrorQueue_kept, State.forEach_kept]

theorem State.sendChunk_kept (s : State) (n : ℕ) :
    (State.sendChunk s n).pending = s.pending ∧ (State.sendChunk s n).guards = s.guards := by
  simp [State.sendChunk, State.setCasc_kept, State.toTwin_kept]

theorem State.twinSwitch_kept (s : State) :
    (State.twinSwitch s).pending = s.pending ∧ (State.twinSwitch s).guards = s.guards := by
  simp [State.twinSwitch, State.bumpQueues_kept, State.setCasc_kept]

theorem State.mirrorNow_kept (s : State) :
    (State.mirrorNow s).pending = s.pending ∧ (State.mirrorNow s).guards = s.guards := by
  grind [State.mirrorNow, State.setCasc_kept, State.toTwin_kept, foldl_kept]

theorem stepTwinbind_kept (queue : BitVec 16) (part : ℕ) (done : ℕ) (s : State) :
    (stepTwinbind queue part done s).state.pending = s.pending ∧ (stepTwinbind queue part done s).state.guards = s.guards := by
  grind [stepTwinbind, State.unbind_kept, State.sendContexts_kept, Ran.bad_kept, State.twinSwitch_kept, State.sendChunk_kept, Ran.ok_kept, State.toTwin_kept, foldl_kept, Ran.state, Ran.ok, Ran.bad]

theorem runTwinbind_kept (x1 : ℕ) (x2 : BitVec 16) (i : Ins) (s : State) :
    (runTwinbind x1 x2 i s).state.pending = s.pending ∧ (runTwinbind x1 x2 i s).state.guards = s.guards := by
  grind [runTwinbind, State.setCasc_kept, State.sendFlit_kept, Ran.bad_kept, foldl_kept, Ran.state, Ran.ok, Ran.bad]

theorem runTwinrelease_kept (x1 : ℕ) (x2 : BitVec 16) (x3 : Ins) (s : State) :
    (runTwinrelease x1 x2 x3 s).state.pending = s.pending ∧ (runTwinrelease x1 x2 x3 s).state.guards = s.guards := by
  grind [runTwinrelease, State.unbind_kept, State.bumpQueues_kept, Ran.bad_kept, Ran.ok_kept, State.toTwin_kept, foldl_kept, Ran.state, Ran.ok, Ran.bad]

theorem State.applyDelta_kept (s : State) (d : Delta) :
    (State.applyDelta s d).pending = s.pending ∧ (State.applyDelta s d).guards = s.guards := by
  grind [State.applyDelta, State.setOther_kept, State.ledgerPut_kept, foldl_kept]

theorem State.takeChunk_kept (s : State) (n : ℕ) (es : List (ℕ × BitVec 512)) :
    (State.takeChunk s n es).pending = s.pending ∧ (State.takeChunk s n es).guards = s.guards := by
  simp [State.takeChunk, State.ledgerPut_kept, State.forEach_kept]

theorem State.takeMirror_kept (s : State) (x2 : Payload) :
    (State.takeMirror s x2).pending = s.pending ∧ (State.takeMirror s x2).guards = s.guards := by
  unfold State.takeMirror; (repeat' split) <;> grind [State.setCasc_kept, State.setOther_kept, State.applyDelta_kept, State.takeChunk_kept, State.forEach_kept]

theorem State.takeTwin_kept (s : State) (src : BitVec 3) (x3 : TwinMsg) :
    (State.takeTwin s src x3).pending = s.pending ∧ (State.takeTwin s src x3).guards = s.guards := by
  unfold State.takeTwin; (repeat' split) <;> grind [State.rollBackAll_kept, State.unbind_kept, State.bumpQueues_kept, State.sendContexts_kept, State.setTwin_kept, State.setCasc_kept, State.sendFlit_kept, State.twinSwitch_kept, State.sendChunk_kept, State.enterMode_kept, foldl_kept]

theorem State.twinAdopt_kept (s : State) :
    (State.twinAdopt s).pending = s.pending ∧ (State.twinAdopt s).guards = s.guards := by
  grind [State.twinAdopt, State.setTwin_kept, State.toTwin_kept, foldl_kept]

theorem State.otherPut_kept (s : State) (q : ℕ) (body : List Byte) (f : Queue → Queue) :
    (State.otherPut s q body f).2.pending = s.pending ∧ (State.otherPut s q body f).2.guards = s.guards := by
  grind [State.otherPut, State.queueWrite_kept, State.setOther_kept, foldl_kept]

theorem State.otherPost_kept (s : State) (q : QId) (idx : RIdx) (c : Compl) :
    (State.otherPost s q idx c).2.pending = s.pending ∧ (State.otherPost s q idx c).2.guards = s.guards := by
  grind [State.otherPost, State.otherPut_kept, foldl_kept]

theorem State.otherOutcome_kept (s : State) (e : JEntry) :
    (State.otherOutcome s e).2.pending = s.pending ∧ (State.otherOutcome s e).2.guards = s.guards := by
  grind [State.otherOutcome, State.signal_kept, foldl_kept]

theorem State.otherCommand_kept (s : State) (e : JEntry) :
    (State.otherCommand s e).pending = s.pending ∧ (State.otherCommand s e).guards = s.guards := by
  grind [State.otherCommand, State.otherPost_kept, State.setOther_kept, State.otherOutcome_kept, foldl_kept]

theorem State.otherInject_kept (s : State) (e : Inj) :
    (State.otherInject s e).pending = s.pending ∧ (State.otherInject s e).guards = s.guards := by
  grind [State.otherInject, State.otherPost_kept, State.setOther_kept, foldl_kept]

theorem State.settleOther_kept (s : State) :
    (State.settleOther s).pending = s.pending ∧ (State.settleOther s).guards = s.guards := by
  simp [State.settleOther, State.otherInject_kept, State.otherCommand_kept, State.forEach_kept]

theorem State.takeOver_kept (s : State) :
    (State.takeOver s).pending = s.pending ∧ (State.takeOver s).guards = s.guards := by
  simp [State.takeOver, State.settleOther_kept, State.setTwin_kept, State.retainHeld_kept, State.emitGap_kept, State.setOther_kept]

theorem State.partnerFails_kept (s : State) :
    (State.partnerFails s).pending = s.pending ∧ (State.partnerFails s).guards = s.guards := by
  grind [State.partnerFails, State.unbind_kept, State.takeOver_kept, foldl_kept]

theorem State.otherRecord_kept (s : State) (gen : BitVec 16) (body : List Byte) :
    (State.otherRecord s gen body).2.pending = s.pending ∧ (State.otherRecord s gen body).2.guards = s.guards := by
  grind [State.otherRecord, State.otherPut_kept, foldl_kept]

theorem State.shadowVisit_kept (s : State) (j : ℕ) :
    (State.shadowVisit s j).2.pending = s.pending ∧ (State.shadowVisit s j).2.guards = s.guards := by
  grind [State.shadowVisit, State.otherRecord_kept, State.setOther_kept, State.ledgerPut_kept, foldl_kept]

theorem shadowList_kept (x1 : List ℕ) (x2 : State) :
    (shadowList x1 x2).2.pending = x2.pending ∧ (shadowList x1 x2).2.guards = x2.guards := by
  fun_induction shadowList x1 x2 <;> grind [State.shadowVisit_kept, foldl_kept]

theorem State.shadowItem_kept (s : State) (n : ℕ) :
    (State.shadowItem s n).2.pending = s.pending ∧ (State.shadowItem s n).2.guards = s.guards := by
  grind [State.shadowItem, State.otherRecord_kept, State.setOther_kept, foldl_kept]

theorem State.shadowItems_kept (x1 : ℕ) (x2 : State) :
    (State.shadowItems x1 x2).pending = x2.pending ∧ (State.shadowItems x1 x2).guards = x2.guards := by
  fun_induction State.shadowItems x1 x2 <;> grind [State.setOther_kept, State.shadowItem_kept, foldl_kept]

theorem State.shadowPart_kept (s : State) :
    (State.shadowPart s).pending = s.pending ∧ (State.shadowPart s).guards = s.guards := by
  grind [State.shadowPart, State.setOther_kept, shadowList_kept, State.shadowItems_kept, foldl_kept]

/-! ### Cascade -/

theorem State.rebuildColls_kept (s : State) :
    (State.rebuildColls s).pending = s.pending ∧ (State.rebuildColls s).guards = s.guards := ⟨rfl, rfl⟩

theorem State.reReport_kept (s : State) : s.reReport.pending = s.pending ∧ s.reReport.guards = s.guards := by
  have h1 : (if s.isHead then s.rebuildColls else s).pending = s.pending ∧ (if s.isHead then s.rebuildColls else s).guards = s.guards := by
    split
    exacts [State.rebuildColls_kept s, ⟨rfl, rfl⟩]
  have hc (s : State) (c : Coll) := State.toHead_kept s (.report c.issuer c.cid)
  have hn (s : State) (c : Coll) := State.toHead_kept s (.notReady c.issuer c.cid)
  have hp := State.toHead_kept
  unfold State.reReport
  dsimp only
  generalize (if s.isHead then s.rebuildColls else s) = t at *
  have h2 := State.forEach_kept t t.casc.colls (fun s c =>
    if c.mine then s.toHead (.report c.issuer c.cid) else if c.told then s.toHead (.notReady c.issuer c.cid) else s)
    (fun s c => by grind)
  revert h2
  generalize (t.forEach t.casc.colls fun s c =>
    if c.mine then s.toHead (.report c.issuer c.cid) else if c.told then s.toHead (.notReady c.issuer c.cid) else s) = t2
  intro h2
  have h3 := State.forEach_kept t2 t2.casc.issued (fun s x =>
    if x.ended.isNone && (s.coll s.casc.self x.jid).isNone then match s.entry x.jid with
      | some e => s.toHead (.pass x.jid x.op e.ins.a e.ins.target e.ins.b true)
      | none => s
    else s) (fun s x => by grind)
  revert h3
  generalize (t2.forEach t2.casc.issued fun s x =>
    if x.ended.isNone && (s.coll s.casc.self x.jid).isNone then match s.entry x.jid with
      | some e => s.toHead (.pass x.jid x.op e.ins.a e.ins.target e.ins.b true)
      | none => s
    else s) = t3
  intro h3
  have h4 := State.forEach_kept t3 t3.casc.colls (fun s c => s.headCheck c.issuer c.cid) (fun s c => State.headCheck_kept _ _ _)
  grind

theorem State.newHead_kept (s : State) (b : BitVec 3) : (s.newHead b).pending = s.pending ∧ (s.newHead b).guards = s.guards := by
  unfold State.newHead
  refine kept_trans ?_ (State.reReport_kept _)
  refine kept_trans (kept_trans (s.setCasc_kept { s.casc with head := b, successions := s.casc.successions + 1, queued := [] })
    (State.timeHeadLost_kept _)) ?_
  exact kept_ite (kept_ite ⟨rfl, rfl⟩ ⟨rfl, rfl⟩) (kept_ite ⟨rfl, rfl⟩ ⟨rfl, rfl⟩)

theorem State.elect_kept (s : State) :
    (State.elect s).pending = s.pending ∧ (State.elect s).guards = s.guards := by
  grind [State.elect, State.newHead_kept, State.setCasc_kept, foldl_kept]

theorem State.cascRole_kept (s : State) :
    (State.cascRole s).pending = s.pending ∧ (State.cascRole s).guards = s.guards := by
  grind [State.cascRole, State.setTimeUnit_kept, foldl_kept]

theorem runHeadyield_kept (x1 : ℕ) (x2 : BitVec 16) (x3 : Ins) (s : State) :
    (runHeadyield x1 x2 x3 s).state.pending = s.pending ∧ (runHeadyield x1 x2 x3 s).state.guards = s.guards := by
  grind [runHeadyield, State.elect_kept, State.setCasc_kept, Ran.ok_kept, foldl_kept, Ran.state, Ran.ok, Ran.bad]

theorem State.beat_kept (s : State) (m : BitVec 3) (mode : BitVec 4) (pmOk : Bool) (dpOk : Bool) (yielded : Bool) :
    (State.beat s m mode pmOk dpOk yielded).pending = s.pending ∧ (State.beat s m mode pmOk dpOk yielded).guards = s.guards := by
  grind [State.beat, State.elect_kept, State.headLose_kept, State.setTwin_kept, State.setCasc_kept, foldl_kept]

theorem State.sendBeats_kept (s : State) :
    (State.sendBeats s).pending = s.pending ∧ (State.sendBeats s).guards = s.guards := ⟨rfl, rfl⟩

theorem State.countMissing_kept (s : State) :
    (State.countMissing s).pending = s.pending ∧ (State.countMissing s).guards = s.guards := ⟨rfl, rfl⟩

theorem State.relayMatch_kept (s : State) :
    (State.relayMatch s).pending = s.pending ∧ (State.relayMatch s).guards = s.guards := by
  grind [State.relayMatch, State.sendFlit_kept, foldl_kept]

theorem State.heartbeat_kept (s : State) :
    (State.heartbeat s).pending = s.pending ∧ (State.heartbeat s).guards = s.guards := by
  grind [State.heartbeat, State.tellTime_kept, State.cascRole_kept, State.elect_kept, State.headLose_kept, State.countMissing_kept, State.relayMatch_kept, State.sendBeats_kept, foldl_kept]

theorem State.memberFails_kept (s : State) (m : BitVec 3) :
    (State.memberFails s m).pending = s.pending ∧ (State.memberFails s m).guards = s.guards := by
  grind [State.memberFails, State.partnerFails_kept, State.readiness_kept, State.cascRole_kept, State.elect_kept, State.headLose_kept, State.setCasc_kept, State.timeHeadLost_kept, foldl_kept]

theorem State.takeColl_kept (s : State) (src : BitVec 3) (m : CollMsg) :
    (State.takeColl s src m).pending = s.pending ∧ (State.takeColl s src m).guards = s.guards := by
  unfold State.takeColl; (repeat' split) <;> grind [State.readiness_kept, State.memberArm_kept, State.memberEnded_kept, State.memberHold_kept, State.noteReport_kept, State.headTake_kept, foldl_kept]

theorem State.deliver_kept (s : State) (src : BitVec 3) (p : Payload) :
    (s.deliver src p).pending = s.pending ∧ (s.deliver src p).guards = s.guards := by
  have h1 := State.beat_kept s src
  have h2 := State.headTime_kept s
  have h3 := State.takeColl_kept s src
  have h4 := State.wake_kept s 6 (src.setWidth 16)
  have h5 := State.takeTwin_kept s src
  have h6 := State.takeMirror_kept s
  have w (q : Payload) : (if s.mirrors && src = s.casc.partner then s.takeMirror q else s).pending = s.pending ∧
      (if s.mirrors && src = s.casc.partner then s.takeMirror q else s).guards = s.guards := kept_ite (h6 q) ⟨rfl, rfl⟩
  cases p with
  | idle => exact ⟨rfl, rfl⟩
  | heartbeat => exact h1 ..
  | time => exact kept_ite (h2 ..) ⟨rfl, rfl⟩
  | collective => exact h3 _
  | vote => exact ⟨rfl, rfl⟩
  | relay => exact h4
  | twin => exact h5 _
  | _ => exact w _

theorem State.forwarded_kept (s : State) (x2 : Payload) :
    (State.forwarded s x2).2.pending = s.pending ∧ (State.forwarded s x2).2.guards = s.guards := by
  unfold State.forwarded; (repeat' split) <;> grind [State.takeFree_kept, foldl_kept]

theorem State.route_kept (s : State) (l : Link) (f : Flit) :
    (State.route s l f).pending = s.pending ∧ (State.route s l f).guards = s.guards := by
  grind [State.route, State.sendOn_kept, State.deliver_kept, State.forwarded_kept, foldl_kept]

theorem State.flitIn_kept (s : State) (l : Link) (f : Flit) :
    (State.flitIn s l f).pending = s.pending ∧ (State.flitIn s l f).guards = s.guards := by
  grind [State.flitIn, State.route_kept, State.setLinkSt_kept, State.retainHeld_kept, foldl_kept]

theorem State.resend_kept (s : State) (l : Link) :
    (State.resend s l).pending = s.pending ∧ (State.resend s l).guards = s.guards := by
  grind [State.resend, State.setLinkSt_kept, State.emit_kept, foldl_kept]

/-! ### Window -/

theorem State.bootCfg_kept (s : State) (v : Word) :
    (State.bootCfg s v).pending = s.pending ∧ (State.bootCfg s v).guards = s.guards := by
  grind [State.bootCfg, State.setQueue_kept, State.setTop_kept, foldl_kept]

theorem State.bootWrite_kept (s : State) (w : ℕ) (v : Word) :
    (State.bootWrite s w v).pending = s.pending ∧ (State.bootWrite s w v).guards = s.guards := by
  grind [State.bootWrite, State.bootCfg_kept, State.setTop_kept, foldl_kept]

theorem State.vectorWrite_kept (s : State) (v : ℕ) (i : ℕ) (w : Word) :
    (State.vectorWrite s v i w).pending = s.pending ∧ (State.vectorWrite s v i w).guards = s.guards := by
  grind [State.vectorWrite, State.clearPending_kept, State.setVector_kept, State.unmask_kept, foldl_kept]

theorem State.directRead_kept (s : State) (path : Path) (addr : BitVec 34) :
    (s.directRead path addr).2.pending = s.pending ∧ (s.directRead path addr).2.guards = s.guards := by
  unfold State.directRead
  dsimp only
  split
  · exact ⟨rfl, rfl⟩
  · split
    · exact ⟨rfl, rfl⟩
    · split
      · exact ⟨rfl, rfl⟩
      · split
        · exact s.logAsleep_kept _ _
        · split
          · rename_i d hdd
            split at hdd
            · have h := State.readMapped_kept s path d addr.toNat hdd
              have h' := ((describe_some hdd).2.2.2 (s.readMapped path d addr.toNat).2)
              exact ⟨h'.1.trans h.1, h'.2.trans h.2⟩
            · cases hdd
          · exact s.logAccess_kept _ _

theorem State.directWrite_kept (s : State) (addr : BitVec 34) (v : Word) :
    (State.directWrite s addr v).pending = s.pending ∧ (State.directWrite s addr v).guards = s.guards := by
  grind [State.directWrite, State.dmaBell_kept, State.doorbellWrite_kept, State.bootWrite_kept, State.logAccess_kept, State.logAsleep_kept, State.vectorWrite_kept, foldl_kept]

theorem State.pathRead_kept (s : State) (path : Path) (addr : BitVec 34) :
    (s.pathRead path addr).pending = s.pending ∧ (s.pathRead path addr).guards = s.guards := by
  have h := State.directRead_kept s path addr
  have h' := State.pmRead_kept s addr.toNat
  unfold State.pathRead
  split
  · split
    · rename_i v t hv
      split at hv
      · exact h' _ hv
      · cases hv
    · exact ⟨rfl, rfl⟩
  · split
    · exact ⟨rfl, rfl⟩
    · exact h

theorem State.pathWrite_kept (s : State) (addr : BitVec 34) (v : Word) :
    (State.pathWrite s addr v).pending = s.pending ∧ (State.pathWrite s addr v).guards = s.guards := by
  grind [State.pathWrite, State.directWrite_kept, foldl_kept]

theorem State.targetRead_kept (s : State) (tag : Byte) (addr : BitVec 34) :
    (State.targetRead s tag addr).pending = s.pending ∧ (State.targetRead s tag addr).guards = s.guards := by
  grind [State.targetRead, State.directRead_kept, State.emit_kept, foldl_kept]

theorem State.mgmtWrite_kept (s : State) (addr : Word) (v : Word) (pec : Option Bool) :
    (State.mgmtWrite s addr v pec).pending = s.pending ∧ (State.mgmtWrite s addr v pec).guards = s.guards := by
  grind [State.mgmtWrite, State.pathWrite_kept, State.emit_kept, foldl_kept]

theorem State.mgmtRead_kept (s : State) (addr : Word) (pec : Option Bool) :
    (State.mgmtRead s addr pec).pending = s.pending ∧ (State.mgmtRead s addr pec).guards = s.guards := by
  grind [State.mgmtRead, State.directRead_kept, State.emit_kept, foldl_kept]

theorem State.mgmtMatch_kept (s : State) :
    (State.mgmtMatch s).pending = s.pending ∧ (State.mgmtMatch s).guards = s.guards := by
  grind [State.mgmtMatch, State.wake_kept, State.sendFlit_kept, State.emit_kept, foldl_kept]

/-! ### Monitor -/

theorem State.sayVer_kept (s : State) :
    (State.sayVer s).pending = s.pending ∧ (State.sayVer s).guards = s.guards := ⟨rfl, rfl⟩

theorem State.setBaud_kept (rate : ℕ) (s : State) :
    (State.setBaud rate s).pending = s.pending ∧ (State.setBaud rate s).guards = s.guards := by
  grind [State.setBaud, State.say_kept, foldl_kept]

theorem peekWords_kept (n a : Nat) (s : State) : (peekWords n a s).pending = s.pending ∧ (peekWords n a s).guards = s.guards := by
  induction n generalizing a s with
  | zero => exact ⟨rfl, rfl⟩
  | succ n ih =>
    unfold peekWords
    split
    · exact ⟨rfl, rfl⟩
    · split
      · rename_i v t h
        have := State.pmRead_kept s a _ h
        exact ⟨(ih _ _).1.trans this.1, (ih _ _).2.trans this.2⟩
      · exact ⟨rfl, rfl⟩

theorem State.poke_kept (a : ℕ) (v : Word) (m : Word) (s : State) :
    (State.poke a v m s).pending = s.pending ∧ (State.poke a v m s).guards = s.guards := by
  grind [State.poke, State.say_kept, State.applySet_kept, foldl_kept]

theorem GuardsStay.of_ite {c : Prop} [Decidable c] {s : State} {a b : Ran} (ha : a.state.pending = s.pending ∧ a.state.guards = s.guards)
    (hb : b.state.pending = s.pending ∧ b.state.guards = s.guards) : GuardsStay s (if c then a else b).state := by
  split; exacts [.of_kept ha, .of_kept hb]

theorem runOp_stays (op : Byte) (j : Nat) (q : BitVec 16) (i : Ins) (s : State) : GuardsStay s (runOp op j q i s).state := by
  unfold runOp
  split
  · exact .of_kept (runNop_kept ..)
  · exact .of_kept (runSet_kept ..)
  · exact .of_kept (runGet_kept ..)
  · exact .of_kept (runSetblk_kept ..)
  · exact .of_kept (runFence_kept ..)
  · exact .of_kept (runWaitfor_kept ..)
  · exact .of_kept (runSkipif_kept ..)
  · exact .of_kept (runSignal_kept ..)
  · exact .of_kept (runQcreate_kept ..)
  · exact .of_kept (runQdestroy_kept ..)
  · exact .of_kept (runQmodify_kept ..)
  · exact .of_kept (runMode_kept ..)
  · exact .of_kept (runPortcfg_kept ..)
  · exact .of_kept (runPortup_kept ..)
  · exact .of_kept (runPortdown_kept ..)
  · exact .of_ite (runSpareReturn_kept ..) (runSpareMove_kept ..)
  · exact .of_kept (runSlicetest_kept ..)
  · exact .of_kept (runRulewr_kept ..)
  · exact .of_kept (runEpoch_kept ..)
  · exact .of_kept (runBindwr_kept ..)
  · exact .of_kept (runPattwr_kept ..)
  · exact .of_kept (runSnap_kept ..)
  · exact .of_kept (runPairwr_kept ..)
  · exact .of_kept (runStatread_kept ..)
  · exact .of_kept (runTimeset_kept ..)
  · exact .of_kept (runTimeadj_kept ..)
  · exact .of_kept (runTimestep_kept ..)
  · exact .of_kept (runKeyload_kept ..)
  · exact .of_kept (runKeyretire_kept ..)
  · exact runGuardset_stays ..
  · exact runGuardlock_stays ..
  · exact .of_ite (runDmarunArm_kept ..) (runDmarun_kept ..)
  · exact .of_kept (runDmastop_kept ..)
  · exact .of_kept (runVote_kept ..)
  · exact .of_kept (runUnvote_kept ..)
  · exact .of_ite (runHintCancel_kept ..) (runHint_kept ..)
  · exact .of_kept (runCapset_kept ..)
  · exact .of_kept (runCsload_kept ..)
  · exact .of_ite (runCsswapUnmap_kept ..) (runCsswapMap_kept ..)
  · exact .of_kept (runCsverify_kept ..)
  · exact .of_kept (runTwinbind_kept ..)
  · exact .of_kept (runTwinrelease_kept ..)
  · exact .of_kept (runHeadyield_kept ..)
  · exact .of_kept (runOpen_kept ..)

theorem State.startMonitor_stays (s : State) : GuardsStay s s.startMonitor := by
  unfold State.startMonitor
  split
  · exact State.launch_stays _ _ _ fun j q i t => runOp_stays _ j q i t
  · exact .refl s

theorem State.monExec_stays (op : Byte) (i : Ins) (s : State) : GuardsStay s (State.monExec op i s) := by
  unfold State.monExec
  split
  · exact .of_kept (State.say_kept _ _)
  · exact (GuardsStay.of_kept ⟨rfl, rfl⟩).trans (State.startMonitor_stays _)

/-- A monitor command keeps what its answer keeps. -/
theorem State.monCommand_stays (s : State) (b : Bool) (f : State → State) (h : GuardsStay s (f s)) : GuardsStay s (s.monCommand b f) := by
  unfold State.monCommand
  split
  · exact .refl s
  · split
    · exact .of_kept (State.say_kept _ _)
    · split
      · exact .of_kept (State.say_kept _ _)
      · exact h

theorem sayFree_kept (x1 : ℕ) (x2 : ℕ) (x3 : State) :
    (sayFree x1 x2 x3).pending = x3.pending ∧ (sayFree x1 x2 x3).guards = x3.guards := by
  fun_induction sayFree x1 x2 x3 <;> grind [State.say_kept, State.takeFree_kept, foldl_kept]

theorem State.sayEntry_kept (s : State) (e : JEntry) :
    (State.sayEntry s e).pending = s.pending ∧ (State.sayEntry s e).guards = s.guards := by
  grind [State.sayEntry, State.say_kept, sayFree_kept, State.takeFree_kept, State.forEach_kept]

theorem State.sayMcheck_kept (s : State) :
    (State.sayMcheck s).pending = s.pending ∧ (State.sayMcheck s).guards = s.guards := ⟨rfl, rfl⟩

theorem State.sayLane_kept (l : ℕ) (eye : Word) (s : State) :
    (State.sayLane l eye s).pending = s.pending ∧ (State.sayLane l eye s).guards = s.guards := by
  grind [State.sayLane, State.say_kept, State.emit_kept, State.forEach_kept]

theorem State.setDbg_kept (s : State) (level : Bool) :
    (State.setDbg s level).pending = s.pending ∧ (State.setDbg s level).guards = s.guards := ⟨rfl, rfl⟩

theorem State.refuseUnlock_kept (s : State) :
    (State.refuseUnlock s).pending = s.pending ∧ (State.refuseUnlock s).guards = s.guards := ⟨rfl, rfl⟩

theorem State.unlockErase_kept (readBackFails : ℕ) (s : State) :
    (State.unlockErase readBackFails s).pending = s.pending ∧ (State.unlockErase readBackFails s).guards = s.guards := by
  grind [State.unlockErase, State.placeVotes_kept, State.refuseUnlock_kept, State.say_kept, State.unlock_kept, State.startRails_kept, foldl_kept]

theorem State.tapShift_kept (s : State) :
    (State.tapShift s).pending = s.pending ∧ (State.tapShift s).guards = s.guards := ⟨rfl, rfl⟩

theorem State.tapUnlock_kept (s : State) (readBackFails : ℕ) :
    (State.tapUnlock s readBackFails).pending = s.pending ∧ (State.tapUnlock s readBackFails).guards = s.guards := by
  grind [State.tapUnlock, State.opens_kept, State.refuseUnlock_kept, State.unlock_kept, foldl_kept]

theorem State.tapLoad_kept (s : State) (ir : Byte) :
    (State.tapLoad s ir).pending = s.pending ∧ (State.tapLoad s ir).guards = s.guards := ⟨rfl, rfl⟩

/-! ### Routines -/

theorem routineStep_kept (e : JEntry) (r : Routine) (s : State) :
    (routineStep e r s).state.pending = s.pending ∧ (routineStep e r s).state.guards = s.guards := by
  unfold routineStep; (repeat' split) <;> grind [stepOpen_kept, stepSnap_kept, stepTwinbind_kept, stepRulewr_kept, stepPortup_kept, stepCsverify_kept, stepSetblk_kept, stepQdestroy_kept, stepCsload_kept, stepDmastop_kept, stepKeyload_kept, stepUnvote_kept, TableKind.step_kept, stepSpare_kept, stepKeyretire_kept, stepWaitfor_kept, stepSlicetest_kept, stepPortdown_kept, stepUnvoteRefused_kept, stepFence_kept, stepVote_kept, stepEpoch_kept, stepStatread_kept, stepSignal_kept, stepPairwr_kept, foldl_kept, Ran.state, Ran.ok, Ran.bad]

theorem State.goOn_kept (s : State) (e : JEntry) : (s.goOn e).pending = s.pending ∧ (s.goOn e).guards = s.guards := by
  unfold State.goOn
  split
  · refine kept_trans (kept_trans (s.takeTurn_kept e) ?_) (State.takeDue_kept _)
    exact kept_trans (Machine.routineStep_kept e _ _) (State.absorb_kept e.id _)
  · exact ⟨rfl, rfl⟩

theorem State.routineStep_stays (s : State) (q : QId) : GuardsStay s (s.routineStep q) := by
  unfold State.routineStep
  split
  · exact .of_kept (State.goOn_kept _ _)
  · split
    · split
      · exact .of_kept (State.goOn_kept _ _)
      · exact State.startMonitor_stays _
    · exact .refl s

theorem State.periods_kept (x1 : ℕ) (x2 : State) :
    (State.periods x1 x2).pending = x2.pending ∧ (State.periods x1 x2).guards = x2.guards := by
  fun_induction State.periods x1 x2 <;> grind [State.laneTime_kept, foldl_kept]

theorem State.idle_kept (s : State) :
    (State.idle s).pending = s.pending ∧ (State.idle s).guards = s.guards := by
  simp [State.idle, State.issueReloads_kept, State.fillBuckets_kept, State.noteRegime_kept, State.tick_kept, State.periods_kept, State.drained_kept, State.forEach_kept]

end Machine
end Sys2Proof
end

