-- ==== Sys2Proof/WellFormed.lean ====
section
/-! DEFINITION. Which terms of Instr are commands the boundary can deliver: the numbers an operand may take where its type is wider than the
unit it names. A command that is not well formed has a meaning all the same; no statement needs it. -/

namespace Sys2Proof

/-- The numbered units a command names, each with how many of its kind there are: queues (R70), ports and lanes (R103), priorities, slices (R15),
vectors (R97), host channels (R312), domains (R361), members (R416), pair-table entries (R206). -/
def Instr.units : Instr → List (Nat × Nat)
  | .nop q _ => [(q.toNat, 4096)]
  | .set q _ => [(q.toNat, 4096)]
  | .get q _ => [(q.toNat, 4096)]
  | .setblk q _ => [(q.toNat, 4096)]
  | .fence q _ => [(q.toNat, 4096)]
  | .waitfor q _ => [(q.toNat, 4096)]
  | .skipif q _ => [(q.toNat, 4096)]
  | .signal q _ => [(q.toNat, 4096)]
  | .qcreate q _ => [(q.toNat, 4096)]
  | .qdestroy q _ => [(q.toNat, 4096)]
  | .qmodify q _ => [(q.toNat, 4096)]
  | .mode q _ => [(q.toNat, 4096)]
  | .portcfg q _ => [(q.toNat, 4096)]
  | .portup q _ => [(q.toNat, 4096)]
  | .portdown q _ => [(q.toNat, 4096)]
  | .spareMove q _ => [(q.toNat, 4096)]
  | .spareReturn q _ => [(q.toNat, 4096)]
  | .slicetest q _ => [(q.toNat, 4096)]
  | .rulewr q _ => [(q.toNat, 4096)]
  | .epoch q _ => [(q.toNat, 4096)]
  | .bindwr q _ => [(q.toNat, 4096)]
  | .pattwr q _ => [(q.toNat, 4096)]
  | .snap q _ => [(q.toNat, 4096)]
  | .pairwrWrite q _ => [(q.toNat, 4096)]
  | .pairwrFill q _ => [(q.toNat, 4096)]
  | .pairwrInvalidate q _ => [(q.toNat, 4096)]
  | .statread q _ => [(q.toNat, 4096)]
  | .timeset q _ => [(q.toNat, 4096)]
  | .timeadj q _ => [(q.toNat, 4096)]
  | .timestep q _ => [(q.toNat, 4096)]
  | .keyload q _ => [(q.toNat, 4096)]
  | .keyretire q _ => [(q.toNat, 4096)]
  | .guardset q _ => [(q.toNat, 4096)]
  | .guardlock q _ => [(q.toNat, 4096)]
  | .dmarun q _ => [(q.toNat, 4096)]
  | .dmarunArm q _ => [(q.toNat, 4096)]
  | .dmastop q _ => [(q.toNat, 4096)]
  | .vote q _ => [(q.toNat, 4096)]
  | .unvote q _ => [(q.toNat, 4096)]
  | .hint q _ => [(q.toNat, 4096)]
  | .hintCancel q _ => [(q.toNat, 4096)]
  | .capset q _ => [(q.toNat, 4096)]
  | .csload q _ => [(q.toNat, 4096)]
  | .csswapMap q _ => [(q.toNat, 4096)]
  | .csswapUnmap q _ => [(q.toNat, 4096)]
  | .csverify q _ => [(q.toNat, 4096)]
  | .twinbind q _ => [(q.toNat, 4096)]
  | .twinrelease q _ => [(q.toNat, 4096)]
  | .headyield q _ => [(q.toNat, 4096)]
  | .openRoutine q _ _ => [(q.toNat, 4096)]
  | .routineStep q => [(q.toNat, 4096)]
  | .queueDoorbell q _ => [(q.toNat, 4096)]
  | .queuePoll q => [(q.toNat, 4096)]
  | .entryFetch q _ _ => [(q.toNat, 4096)]
  | .commandAccept q => [(q.toNat, 4096)]
  | .injectConsume q => [(q.toNat, 4096)]
  | .headWriteback q => [(q.toNat, 4096)]
  | .completionPost q => [(q.toNat, 4096)]
  | .moderationTimeout q => [(q.toNat, 4096)]
  | .vectorPendingClear v _ => [(v.toNat, 2048)]
  | .vectorUnmask v => [(v.toNat, 2048)]
  | .directWrite _ _ _ => []
  | .directRead _ _ => []
  | .paramLowWordRead _ _ => []
  | .timeNowRead _ => []
  | .compatCounterRead _ _ => []
  | .tableWindowRead _ slice => [(slice.toNat, 17)]
  | .bootGo _ => []
  | .dmaDoorbell c _ => [(c.toNat, 32)]
  | .move c _ => [(c.toNat, 28)]
  | .fill c _ => [(c.toNat, 28)]
  | .compare c _ => [(c.toNat, 28)]
  | .loop c _ => [(c.toNat, 28)]
  | .wait c _ => [(c.toNat, 28)]
  | .dmaWaitTimeout c => [(c.toNat, 28)]
  | .dmaSignal c _ => [(c.toNat, 28)]
  | .link c _ => [(c.toNat, 28)]
  | .dmaNop c _ _ => [(c.toNat, 28)]
  | .endProg c _ => [(c.toNat, 28)]
  | .endReread c _ _ => [(c.toNat, 28)]
  | .dmaIdleCheck c => [(c.toNat, 28)]
  | .masterResponse _ _ _ => []
  | .targetRead _ _ => []
  | .mgmtBlockWrite _ _ _ => []
  | .mgmtProcessCall _ _ => []
  | .mgmtAddressMatch => []
  | .frameReceive p _ => [(p.toNat, 64)]
  | .pauseFrameReceive p _ => [(p.toNat, 64)]
  | .pauseExpire p i => [(p.toNat, 64), (i.toNat, 8)]
  | .verifyReceive p => [(p.toNat, 64)]
  | .respondReceive p => [(p.toNat, 64)]
  | .verifyTimer p => [(p.toNat, 64)]
  | .parse k _ => [(k.toNat, 16)]
  | .replicaReload k _ => [(k.toNat, 16)]
  | .ledgerResponse _ _ => []
  | .probeTimeout _ => []
  | .ledgerUnreachable _ => []
  | .cacheCleaner index => [(index.toNat, 16777216)]
  | .agingScan index _ => [(index.toNat, 16777216)]
  | .sweepStep _ => []
  | .pairTableClear => []
  | .coldResetWriteback _ => []
  | .handover k => [(k.toNat, 16)]
  | .punt k => [(k.toNat, 16)]
  | .recircReceive k p _ _ => [(k.toNat, 16), (p.toNat, 64)]
  | .rxCreditReturn k _ => [(k.toNat, 16)]
  | .heldBankLow k bank => [(k.toNat, 16), (bank.toNat, 2)]
  | .pipelineTxFrame k p _ _ => [(k.toNat, 16), (p.toNat, 64)]
  | .injectFetch q _ _ => [(q.toNat, 4096)]
  | .txFrameStart p _ => [(p.toNat, 64)]
  | .preempt p _ => [(p.toNat, 64)]
  | .txFrameEnd p _ => [(p.toNat, 64)]
  | .xoffChange p i _ => [(p.toNat, 64), (i.toNat, 8)]
  | .pfcRefresh p i => [(p.toNat, 64), (i.toNat, 8)]
  | .dutyClip p i => [(p.toNat, 64), (i.toNat, 8)]
  | .dutyRelease p i => [(p.toNat, 64), (i.toNat, 8)]
  | .stormWatchdogRx p i => [(p.toNat, 64), (i.toNat, 8)]
  | .stormWatchdogTx p i => [(p.toNat, 64), (i.toNat, 8)]
  | .stormHoldExpire p i _ => [(p.toNat, 64), (i.toNat, 8)]
  | .guardRefusalReport p _ => [(p.toNat, 64)]
  | .laneSignalDetect l _ => [(l.toNat, 64)]
  | .alignmentMarker l _ => [(l.toNat, 64)]
  | .faultOrderedSet p _ _ => [(p.toNat, 64)]
  | .fecDegradeInterval p => [(p.toNat, 64)]
  | .laneCalibration l _ _ => [(l.toNat, 64)]
  | .ppsEdge _ => []
  | .todMessage _ _ => []
  | .holdoverTimeout => []
  | .ppsOutput _ => []
  | .armedInstant _ => []
  | .alarmFire n => [(n.toNat, 2)]
  | .collectiveTimeout _ => []
  | .cascadeFlitReceive _ _ => []
  | .cascadeResend _ => []
  | .cascadeLinkDown _ => []
  | .heartbeat => []
  | .memberDeclaredFailed m => [(m.toNat, 8)]
  | .cascadeTimeExchange _ _ => []
  | .mirrorInterval => []
  | .twinAdopt => []
  | .machineCheck what => [(what.queue.toNat, 4096)]
  | .periodicSelfTest _ _ => []
  | .csParityReload _ _ _ _ q => [(q.toNat, 4096)]
  | .scrub => []
  | .sliceFault n _ _ _ => [(n.toNat, 17)]
  | .internalChannelFault c => [(c.toNat, 4)]
  | .postmasterWatchdog => []
  | .warmReset => []
  | .coldReset => []
  | .resetRelease cascId => [(cascId.toNat, 8)]
  | .aonPowerUp _ _ _ => []
  | .brownOut _ => []
  | .wake _ _ => []
  | .domainRestoreStep d => [(d.toNat, 25)]
  | .domainEntry d => [(d.toNat, 25)]
  | .railGood d => [(d.toNat, 25)]
  | .capEvaluation _ => []
  | .powerMeasurement _ _ => []
  | .measurementStale => []
  | .capInput _ => []
  | .hintExpire _ => []
  | .monVer => []
  | .monBaud _ => []
  | .monPeek _ _ => []
  | .monPoke _ _ _ => []
  | .monExec _ _ => []
  | .monJournal _ => []
  | .monMcheck => []
  | .monLane l _ => [(l.toNat, 64)]
  | .monUnlockErase _ _ => []
  | .tapUnlock _ _ => []
  | .dbgEnFall => []
  | .fecCodewordDecode l _ _ _ => [(l.toNat, 64)]
  | .dmaWaitTimeEnd c => [(c.toNat, 28)]
  | .corePllLock => []
  | .selfTestEnd _ _ => []
  | .heldBankHigh k bank => [(k.toNat, 16), (bank.toNat, 2)]
  | .sentPauseExpire p i => [(p.toNat, 64), (i.toNat, 8)]
  | .monUnknownCommand _ => []
  | .tapInstruction _ => []

/-- The checks on a command: a host channel below 28 (R313), an opcode of a channel NOP from 8 up (R315), a domain 1 to 24 (R361), a physical slice 0 to
16 and a fault kind 1 to 8 (R430), a replica word and a table entry that exist (R177, R206), at most 64 bytes of data (R469), a guard that reports
refusals (R155), an opcode of a collective (R61), a wake source (R372), an overlay word (R337), one of 8 hints (R386), the length of an
injected frame (R87), the predictions of 8 slice pairs (R383), a lane of a port (R103). -/
def Instr.wf : Instr → Bool
  | .nop .. => true
  | .set .. => true
  | .get .. => true
  | .setblk .. => true
  | .fence .. => true
  | .waitfor .. => true
  | .skipif .. => true
  | .signal .. => true
  | .qcreate .. => true
  | .qdestroy .. => true
  | .qmodify .. => true
  | .mode .. => true
  | .portcfg .. => true
  | .portup .. => true
  | .portdown .. => true
  | .spareMove .. => true
  | .spareReturn .. => true
  | .slicetest .. => true
  | .rulewr .. => true
  | .epoch .. => true
  | .bindwr .. => true
  | .pattwr .. => true
  | .snap .. => true
  | .pairwrWrite .. => true
  | .pairwrFill .. => true
  | .pairwrInvalidate .. => true
  | .statread .. => true
  | .timeset .. => true
  | .timeadj .. => true
  | .timestep .. => true
  | .keyload .. => true
  | .keyretire .. => true
  | .guardset .. => true
  | .guardlock .. => true
  | .dmarun .. => true
  | .dmarunArm .. => true
  | .dmastop .. => true
  | .vote .. => true
  | .unvote .. => true
  | .hint .. => true
  | .hintCancel .. => true
  | .capset .. => true
  | .csload .. => true
  | .csswapMap .. => true
  | .csswapUnmap .. => true
  | .csverify .. => true
  | .twinbind .. => true
  | .twinrelease .. => true
  | .headyield .. => true
  | .openRoutine .. => true
  | .routineStep .. => true
  | .queueDoorbell .. => true
  | .queuePoll .. => true
  | .entryFetch .. => true
  | .commandAccept .. => true
  | .injectConsume .. => true
  | .headWriteback .. => true
  | .completionPost .. => true
  | .moderationTimeout .. => true
  | .vectorPendingClear .. => true
  | .vectorUnmask .. => true
  | .directWrite .. => true
  | .directRead .. => true
  | .paramLowWordRead .. => true
  | .timeNowRead .. => true
  | .compatCounterRead .. => true
  | .tableWindowRead _ slice => decide (slice.toNat < 17)
  | .bootGo .. => true
  | .dmaDoorbell .. => true
  | .move c _ => decide (c.toNat < 28)
  | .fill c _ => decide (c.toNat < 28)
  | .compare c _ => decide (c.toNat < 28)
  | .loop c _ => decide (c.toNat < 28)
  | .wait c _ => decide (c.toNat < 28)
  | .dmaWaitTimeout c => decide (c.toNat < 28)
  | .dmaSignal c _ => decide (c.toNat < 28)
  | .link c _ => decide (c.toNat < 28)
  | .dmaNop c op _ => decide (c.toNat < 28) && decide (8 ≤ op.toNat)
  | .endProg c _ => decide (c.toNat < 28)
  | .endReread c _ _ => decide (c.toNat < 28)
  | .dmaIdleCheck c => decide (c.toNat < 28)
  | .masterResponse _ _ data => decide (data.length ≤ 64)
  | .targetRead .. => true
  | .mgmtBlockWrite .. => true
  | .mgmtProcessCall .. => true
  | .mgmtAddressMatch => true
  | .frameReceive _ f => decide (f.lane < 8)
  | .pauseFrameReceive _ f => decide (f.lane < 8)
  | .pauseExpire .. => true
  | .verifyReceive .. => true
  | .respondReceive .. => true
  | .verifyTimer .. => true
  | .parse _ parity => parity.all fun w => decide (w < 65536)
  | .replicaReload .. => true
  | .ledgerResponse .. => true
  | .probeTimeout .. => true
  | .ledgerUnreachable .. => true
  | .cacheCleaner .. => true
  | .agingScan .. => true
  | .sweepStep uncorrectable => uncorrectable.all fun n => decide (n < 16777216)
  | .pairTableClear => true
  | .coldResetWriteback .. => true
  | .handover .. => true
  | .punt .. => true
  | .recircReceive .. => true
  | .rxCreditReturn .. => true
  | .heldBankLow .. => true
  | .pipelineTxFrame .. => true
  | .injectFetch _ _ frame => decide (frame.length ≤ 16380)
  | .txFrameStart .. => true
  | .preempt .. => true
  | .txFrameEnd .. => true
  | .xoffChange .. => true
  | .pfcRefresh .. => true
  | .dutyClip .. => true
  | .dutyRelease .. => true
  | .stormWatchdogRx .. => true
  | .stormWatchdogTx .. => true
  | .stormHoldExpire .. => true
  | .guardRefusalReport _ guard => guard == 5 || guard == 6 || guard == 8
  | .laneSignalDetect .. => true
  | .alignmentMarker .. => true
  | .faultOrderedSet .. => true
  | .fecDegradeInterval .. => true
  | .laneCalibration .. => true
  | .ppsEdge .. => true
  | .todMessage .. => true
  | .holdoverTimeout => true
  | .ppsOutput .. => true
  | .armedInstant .. => true
  | .alarmFire .. => true
  | .collectiveTimeout op => op == 0x04 || op == 0x31 || op == 0x40
  | .cascadeFlitReceive .. => true
  | .cascadeResend .. => true
  | .cascadeLinkDown .. => true
  | .heartbeat => true
  | .memberDeclaredFailed .. => true
  | .cascadeTimeExchange .. => true
  | .mirrorInterval => true
  | .twinAdopt => true
  | .machineCheck .. => true
  | .periodicSelfTest .. => true
  | .csParityReload ovl page _ _ _ => !ovl || page == 0
  | .scrub => true
  | .sliceFault n kind _ _ => decide (n.toNat < 17) && decide (1 ≤ kind.toNat) && decide (kind.toNat ≤ 8)
  | .internalChannelFault .. => true
  | .postmasterWatchdog => true
  | .warmReset => true
  | .coldReset => true
  | .resetRelease .. => true
  | .aonPowerUp .. => true
  | .brownOut .. => true
  | .wake source _ => decide (1 ≤ source.toNat) && decide (source.toNat ≤ 6)
  | .domainRestoreStep d => decide (1 ≤ d.toNat) && decide (d.toNat < 25)
  | .domainEntry d => decide (1 ≤ d.toNat) && decide (d.toNat < 25)
  | .railGood d => decide (1 ≤ d.toNat) && decide (d.toNat < 25)
  | .capEvaluation o => o.pairPower.length == 8
  | .powerMeasurement .. => true
  | .measurementStale => true
  | .capInput .. => true
  | .hintExpire n => decide (n < 8)
  | .monVer => true
  | .monBaud .. => true
  | .monPeek .. => true
  | .monPoke .. => true
  | .monExec .. => true
  | .monJournal .. => true
  | .monMcheck => true
  | .monLane .. => true
  | .monUnlockErase .. => true
  | .tapUnlock .. => true
  | .dbgEnFall => true
  | .fecCodewordDecode .. => true
  | .dmaWaitTimeEnd c => decide (c.toNat < 28)
  | .corePllLock => true
  | .selfTestEnd .. => true
  | .heldBankHigh .. => true
  | .sentPauseExpire .. => true
  | .monUnknownCommand .. => true
  | .tapInstruction .. => true

end Sys2Proof
end

