-- ==== Sys2Proof/Laws/PerInstr.lean ====
section
/-! SUPPORT. Statements about a command as syntax, one lemma per constructor. -/

namespace Sys2Proof
namespace Laws

/-- A well-formed command names only units that exist. -/
def WF.Statement (i : Instr) : Prop := i.wf = true → ∀ u ∈ i.units, u.1 < u.2

theorem WF.none {p : Prop} (_ : p) : ∀ u ∈ ([] : List (Nat × Nat)), u.1 < u.2 := fun _ hu => nomatch hu
theorem WF.one {n k : Nat} (h : n < k) : ∀ u ∈ [(n, k)], u.1 < u.2 := fun _ hu => List.mem_singleton.mp hu ▸ h
theorem WF.two {n k n2 k2 : Nat} (h : n < k) (h2 : n2 < k2) : ∀ u ∈ [(n, k), (n2, k2)], u.1 < u.2 :=
  fun u hu => (List.mem_cons.mp hu).elim (fun e => e ▸ h) (WF.one h2 u)
theorem WF.and {a b : Bool} (h : (a && b) = true) : a = true ∧ b = true := (Bool.and_eq_true a b).mp h

theorem WF.nop (q : QId) (j : Ins) : WF.Statement (.nop q j) := fun _ => WF.one q.isLt
theorem WF.set (q : QId) (j : Ins) : WF.Statement (.set q j) := fun _ => WF.one q.isLt
theorem WF.get (q : QId) (j : Ins) : WF.Statement (.get q j) := fun _ => WF.one q.isLt
theorem WF.setblk (q : QId) (j : Ins) : WF.Statement (.setblk q j) := fun _ => WF.one q.isLt
theorem WF.fence (q : QId) (j : Ins) : WF.Statement (.fence q j) := fun _ => WF.one q.isLt
theorem WF.waitfor (q : QId) (j : Ins) : WF.Statement (.waitfor q j) := fun _ => WF.one q.isLt
theorem WF.skipif (q : QId) (j : Ins) : WF.Statement (.skipif q j) := fun _ => WF.one q.isLt
theorem WF.signal (q : QId) (j : Ins) : WF.Statement (.signal q j) := fun _ => WF.one q.isLt
theorem WF.qcreate (q : QId) (j : Ins) : WF.Statement (.qcreate q j) := fun _ => WF.one q.isLt
theorem WF.qdestroy (q : QId) (j : Ins) : WF.Statement (.qdestroy q j) := fun _ => WF.one q.isLt
theorem WF.qmodify (q : QId) (j : Ins) : WF.Statement (.qmodify q j) := fun _ => WF.one q.isLt
theorem WF.mode (q : QId) (j : Ins) : WF.Statement (.mode q j) := fun _ => WF.one q.isLt
theorem WF.portcfg (q : QId) (j : Ins) : WF.Statement (.portcfg q j) := fun _ => WF.one q.isLt
theorem WF.portup (q : QId) (j : Ins) : WF.Statement (.portup q j) := fun _ => WF.one q.isLt
theorem WF.portdown (q : QId) (j : Ins) : WF.Statement (.portdown q j) := fun _ => WF.one q.isLt
theorem WF.spareMove (q : QId) (j : Ins) : WF.Statement (.spareMove q j) := fun _ => WF.one q.isLt
theorem WF.spareReturn (q : QId) (j : Ins) : WF.Statement (.spareReturn q j) := fun _ => WF.one q.isLt
theorem WF.slicetest (q : QId) (j : Ins) : WF.Statement (.slicetest q j) := fun _ => WF.one q.isLt
theorem WF.rulewr (q : QId) (j : Ins) : WF.Statement (.rulewr q j) := fun _ => WF.one q.isLt
theorem WF.epoch (q : QId) (j : Ins) : WF.Statement (.epoch q j) := fun _ => WF.one q.isLt
theorem WF.bindwr (q : QId) (j : Ins) : WF.Statement (.bindwr q j) := fun _ => WF.one q.isLt
theorem WF.pattwr (q : QId) (j : Ins) : WF.Statement (.pattwr q j) := fun _ => WF.one q.isLt
theorem WF.snap (q : QId) (j : Ins) : WF.Statement (.snap q j) := fun _ => WF.one q.isLt
theorem WF.pairwrWrite (q : QId) (j : Ins) : WF.Statement (.pairwrWrite q j) := fun _ => WF.one q.isLt
theorem WF.pairwrFill (q : QId) (j : Ins) : WF.Statement (.pairwrFill q j) := fun _ => WF.one q.isLt
theorem WF.pairwrInvalidate (q : QId) (j : Ins) : WF.Statement (.pairwrInvalidate q j) := fun _ => WF.one q.isLt
theorem WF.statread (q : QId) (j : Ins) : WF.Statement (.statread q j) := fun _ => WF.one q.isLt
theorem WF.timeset (q : QId) (j : Ins) : WF.Statement (.timeset q j) := fun _ => WF.one q.isLt
theorem WF.timeadj (q : QId) (j : Ins) : WF.Statement (.timeadj q j) := fun _ => WF.one q.isLt
theorem WF.timestep (q : QId) (j : Ins) : WF.Statement (.timestep q j) := fun _ => WF.one q.isLt
theorem WF.keyload (q : QId) (j : Ins) : WF.Statement (.keyload q j) := fun _ => WF.one q.isLt
theorem WF.keyretire (q : QId) (j : Ins) : WF.Statement (.keyretire q j) := fun _ => WF.one q.isLt
theorem WF.guardset (q : QId) (j : Ins) : WF.Statement (.guardset q j) := fun _ => WF.one q.isLt
theorem WF.guardlock (q : QId) (j : Ins) : WF.Statement (.guardlock q j) := fun _ => WF.one q.isLt
theorem WF.dmarun (q : QId) (j : Ins) : WF.Statement (.dmarun q j) := fun _ => WF.one q.isLt
theorem WF.dmarunArm (q : QId) (j : Ins) : WF.Statement (.dmarunArm q j) := fun _ => WF.one q.isLt
theorem WF.dmastop (q : QId) (j : Ins) : WF.Statement (.dmastop q j) := fun _ => WF.one q.isLt
theorem WF.vote (q : QId) (j : Ins) : WF.Statement (.vote q j) := fun _ => WF.one q.isLt
theorem WF.unvote (q : QId) (j : Ins) : WF.Statement (.unvote q j) := fun _ => WF.one q.isLt
theorem WF.hint (q : QId) (j : Ins) : WF.Statement (.hint q j) := fun _ => WF.one q.isLt
theorem WF.hintCancel (q : QId) (j : Ins) : WF.Statement (.hintCancel q j) := fun _ => WF.one q.isLt
theorem WF.capset (q : QId) (j : Ins) : WF.Statement (.capset q j) := fun _ => WF.one q.isLt
theorem WF.csload (q : QId) (j : Ins) : WF.Statement (.csload q j) := fun _ => WF.one q.isLt
theorem WF.csswapMap (q : QId) (j : Ins) : WF.Statement (.csswapMap q j) := fun _ => WF.one q.isLt
theorem WF.csswapUnmap (q : QId) (j : Ins) : WF.Statement (.csswapUnmap q j) := fun _ => WF.one q.isLt
theorem WF.csverify (q : QId) (j : Ins) : WF.Statement (.csverify q j) := fun _ => WF.one q.isLt
theorem WF.twinbind (q : QId) (j : Ins) : WF.Statement (.twinbind q j) := fun _ => WF.one q.isLt
theorem WF.twinrelease (q : QId) (j : Ins) : WF.Statement (.twinrelease q j) := fun _ => WF.one q.isLt
theorem WF.headyield (q : QId) (j : Ins) : WF.Statement (.headyield q j) := fun _ => WF.one q.isLt
theorem WF.openRoutine (q : QId) (op : Byte) (j : Ins) : WF.Statement (.openRoutine q op j) := fun _ => WF.one q.isLt
theorem WF.routineStep (q : QId) : WF.Statement (.routineStep q) := fun _ => WF.one q.isLt
theorem WF.queueDoorbell (q : QId) (w : Word) : WF.Statement (.queueDoorbell q w) := fun _ => WF.one q.isLt
theorem WF.queuePoll (q : QId) : WF.Statement (.queuePoll q) := fun _ => WF.one q.isLt
theorem WF.entryFetch (q : QId) (idx : RIdx) (data : BitVec 512) : WF.Statement (.entryFetch q idx data) := fun _ => WF.one q.isLt
theorem WF.commandAccept (q : QId) : WF.Statement (.commandAccept q) := fun _ => WF.one q.isLt
theorem WF.injectConsume (q : QId) : WF.Statement (.injectConsume q) := fun _ => WF.one q.isLt
theorem WF.headWriteback (q : QId) : WF.Statement (.headWriteback q) := fun _ => WF.one q.isLt
theorem WF.completionPost (q : QId) : WF.Statement (.completionPost q) := fun _ => WF.one q.isLt
theorem WF.moderationTimeout (q : QId) : WF.Statement (.moderationTimeout q) := fun _ => WF.one q.isLt
theorem WF.vectorPendingClear (v : BitVec 11) (firesToo : Bool) : WF.Statement (.vectorPendingClear v firesToo) := fun _ => WF.one v.isLt
theorem WF.vectorUnmask (v : BitVec 11) : WF.Statement (.vectorUnmask v) := fun _ => WF.one v.isLt
theorem WF.directWrite (path : Path) (addr : BitVec 34) (v : Word) : WF.Statement (.directWrite path addr v) := fun h => WF.none h
theorem WF.directRead (path : Path) (addr : BitVec 34) : WF.Statement (.directRead path addr) := fun h => WF.none h
theorem WF.paramLowWordRead (path : Path) (addr : BitVec 34) : WF.Statement (.paramLowWordRead path addr) := fun h => WF.none h
theorem WF.timeNowRead (path : Path) : WF.Statement (.timeNowRead path) := fun h => WF.none h
theorem WF.compatCounterRead (path : Path) (addr : BitVec 34) : WF.Statement (.compatCounterRead path addr) := fun h => WF.none h
theorem WF.tableWindowRead (path : Path) (slice : BitVec 5) : WF.Statement (.tableWindowRead path slice) := fun h => WF.one (of_decide_eq_true h)
theorem WF.bootGo (v : Word) : WF.Statement (.bootGo v) := fun h => WF.none h
theorem WF.dmaDoorbell (c : BitVec 5) (w : Word) : WF.Statement (.dmaDoorbell c w) := fun _ => WF.one c.isLt
theorem WF.move (c : BitVec 5) (w : ChIns) : WF.Statement (.move c w) := fun h => WF.one (of_decide_eq_true h)
theorem WF.fill (c : BitVec 5) (w : ChIns) : WF.Statement (.fill c w) := fun h => WF.one (of_decide_eq_true h)
theorem WF.compare (c : BitVec 5) (w : ChIns) : WF.Statement (.compare c w) := fun h => WF.one (of_decide_eq_true h)
theorem WF.loop (c : BitVec 5) (w : ChIns) : WF.Statement (.loop c w) := fun h => WF.one (of_decide_eq_true h)
theorem WF.wait (c : BitVec 5) (w : ChIns) : WF.Statement (.wait c w) := fun h => WF.one (of_decide_eq_true h)
theorem WF.dmaWaitTimeout (c : BitVec 5) : WF.Statement (.dmaWaitTimeout c) := fun h => WF.one (of_decide_eq_true h)
theorem WF.dmaSignal (c : BitVec 5) (w : ChIns) : WF.Statement (.dmaSignal c w) := fun h => WF.one (of_decide_eq_true h)
theorem WF.link (c : BitVec 5) (w : ChIns) : WF.Statement (.link c w) := fun h => WF.one (of_decide_eq_true h)
theorem WF.dmaNop (c : BitVec 5) (op : BitVec 4) (w : ChIns) : WF.Statement (.dmaNop c op w) := fun h => WF.one (of_decide_eq_true (WF.and h).1)
theorem WF.endProg (c : BitVec 5) (w : ChIns) : WF.Statement (.endProg c w) := fun h => WF.one (of_decide_eq_true h)
theorem WF.endReread (c : BitVec 5) (isLink : Bool) (target : HostAddr) : WF.Statement (.endReread c isLink target) := fun h => WF.one (of_decide_eq_true h)
theorem WF.dmaIdleCheck (c : BitVec 5) : WF.Statement (.dmaIdleCheck c) := fun h => WF.one (of_decide_eq_true h)
theorem WF.masterResponse (tag : BitVec 10) (err : Bool) (data : List Byte) : WF.Statement (.masterResponse tag err data) := fun h => WF.none h
theorem WF.targetRead (tag : Byte) (addr : BitVec 34) : WF.Statement (.targetRead tag addr) := fun h => WF.none h
theorem WF.mgmtBlockWrite (addr : Word) (v : Word) (pec : Option Bool) : WF.Statement (.mgmtBlockWrite addr v pec) := fun h => WF.none h
theorem WF.mgmtProcessCall (addr : Word) (pec : Option Bool) : WF.Statement (.mgmtProcessCall addr pec) := fun h => WF.none h
theorem WF.mgmtAddressMatch : WF.Statement .mgmtAddressMatch := fun h => WF.none h
theorem WF.frameReceive (p : PortId) (f : RxFrame) : WF.Statement (.frameReceive p f) := fun _ => WF.one p.isLt
theorem WF.pauseFrameReceive (p : PortId) (f : RxFrame) : WF.Statement (.pauseFrameReceive p f) := fun _ => WF.one p.isLt
theorem WF.pauseExpire (p : PortId) (j : Prio) : WF.Statement (.pauseExpire p j) := fun _ => WF.two p.isLt j.isLt
theorem WF.verifyReceive (p : PortId) : WF.Statement (.verifyReceive p) := fun _ => WF.one p.isLt
theorem WF.respondReceive (p : PortId) : WF.Statement (.respondReceive p) := fun _ => WF.one p.isLt
theorem WF.verifyTimer (p : PortId) : WF.Statement (.verifyTimer p) := fun _ => WF.one p.isLt
theorem WF.parse (k : BitVec 4) (parity : List Nat) : WF.Statement (.parse k parity) := fun _ => WF.one k.isLt
theorem WF.replicaReload (k : BitVec 4) (word : BitVec 16) : WF.Statement (.replicaReload k word) := fun _ => WF.one k.isLt
theorem WF.ledgerResponse (tag : BitVec 11) (uncorrectable : Bool) : WF.Statement (.ledgerResponse tag uncorrectable) := fun h => WF.none h
theorem WF.probeTimeout (tag : BitVec 11) : WF.Statement (.probeTimeout tag) := fun h => WF.none h
theorem WF.ledgerUnreachable (tag : BitVec 11) : WF.Statement (.ledgerUnreachable tag) := fun h => WF.none h
theorem WF.cacheCleaner (index : BitVec 24) : WF.Statement (.cacheCleaner index) := fun _ => WF.one index.isLt
theorem WF.agingScan (index : BitVec 24) (uncorrectable : Bool) : WF.Statement (.agingScan index uncorrectable) := fun _ => WF.one index.isLt
theorem WF.sweepStep (uncorrectable : List Nat) : WF.Statement (.sweepStep uncorrectable) := fun h => WF.none h
theorem WF.pairTableClear : WF.Statement .pairTableClear := fun h => WF.none h
theorem WF.coldResetWriteback (ok : Bool) : WF.Statement (.coldResetWriteback ok) := fun h => WF.none h
theorem WF.handover (k : BitVec 4) : WF.Statement (.handover k) := fun _ => WF.one k.isLt
theorem WF.punt (k : BitVec 4) : WF.Statement (.punt k) := fun _ => WF.one k.isLt
theorem WF.recircReceive (k : BitVec 4) (p : PortId) (frame : List Byte) (mw : QWord) : WF.Statement (.recircReceive k p frame mw) := fun _ => WF.two k.isLt p.isLt
theorem WF.rxCreditReturn (k : BitVec 4) (n : BitVec 3) : WF.Statement (.rxCreditReturn k n) := fun _ => WF.one k.isLt
theorem WF.heldBankLow (k : BitVec 4) (bank : BitVec 1) : WF.Statement (.heldBankLow k bank) := fun _ => WF.two k.isLt bank.isLt
theorem WF.pipelineTxFrame (k : BitVec 4) (p : PortId) (word : QWord) (frame : BusFrame) : WF.Statement (.pipelineTxFrame k p word frame) := fun _ => WF.two k.isLt p.isLt
theorem WF.injectFetch (q : QId) (ok : Bool) (frame : List Byte) : WF.Statement (.injectFetch q ok frame) := fun _ => WF.one q.isLt
theorem WF.txFrameStart (p : PortId) (preempt : Bool) : WF.Statement (.txFrameStart p preempt) := fun _ => WF.one p.isLt
theorem WF.preempt (p : PortId) (offset : Nat) : WF.Statement (.preempt p offset) := fun _ => WF.one p.isLt
theorem WF.txFrameEnd (p : PortId) (preempt : Bool) : WF.Statement (.txFrameEnd p preempt) := fun _ => WF.one p.isLt
theorem WF.xoffChange (p : PortId) (j : Prio) (high : Bool) : WF.Statement (.xoffChange p j high) := fun _ => WF.two p.isLt j.isLt
theorem WF.pfcRefresh (p : PortId) (j : Prio) : WF.Statement (.pfcRefresh p j) := fun _ => WF.two p.isLt j.isLt
theorem WF.dutyClip (p : PortId) (j : Prio) : WF.Statement (.dutyClip p j) := fun _ => WF.two p.isLt j.isLt
theorem WF.dutyRelease (p : PortId) (j : Prio) : WF.Statement (.dutyRelease p j) := fun _ => WF.two p.isLt j.isLt
theorem WF.stormWatchdogRx (p : PortId) (j : Prio) : WF.Statement (.stormWatchdogRx p j) := fun _ => WF.two p.isLt j.isLt
theorem WF.stormWatchdogTx (p : PortId) (j : Prio) : WF.Statement (.stormWatchdogTx p j) := fun _ => WF.two p.isLt j.isLt
theorem WF.stormHoldExpire (p : PortId) (j : Prio) (sent : Bool) : WF.Statement (.stormHoldExpire p j sent) := fun _ => WF.two p.isLt j.isLt
theorem WF.guardRefusalReport (p : PortId) (guard : Byte) : WF.Statement (.guardRefusalReport p guard) := fun _ => WF.one p.isLt
theorem WF.laneSignalDetect (l : PortId) (high : Bool) : WF.Statement (.laneSignalDetect l high) := fun _ => WF.one l.isLt
theorem WF.alignmentMarker (l : PortId) (m : Marker) : WF.Statement (.alignmentMarker l m) := fun _ => WF.one l.isLt
theorem WF.faultOrderedSet (p : PortId) (remote : Bool) (present : Bool) : WF.Statement (.faultOrderedSet p remote present) := fun _ => WF.one p.isLt
theorem WF.fecDegradeInterval (p : PortId) : WF.Statement (.fecDegradeInterval p) := fun _ => WF.one p.isLt
theorem WF.laneCalibration (l : PortId) (rx : BitVec 15) (tx : BitVec 15) : WF.Statement (.laneCalibration l rx tx) := fun _ => WF.one l.isLt
theorem WF.ppsEdge (phase : BitVec 3) : WF.Statement (.ppsEdge phase) := fun h => WF.none h
theorem WF.todMessage (bytes : List Byte) (inTime : Bool) : WF.Statement (.todMessage bytes inTime) := fun h => WF.none h
theorem WF.holdoverTimeout : WF.Statement .holdoverTimeout := fun h => WF.none h
theorem WF.ppsOutput (rise : Bool) : WF.Statement (.ppsOutput rise) := fun h => WF.none h
theorem WF.armedInstant (snap : Bool) : WF.Statement (.armedInstant snap) := fun h => WF.none h
theorem WF.alarmFire (n : BitVec 1) : WF.Statement (.alarmFire n) := fun _ => WF.one n.isLt
theorem WF.collectiveTimeout (op : Byte) : WF.Statement (.collectiveTimeout op) := fun h => WF.none h
theorem WF.cascadeFlitReceive (l : Link) (f : Flit) : WF.Statement (.cascadeFlitReceive l f) := fun h => WF.none h
theorem WF.cascadeResend (l : Link) : WF.Statement (.cascadeResend l) := fun h => WF.none h
theorem WF.cascadeLinkDown (l : Link) : WF.Statement (.cascadeLinkDown l) := fun h => WF.none h
theorem WF.heartbeat : WF.Statement .heartbeat := fun h => WF.none h
theorem WF.memberDeclaredFailed (m : BitVec 3) : WF.Statement (.memberDeclaredFailed m) := fun _ => WF.one m.isLt
theorem WF.cascadeTimeExchange (offset : Int) (roundTrip : Nat) : WF.Statement (.cascadeTimeExchange offset roundTrip) := fun h => WF.none h
theorem WF.mirrorInterval : WF.Statement .mirrorInterval := fun h => WF.none h
theorem WF.twinAdopt : WF.Statement .twinAdopt := fun h => WF.none h
theorem WF.machineCheck (what : Check) : WF.Statement (.machineCheck what) := fun _ => WF.one what.queue.isLt
theorem WF.periodicSelfTest (aFails : Bool) (bFails : Bool) : WF.Statement (.periodicSelfTest aFails bFails) := fun h => WF.none h
theorem WF.csParityReload (ovl : Bool) (page : BitVec 3) (word : BitVec 13) (fetched : Bool) (q : QId) : WF.Statement (.csParityReload ovl page word fetched q) := fun _ => WF.one q.isLt
theorem WF.scrub : WF.Statement .scrub := fun h => WF.none h
theorem WF.sliceFault (n : BitVec 5) (kind : BitVec 4) (entry : BitVec 13) (bank : Bool) : WF.Statement (.sliceFault n kind entry bank) := fun h => WF.one (of_decide_eq_true (WF.and (WF.and h).1).1)
theorem WF.internalChannelFault (c : BitVec 2) : WF.Statement (.internalChannelFault c) := fun _ => WF.one c.isLt
theorem WF.postmasterWatchdog : WF.Statement .postmasterWatchdog := fun h => WF.none h
theorem WF.warmReset : WF.Statement .warmReset := fun h => WF.none h
theorem WF.coldReset : WF.Statement .coldReset := fun h => WF.none h
theorem WF.resetRelease (cascId : BitVec 3) : WF.Statement (.resetRelease cascId) := fun _ => WF.one cascId.isLt
theorem WF.aonPowerUp (bootCount : BitVec 16) (bodLatch : Bool) (lmRegion : BitVec 2) : WF.Statement (.aonPowerUp bootCount bodLatch lmRegion) := fun h => WF.none h
theorem WF.brownOut (bootCount : BitVec 16) : WF.Statement (.brownOut bootCount) := fun h => WF.none h
theorem WF.wake (source : BitVec 4) (detail : BitVec 16) : WF.Statement (.wake source detail) := fun h => WF.none h
theorem WF.domainRestoreStep (d : BitVec 5) : WF.Statement (.domainRestoreStep d) := fun h => WF.one (of_decide_eq_true (WF.and h).2)
theorem WF.domainEntry (d : BitVec 5) : WF.Statement (.domainEntry d) := fun h => WF.one (of_decide_eq_true (WF.and h).2)
theorem WF.railGood (d : BitVec 5) : WF.Statement (.railGood d) := fun h => WF.one (of_decide_eq_true (WF.and h).2)
theorem WF.capEvaluation (o : CapObs) : WF.Statement (.capEvaluation o) := fun h => WF.none h
theorem WF.powerMeasurement (m : BitVec 16) (mean : Nat) : WF.Statement (.powerMeasurement m mean) := fun h => WF.none h
theorem WF.measurementStale : WF.Statement .measurementStale := fun h => WF.none h
theorem WF.capInput (v : BitVec 16) : WF.Statement (.capInput v) := fun h => WF.none h
theorem WF.hintExpire (n : Nat) : WF.Statement (.hintExpire n) := fun h => WF.none h
theorem WF.monVer : WF.Statement .monVer := fun h => WF.none h
theorem WF.monBaud (rate : Nat) : WF.Statement (.monBaud rate) := fun h => WF.none h
theorem WF.monPeek (addr : Word) (n : Nat) : WF.Statement (.monPeek addr n) := fun h => WF.none h
theorem WF.monPoke (addr : Word) (v : Word) (m : Word) : WF.Statement (.monPoke addr v m) := fun h => WF.none h
theorem WF.monExec (op : Byte) (j : Ins) : WF.Statement (.monExec op j) := fun h => WF.none h
theorem WF.monJournal (n : Nat) : WF.Statement (.monJournal n) := fun h => WF.none h
theorem WF.monMcheck : WF.Statement .monMcheck := fun h => WF.none h
theorem WF.monLane (l : PortId) (eye : Word) : WF.Statement (.monLane l eye) := fun _ => WF.one l.isLt
theorem WF.monUnlockErase (dbgEn : Bool) (readBackFails : Nat) : WF.Statement (.monUnlockErase dbgEn readBackFails) := fun h => WF.none h
theorem WF.tapUnlock (dbgEn : Bool) (readBackFails : Nat) : WF.Statement (.tapUnlock dbgEn readBackFails) := fun h => WF.none h
theorem WF.dbgEnFall : WF.Statement .dbgEnFall := fun h => WF.none h
theorem WF.fecCodewordDecode (l : PortId) (corrected badBlocks : Nat) (uncorrectable : Bool) : WF.Statement (.fecCodewordDecode l corrected badBlocks uncorrectable) := fun _ => WF.one l.isLt
theorem WF.dmaWaitTimeEnd (c : BitVec 5) : WF.Statement (.dmaWaitTimeEnd c) := fun h => WF.one (of_decide_eq_true h)
theorem WF.corePllLock : WF.Statement .corePllLock := fun h => WF.none h
theorem WF.selfTestEnd (aFails : Bool) (bFails : Bool) : WF.Statement (.selfTestEnd aFails bFails) := fun h => WF.none h
theorem WF.heldBankHigh (k : BitVec 4) (bank : BitVec 1) : WF.Statement (.heldBankHigh k bank) := fun _ => WF.two k.isLt bank.isLt
theorem WF.sentPauseExpire (p : PortId) (j : Prio) : WF.Statement (.sentPauseExpire p j) := fun _ => WF.two p.isLt j.isLt
theorem WF.monUnknownCommand (line : List Byte) : WF.Statement (.monUnknownCommand line) := fun h => WF.none h
theorem WF.tapInstruction (ir : Byte) : WF.Statement (.tapInstruction ir) := fun h => WF.none h

end Laws
end Sys2Proof
end

