-- ==== Sys2Proof/Laws/Starts.lean ====
section
/-! SUPPORT. What the start of an instruction and the next step of a routine can do, said once (R43 to R49). -/

namespace Sys2Proof
namespace Machine

theorem State.launch_begun (s : State) (e : JEntry) (run : Nat → BitVec 16 → Ins → State → Ran) :
    s.launch e run = match preCheck (s.begun e) e.op (if e.queue = 0xFFFF then 0 else e.queue) e.ins with
      | some st => (s.begun e).finish e.id st 0 0
      | none => State.absorb e.id (run e.id e.queue e.ins (s.begun e)) := rfl

/-- An instruction that starts and passes its checks runs its own step 0. -/
theorem begins_starts {s : State} {q : QId} {op : Byte} {sel : Bool} {i : Ins} {e : JEntry} (h : s.starts q op i e)
    (hs : sel = true) (run : Nat → BitVec 16 → Ins → State → Ran) :
    begins q op sel i run s = .next (State.absorb e.id (run e.id e.queue i (s.begun e))) := by
  obtain ⟨h1, h2, h3, h4⟩ := h
  subst h2 h3 hs
  have hl := s.launch_begun e run
  rw [h4] at hl
  simp [begins, State.begin, h1, hl]

/-- A start that fails a check ends with that check's status. -/
theorem begins_fails {s : State} {q : QId} {i : Ins} {e : JEntry} {st : Status} (h : s.startable q.toNat = some e) (hi : e.ins = i)
    (hc : preCheck (s.begun e) e.op (if e.queue = 0xFFFF then 0 else e.queue) i = some st)
    (run : Nat → BitVec 16 → Ins → State → Ran) :
    begins q e.op true i run s = .next ((s.begun e).finish e.id st 0 0) := by
  subst hi
  have hl := s.launch_begun e run
  rw [hc] at hl
  simp [begins, State.begin, h, hl]

/-- With no entry that may start, an instruction row changes nothing. -/
theorem begins_nothing {s : State} {q : QId} (h : s.startable q.toNat = none) (op : Byte) (sel : Bool) (i : Ins)
    (run : Nat → BitVec 16 → Ins → State → Ran) : begins q op sel i run s = .next s := by
  simp [begins, State.begin, h]

/-- A routine that may go on runs its next step, and what waits for a commit point is taken. -/
theorem routineStep_goes {s : State} {q : QId} {e : JEntry} {r : Routine} (h : s.goesOnWith q e r) :
    s.routineStep q = (State.absorb e.id (Machine.routineStep e r (s.takeTurn e))).takeDue := by
  simp [State.routineStep, State.goOn, h.1, h.2]

end Machine
end Sys2Proof
end

