-- ==== Sys2Proof/Laws/State.lean ====
section
/-! SUPPORT. One lemma per field per update of State, and what is read after a write, so that no proof unfolds a record
update. -/

namespace Sys2Proof
namespace Machine

/-! ### setPort -/

@[simp] theorem State.setPort_pending (s : State) (p : Nat) (v : Port) : (s.setPort p v).pending = s.pending := rfl
@[simp] theorem State.setPort_out (s : State) (p : Nat) (v : Port) : (s.setPort p v).out = s.out := rfl
@[simp] theorem State.setPort_fresh (s : State) (p : Nat) (v : Port) : (s.setPort p v).fresh = s.fresh := rfl
@[simp] theorem State.setPort_nextId (s : State) (p : Nat) (v : Port) : (s.setPort p v).nextId = s.nextId := rfl
@[simp] theorem State.setPort_clock (s : State) (p : Nat) (v : Port) : (s.setPort p v).clock = s.clock := rfl
@[simp] theorem State.setPort_regimes (s : State) (p : Nat) (v : Port) : (s.setPort p v).regimes = s.regimes := rfl
@[simp] theorem State.setPort_top (s : State) (p : Nat) (v : Port) : (s.setPort p v).top = s.top := rfl
@[simp] theorem State.setPort_pm (s : State) (p : Nat) (v : Port) : (s.setPort p v).pm = s.pm := rfl
@[simp] theorem State.setPort_cs (s : State) (p : Nat) (v : Port) : (s.setPort p v).cs = s.cs := rfl
@[simp] theorem State.setPort_qs (s : State) (p : Nat) (v : Port) : (s.setPort p v).qs = s.qs := rfl
@[simp] theorem State.setPort_dma (s : State) (p : Nat) (v : Port) : (s.setPort p v).dma = s.dma := rfl
@[simp] theorem State.setPort_sorter (s : State) (p : Nat) (v : Port) : (s.setPort p v).sorter = s.sorter := rfl
@[simp] theorem State.setPort_reg (s : State) (p : Nat) (v : Port) : (s.setPort p v).reg = s.reg := rfl
@[simp] theorem State.setPort_stats (s : State) (p : Nat) (v : Port) : (s.setPort p v).stats = s.stats := rfl
@[simp] theorem State.setPort_time (s : State) (p : Nat) (v : Port) : (s.setPort p v).time = s.time := rfl
@[simp] theorem State.setPort_sec (s : State) (p : Nat) (v : Port) : (s.setPort p v).sec = s.sec := rfl
@[simp] theorem State.setPort_guards (s : State) (p : Nat) (v : Port) : (s.setPort p v).guards = s.guards := rfl
@[simp] theorem State.setPort_guardQueue (s : State) (p : Nat) (v : Port) : (s.setPort p v).guardQueue = s.guardQueue := rfl
@[simp] theorem State.setPort_lanes (s : State) (p : Nat) (v : Port) : (s.setPort p v).lanes = s.lanes := rfl
@[simp] theorem State.setPort_frames (s : State) (p : Nat) (v : Port) : (s.setPort p v).frames = s.frames := rfl
@[simp] theorem State.setPort_power (s : State) (p : Nat) (v : Port) : (s.setPort p v).power = s.power := rfl
@[simp] theorem State.setPort_casc (s : State) (p : Nat) (v : Port) : (s.setPort p v).casc = s.casc := rfl
@[simp] theorem State.setPort_mon (s : State) (p : Nat) (v : Port) : (s.setPort p v).mon = s.mon := rfl

/-! ### setLane -/

@[simp] theorem State.setLane_pending (s : State) (l : Nat) (v : Lane) : (s.setLane l v).pending = s.pending := rfl
@[simp] theorem State.setLane_out (s : State) (l : Nat) (v : Lane) : (s.setLane l v).out = s.out := rfl
@[simp] theorem State.setLane_fresh (s : State) (l : Nat) (v : Lane) : (s.setLane l v).fresh = s.fresh := rfl
@[simp] theorem State.setLane_nextId (s : State) (l : Nat) (v : Lane) : (s.setLane l v).nextId = s.nextId := rfl
@[simp] theorem State.setLane_clock (s : State) (l : Nat) (v : Lane) : (s.setLane l v).clock = s.clock := rfl
@[simp] theorem State.setLane_regimes (s : State) (l : Nat) (v : Lane) : (s.setLane l v).regimes = s.regimes := rfl
@[simp] theorem State.setLane_top (s : State) (l : Nat) (v : Lane) : (s.setLane l v).top = s.top := rfl
@[simp] theorem State.setLane_pm (s : State) (l : Nat) (v : Lane) : (s.setLane l v).pm = s.pm := rfl
@[simp] theorem State.setLane_cs (s : State) (l : Nat) (v : Lane) : (s.setLane l v).cs = s.cs := rfl
@[simp] theorem State.setLane_qs (s : State) (l : Nat) (v : Lane) : (s.setLane l v).qs = s.qs := rfl
@[simp] theorem State.setLane_dma (s : State) (l : Nat) (v : Lane) : (s.setLane l v).dma = s.dma := rfl
@[simp] theorem State.setLane_sorter (s : State) (l : Nat) (v : Lane) : (s.setLane l v).sorter = s.sorter := rfl
@[simp] theorem State.setLane_reg (s : State) (l : Nat) (v : Lane) : (s.setLane l v).reg = s.reg := rfl
@[simp] theorem State.setLane_stats (s : State) (l : Nat) (v : Lane) : (s.setLane l v).stats = s.stats := rfl
@[simp] theorem State.setLane_time (s : State) (l : Nat) (v : Lane) : (s.setLane l v).time = s.time := rfl
@[simp] theorem State.setLane_sec (s : State) (l : Nat) (v : Lane) : (s.setLane l v).sec = s.sec := rfl
@[simp] theorem State.setLane_guards (s : State) (l : Nat) (v : Lane) : (s.setLane l v).guards = s.guards := rfl
@[simp] theorem State.setLane_guardQueue (s : State) (l : Nat) (v : Lane) : (s.setLane l v).guardQueue = s.guardQueue := rfl
@[simp] theorem State.setLane_ports (s : State) (l : Nat) (v : Lane) : (s.setLane l v).ports = s.ports := rfl
@[simp] theorem State.setLane_frames (s : State) (l : Nat) (v : Lane) : (s.setLane l v).frames = s.frames := rfl
@[simp] theorem State.setLane_power (s : State) (l : Nat) (v : Lane) : (s.setLane l v).power = s.power := rfl
@[simp] theorem State.setLane_casc (s : State) (l : Nat) (v : Lane) : (s.setLane l v).casc = s.casc := rfl
@[simp] theorem State.setLane_mon (s : State) (l : Nat) (v : Lane) : (s.setLane l v).mon = s.mon := rfl

/-! ### setQueueOpt -/

@[simp] theorem State.setQueueOpt_pending (s : State) (q : Nat) (v : Option Queue) : (s.setQueueOpt q v).pending = s.pending := rfl
@[simp] theorem State.setQueueOpt_out (s : State) (q : Nat) (v : Option Queue) : (s.setQueueOpt q v).out = s.out := rfl
@[simp] theorem State.setQueueOpt_fresh (s : State) (q : Nat) (v : Option Queue) : (s.setQueueOpt q v).fresh = s.fresh := rfl
@[simp] theorem State.setQueueOpt_nextId (s : State) (q : Nat) (v : Option Queue) : (s.setQueueOpt q v).nextId = s.nextId := rfl
@[simp] theorem State.setQueueOpt_clock (s : State) (q : Nat) (v : Option Queue) : (s.setQueueOpt q v).clock = s.clock := rfl
@[simp] theorem State.setQueueOpt_regimes (s : State) (q : Nat) (v : Option Queue) : (s.setQueueOpt q v).regimes = s.regimes := rfl
@[simp] theorem State.setQueueOpt_top (s : State) (q : Nat) (v : Option Queue) : (s.setQueueOpt q v).top = s.top := rfl
@[simp] theorem State.setQueueOpt_pm (s : State) (q : Nat) (v : Option Queue) : (s.setQueueOpt q v).pm = s.pm := rfl
@[simp] theorem State.setQueueOpt_cs (s : State) (q : Nat) (v : Option Queue) : (s.setQueueOpt q v).cs = s.cs := rfl
@[simp] theorem State.setQueueOpt_dma (s : State) (q : Nat) (v : Option Queue) : (s.setQueueOpt q v).dma = s.dma := rfl
@[simp] theorem State.setQueueOpt_sorter (s : State) (q : Nat) (v : Option Queue) : (s.setQueueOpt q v).sorter = s.sorter := rfl
@[simp] theorem State.setQueueOpt_reg (s : State) (q : Nat) (v : Option Queue) : (s.setQueueOpt q v).reg = s.reg := rfl
@[simp] theorem State.setQueueOpt_stats (s : State) (q : Nat) (v : Option Queue) : (s.setQueueOpt q v).stats = s.stats := rfl
@[simp] theorem State.setQueueOpt_time (s : State) (q : Nat) (v : Option Queue) : (s.setQueueOpt q v).time = s.time := rfl
@[simp] theorem State.setQueueOpt_sec (s : State) (q : Nat) (v : Option Queue) : (s.setQueueOpt q v).sec = s.sec := rfl
@[simp] theorem State.setQueueOpt_guards (s : State) (q : Nat) (v : Option Queue) : (s.setQueueOpt q v).guards = s.guards := rfl
@[simp] theorem State.setQueueOpt_guardQueue (s : State) (q : Nat) (v : Option Queue) : (s.setQueueOpt q v).guardQueue = s.guardQueue := rfl
@[simp] theorem State.setQueueOpt_ports (s : State) (q : Nat) (v : Option Queue) : (s.setQueueOpt q v).ports = s.ports := rfl
@[simp] theorem State.setQueueOpt_lanes (s : State) (q : Nat) (v : Option Queue) : (s.setQueueOpt q v).lanes = s.lanes := rfl
@[simp] theorem State.setQueueOpt_frames (s : State) (q : Nat) (v : Option Queue) : (s.setQueueOpt q v).frames = s.frames := rfl
@[simp] theorem State.setQueueOpt_power (s : State) (q : Nat) (v : Option Queue) : (s.setQueueOpt q v).power = s.power := rfl
@[simp] theorem State.setQueueOpt_casc (s : State) (q : Nat) (v : Option Queue) : (s.setQueueOpt q v).casc = s.casc := rfl
@[simp] theorem State.setQueueOpt_mon (s : State) (q : Nat) (v : Option Queue) : (s.setQueueOpt q v).mon = s.mon := rfl

/-! ### setQueue -/

@[simp] theorem State.setQueue_pending (s : State) (q : Nat) (v : Queue) : (s.setQueue q v).pending = s.pending := rfl
@[simp] theorem State.setQueue_out (s : State) (q : Nat) (v : Queue) : (s.setQueue q v).out = s.out := rfl
@[simp] theorem State.setQueue_fresh (s : State) (q : Nat) (v : Queue) : (s.setQueue q v).fresh = s.fresh := rfl
@[simp] theorem State.setQueue_nextId (s : State) (q : Nat) (v : Queue) : (s.setQueue q v).nextId = s.nextId := rfl
@[simp] theorem State.setQueue_clock (s : State) (q : Nat) (v : Queue) : (s.setQueue q v).clock = s.clock := rfl
@[simp] theorem State.setQueue_regimes (s : State) (q : Nat) (v : Queue) : (s.setQueue q v).regimes = s.regimes := rfl
@[simp] theorem State.setQueue_top (s : State) (q : Nat) (v : Queue) : (s.setQueue q v).top = s.top := rfl
@[simp] theorem State.setQueue_pm (s : State) (q : Nat) (v : Queue) : (s.setQueue q v).pm = s.pm := rfl
@[simp] theorem State.setQueue_cs (s : State) (q : Nat) (v : Queue) : (s.setQueue q v).cs = s.cs := rfl
@[simp] theorem State.setQueue_dma (s : State) (q : Nat) (v : Queue) : (s.setQueue q v).dma = s.dma := rfl
@[simp] theorem State.setQueue_sorter (s : State) (q : Nat) (v : Queue) : (s.setQueue q v).sorter = s.sorter := rfl
@[simp] theorem State.setQueue_reg (s : State) (q : Nat) (v : Queue) : (s.setQueue q v).reg = s.reg := rfl
@[simp] theorem State.setQueue_stats (s : State) (q : Nat) (v : Queue) : (s.setQueue q v).stats = s.stats := rfl
@[simp] theorem State.setQueue_time (s : State) (q : Nat) (v : Queue) : (s.setQueue q v).time = s.time := rfl
@[simp] theorem State.setQueue_sec (s : State) (q : Nat) (v : Queue) : (s.setQueue q v).sec = s.sec := rfl
@[simp] theorem State.setQueue_guards (s : State) (q : Nat) (v : Queue) : (s.setQueue q v).guards = s.guards := rfl
@[simp] theorem State.setQueue_guardQueue (s : State) (q : Nat) (v : Queue) : (s.setQueue q v).guardQueue = s.guardQueue := rfl
@[simp] theorem State.setQueue_ports (s : State) (q : Nat) (v : Queue) : (s.setQueue q v).ports = s.ports := rfl
@[simp] theorem State.setQueue_lanes (s : State) (q : Nat) (v : Queue) : (s.setQueue q v).lanes = s.lanes := rfl
@[simp] theorem State.setQueue_frames (s : State) (q : Nat) (v : Queue) : (s.setQueue q v).frames = s.frames := rfl
@[simp] theorem State.setQueue_power (s : State) (q : Nat) (v : Queue) : (s.setQueue q v).power = s.power := rfl
@[simp] theorem State.setQueue_casc (s : State) (q : Nat) (v : Queue) : (s.setQueue q v).casc = s.casc := rfl
@[simp] theorem State.setQueue_mon (s : State) (q : Nat) (v : Queue) : (s.setQueue q v).mon = s.mon := rfl

/-! ### setDoorbell -/

@[simp] theorem State.setDoorbell_pending (s : State) (q : Nat) (v : RIdx) : (s.setDoorbell q v).pending = s.pending := rfl
@[simp] theorem State.setDoorbell_out (s : State) (q : Nat) (v : RIdx) : (s.setDoorbell q v).out = s.out := rfl
@[simp] theorem State.setDoorbell_fresh (s : State) (q : Nat) (v : RIdx) : (s.setDoorbell q v).fresh = s.fresh := rfl
@[simp] theorem State.setDoorbell_nextId (s : State) (q : Nat) (v : RIdx) : (s.setDoorbell q v).nextId = s.nextId := rfl
@[simp] theorem State.setDoorbell_clock (s : State) (q : Nat) (v : RIdx) : (s.setDoorbell q v).clock = s.clock := rfl
@[simp] theorem State.setDoorbell_regimes (s : State) (q : Nat) (v : RIdx) : (s.setDoorbell q v).regimes = s.regimes := rfl
@[simp] theorem State.setDoorbell_top (s : State) (q : Nat) (v : RIdx) : (s.setDoorbell q v).top = s.top := rfl
@[simp] theorem State.setDoorbell_pm (s : State) (q : Nat) (v : RIdx) : (s.setDoorbell q v).pm = s.pm := rfl
@[simp] theorem State.setDoorbell_cs (s : State) (q : Nat) (v : RIdx) : (s.setDoorbell q v).cs = s.cs := rfl
@[simp] theorem State.setDoorbell_dma (s : State) (q : Nat) (v : RIdx) : (s.setDoorbell q v).dma = s.dma := rfl
@[simp] theorem State.setDoorbell_sorter (s : State) (q : Nat) (v : RIdx) : (s.setDoorbell q v).sorter = s.sorter := rfl
@[simp] theorem State.setDoorbell_reg (s : State) (q : Nat) (v : RIdx) : (s.setDoorbell q v).reg = s.reg := rfl
@[simp] theorem State.setDoorbell_stats (s : State) (q : Nat) (v : RIdx) : (s.setDoorbell q v).stats = s.stats := rfl
@[simp] theorem State.setDoorbell_time (s : State) (q : Nat) (v : RIdx) : (s.setDoorbell q v).time = s.time := rfl
@[simp] theorem State.setDoorbell_sec (s : State) (q : Nat) (v : RIdx) : (s.setDoorbell q v).sec = s.sec := rfl
@[simp] theorem State.setDoorbell_guards (s : State) (q : Nat) (v : RIdx) : (s.setDoorbell q v).guards = s.guards := rfl
@[simp] theorem State.setDoorbell_guardQueue (s : State) (q : Nat) (v : RIdx) : (s.setDoorbell q v).guardQueue = s.guardQueue := rfl
@[simp] theorem State.setDoorbell_ports (s : State) (q : Nat) (v : RIdx) : (s.setDoorbell q v).ports = s.ports := rfl
@[simp] theorem State.setDoorbell_lanes (s : State) (q : Nat) (v : RIdx) : (s.setDoorbell q v).lanes = s.lanes := rfl
@[simp] theorem State.setDoorbell_frames (s : State) (q : Nat) (v : RIdx) : (s.setDoorbell q v).frames = s.frames := rfl
@[simp] theorem State.setDoorbell_power (s : State) (q : Nat) (v : RIdx) : (s.setDoorbell q v).power = s.power := rfl
@[simp] theorem State.setDoorbell_casc (s : State) (q : Nat) (v : RIdx) : (s.setDoorbell q v).casc = s.casc := rfl
@[simp] theorem State.setDoorbell_mon (s : State) (q : Nat) (v : RIdx) : (s.setDoorbell q v).mon = s.mon := rfl

/-! ### setVector -/

@[simp] theorem State.setVector_pending (s : State) (v : Nat) (x : Vector97) : (s.setVector v x).pending = s.pending := rfl
@[simp] theorem State.setVector_out (s : State) (v : Nat) (x : Vector97) : (s.setVector v x).out = s.out := rfl
@[simp] theorem State.setVector_fresh (s : State) (v : Nat) (x : Vector97) : (s.setVector v x).fresh = s.fresh := rfl
@[simp] theorem State.setVector_nextId (s : State) (v : Nat) (x : Vector97) : (s.setVector v x).nextId = s.nextId := rfl
@[simp] theorem State.setVector_clock (s : State) (v : Nat) (x : Vector97) : (s.setVector v x).clock = s.clock := rfl
@[simp] theorem State.setVector_regimes (s : State) (v : Nat) (x : Vector97) : (s.setVector v x).regimes = s.regimes := rfl
@[simp] theorem State.setVector_top (s : State) (v : Nat) (x : Vector97) : (s.setVector v x).top = s.top := rfl
@[simp] theorem State.setVector_pm (s : State) (v : Nat) (x : Vector97) : (s.setVector v x).pm = s.pm := rfl
@[simp] theorem State.setVector_cs (s : State) (v : Nat) (x : Vector97) : (s.setVector v x).cs = s.cs := rfl
@[simp] theorem State.setVector_dma (s : State) (v : Nat) (x : Vector97) : (s.setVector v x).dma = s.dma := rfl
@[simp] theorem State.setVector_sorter (s : State) (v : Nat) (x : Vector97) : (s.setVector v x).sorter = s.sorter := rfl
@[simp] theorem State.setVector_reg (s : State) (v : Nat) (x : Vector97) : (s.setVector v x).reg = s.reg := rfl
@[simp] theorem State.setVector_stats (s : State) (v : Nat) (x : Vector97) : (s.setVector v x).stats = s.stats := rfl
@[simp] theorem State.setVector_time (s : State) (v : Nat) (x : Vector97) : (s.setVector v x).time = s.time := rfl
@[simp] theorem State.setVector_sec (s : State) (v : Nat) (x : Vector97) : (s.setVector v x).sec = s.sec := rfl
@[simp] theorem State.setVector_guards (s : State) (v : Nat) (x : Vector97) : (s.setVector v x).guards = s.guards := rfl
@[simp] theorem State.setVector_guardQueue (s : State) (v : Nat) (x : Vector97) : (s.setVector v x).guardQueue = s.guardQueue := rfl
@[simp] theorem State.setVector_ports (s : State) (v : Nat) (x : Vector97) : (s.setVector v x).ports = s.ports := rfl
@[simp] theorem State.setVector_lanes (s : State) (v : Nat) (x : Vector97) : (s.setVector v x).lanes = s.lanes := rfl
@[simp] theorem State.setVector_frames (s : State) (v : Nat) (x : Vector97) : (s.setVector v x).frames = s.frames := rfl
@[simp] theorem State.setVector_power (s : State) (v : Nat) (x : Vector97) : (s.setVector v x).power = s.power := rfl
@[simp] theorem State.setVector_casc (s : State) (v : Nat) (x : Vector97) : (s.setVector v x).casc = s.casc := rfl
@[simp] theorem State.setVector_mon (s : State) (v : Nat) (x : Vector97) : (s.setVector v x).mon = s.mon := rfl

/-! ### setChan -/

@[simp] theorem State.setChan_pending (s : State) (c : Nat) (v : Chan) : (s.setChan c v).pending = s.pending := rfl
@[simp] theorem State.setChan_out (s : State) (c : Nat) (v : Chan) : (s.setChan c v).out = s.out := rfl
@[simp] theorem State.setChan_fresh (s : State) (c : Nat) (v : Chan) : (s.setChan c v).fresh = s.fresh := rfl
@[simp] theorem State.setChan_nextId (s : State) (c : Nat) (v : Chan) : (s.setChan c v).nextId = s.nextId := rfl
@[simp] theorem State.setChan_clock (s : State) (c : Nat) (v : Chan) : (s.setChan c v).clock = s.clock := rfl
@[simp] theorem State.setChan_regimes (s : State) (c : Nat) (v : Chan) : (s.setChan c v).regimes = s.regimes := rfl
@[simp] theorem State.setChan_top (s : State) (c : Nat) (v : Chan) : (s.setChan c v).top = s.top := rfl
@[simp] theorem State.setChan_pm (s : State) (c : Nat) (v : Chan) : (s.setChan c v).pm = s.pm := rfl
@[simp] theorem State.setChan_cs (s : State) (c : Nat) (v : Chan) : (s.setChan c v).cs = s.cs := rfl
@[simp] theorem State.setChan_qs (s : State) (c : Nat) (v : Chan) : (s.setChan c v).qs = s.qs := rfl
@[simp] theorem State.setChan_sorter (s : State) (c : Nat) (v : Chan) : (s.setChan c v).sorter = s.sorter := rfl
@[simp] theorem State.setChan_reg (s : State) (c : Nat) (v : Chan) : (s.setChan c v).reg = s.reg := rfl
@[simp] theorem State.setChan_stats (s : State) (c : Nat) (v : Chan) : (s.setChan c v).stats = s.stats := rfl
@[simp] theorem State.setChan_time (s : State) (c : Nat) (v : Chan) : (s.setChan c v).time = s.time := rfl
@[simp] theorem State.setChan_sec (s : State) (c : Nat) (v : Chan) : (s.setChan c v).sec = s.sec := rfl
@[simp] theorem State.setChan_guards (s : State) (c : Nat) (v : Chan) : (s.setChan c v).guards = s.guards := rfl
@[simp] theorem State.setChan_guardQueue (s : State) (c : Nat) (v : Chan) : (s.setChan c v).guardQueue = s.guardQueue := rfl
@[simp] theorem State.setChan_ports (s : State) (c : Nat) (v : Chan) : (s.setChan c v).ports = s.ports := rfl
@[simp] theorem State.setChan_lanes (s : State) (c : Nat) (v : Chan) : (s.setChan c v).lanes = s.lanes := rfl
@[simp] theorem State.setChan_frames (s : State) (c : Nat) (v : Chan) : (s.setChan c v).frames = s.frames := rfl
@[simp] theorem State.setChan_power (s : State) (c : Nat) (v : Chan) : (s.setChan c v).power = s.power := rfl
@[simp] theorem State.setChan_casc (s : State) (c : Nat) (v : Chan) : (s.setChan c v).casc = s.casc := rfl
@[simp] theorem State.setChan_mon (s : State) (c : Nat) (v : Chan) : (s.setChan c v).mon = s.mon := rfl

/-! ### setSliceL -/

@[simp] theorem State.setSliceL_pending (s : State) (k : Nat) (v : SliceL) : (s.setSliceL k v).pending = s.pending := rfl
@[simp] theorem State.setSliceL_out (s : State) (k : Nat) (v : SliceL) : (s.setSliceL k v).out = s.out := rfl
@[simp] theorem State.setSliceL_fresh (s : State) (k : Nat) (v : SliceL) : (s.setSliceL k v).fresh = s.fresh := rfl
@[simp] theorem State.setSliceL_nextId (s : State) (k : Nat) (v : SliceL) : (s.setSliceL k v).nextId = s.nextId := rfl
@[simp] theorem State.setSliceL_clock (s : State) (k : Nat) (v : SliceL) : (s.setSliceL k v).clock = s.clock := rfl
@[simp] theorem State.setSliceL_regimes (s : State) (k : Nat) (v : SliceL) : (s.setSliceL k v).regimes = s.regimes := rfl
@[simp] theorem State.setSliceL_top (s : State) (k : Nat) (v : SliceL) : (s.setSliceL k v).top = s.top := rfl
@[simp] theorem State.setSliceL_pm (s : State) (k : Nat) (v : SliceL) : (s.setSliceL k v).pm = s.pm := rfl
@[simp] theorem State.setSliceL_cs (s : State) (k : Nat) (v : SliceL) : (s.setSliceL k v).cs = s.cs := rfl
@[simp] theorem State.setSliceL_qs (s : State) (k : Nat) (v : SliceL) : (s.setSliceL k v).qs = s.qs := rfl
@[simp] theorem State.setSliceL_dma (s : State) (k : Nat) (v : SliceL) : (s.setSliceL k v).dma = s.dma := rfl
@[simp] theorem State.setSliceL_reg (s : State) (k : Nat) (v : SliceL) : (s.setSliceL k v).reg = s.reg := rfl
@[simp] theorem State.setSliceL_stats (s : State) (k : Nat) (v : SliceL) : (s.setSliceL k v).stats = s.stats := rfl
@[simp] theorem State.setSliceL_time (s : State) (k : Nat) (v : SliceL) : (s.setSliceL k v).time = s.time := rfl
@[simp] theorem State.setSliceL_sec (s : State) (k : Nat) (v : SliceL) : (s.setSliceL k v).sec = s.sec := rfl
@[simp] theorem State.setSliceL_guards (s : State) (k : Nat) (v : SliceL) : (s.setSliceL k v).guards = s.guards := rfl
@[simp] theorem State.setSliceL_guardQueue (s : State) (k : Nat) (v : SliceL) : (s.setSliceL k v).guardQueue = s.guardQueue := rfl
@[simp] theorem State.setSliceL_ports (s : State) (k : Nat) (v : SliceL) : (s.setSliceL k v).ports = s.ports := rfl
@[simp] theorem State.setSliceL_lanes (s : State) (k : Nat) (v : SliceL) : (s.setSliceL k v).lanes = s.lanes := rfl
@[simp] theorem State.setSliceL_frames (s : State) (k : Nat) (v : SliceL) : (s.setSliceL k v).frames = s.frames := rfl
@[simp] theorem State.setSliceL_power (s : State) (k : Nat) (v : SliceL) : (s.setSliceL k v).power = s.power := rfl
@[simp] theorem State.setSliceL_casc (s : State) (k : Nat) (v : SliceL) : (s.setSliceL k v).casc = s.casc := rfl
@[simp] theorem State.setSliceL_mon (s : State) (k : Nat) (v : SliceL) : (s.setSliceL k v).mon = s.mon := rfl

/-! ### setSliceP -/

@[simp] theorem State.setSliceP_pending (s : State) (n : Nat) (v : SliceP) : (s.setSliceP n v).pending = s.pending := rfl
@[simp] theorem State.setSliceP_out (s : State) (n : Nat) (v : SliceP) : (s.setSliceP n v).out = s.out := rfl
@[simp] theorem State.setSliceP_fresh (s : State) (n : Nat) (v : SliceP) : (s.setSliceP n v).fresh = s.fresh := rfl
@[simp] theorem State.setSliceP_nextId (s : State) (n : Nat) (v : SliceP) : (s.setSliceP n v).nextId = s.nextId := rfl
@[simp] theorem State.setSliceP_clock (s : State) (n : Nat) (v : SliceP) : (s.setSliceP n v).clock = s.clock := rfl
@[simp] theorem State.setSliceP_regimes (s : State) (n : Nat) (v : SliceP) : (s.setSliceP n v).regimes = s.regimes := rfl
@[simp] theorem State.setSliceP_top (s : State) (n : Nat) (v : SliceP) : (s.setSliceP n v).top = s.top := rfl
@[simp] theorem State.setSliceP_pm (s : State) (n : Nat) (v : SliceP) : (s.setSliceP n v).pm = s.pm := rfl
@[simp] theorem State.setSliceP_cs (s : State) (n : Nat) (v : SliceP) : (s.setSliceP n v).cs = s.cs := rfl
@[simp] theorem State.setSliceP_qs (s : State) (n : Nat) (v : SliceP) : (s.setSliceP n v).qs = s.qs := rfl
@[simp] theorem State.setSliceP_dma (s : State) (n : Nat) (v : SliceP) : (s.setSliceP n v).dma = s.dma := rfl
@[simp] theorem State.setSliceP_reg (s : State) (n : Nat) (v : SliceP) : (s.setSliceP n v).reg = s.reg := rfl
@[simp] theorem State.setSliceP_stats (s : State) (n : Nat) (v : SliceP) : (s.setSliceP n v).stats = s.stats := rfl
@[simp] theorem State.setSliceP_time (s : State) (n : Nat) (v : SliceP) : (s.setSliceP n v).time = s.time := rfl
@[simp] theorem State.setSliceP_sec (s : State) (n : Nat) (v : SliceP) : (s.setSliceP n v).sec = s.sec := rfl
@[simp] theorem State.setSliceP_guards (s : State) (n : Nat) (v : SliceP) : (s.setSliceP n v).guards = s.guards := rfl
@[simp] theorem State.setSliceP_guardQueue (s : State) (n : Nat) (v : SliceP) : (s.setSliceP n v).guardQueue = s.guardQueue := rfl
@[simp] theorem State.setSliceP_ports (s : State) (n : Nat) (v : SliceP) : (s.setSliceP n v).ports = s.ports := rfl
@[simp] theorem State.setSliceP_lanes (s : State) (n : Nat) (v : SliceP) : (s.setSliceP n v).lanes = s.lanes := rfl
@[simp] theorem State.setSliceP_frames (s : State) (n : Nat) (v : SliceP) : (s.setSliceP n v).frames = s.frames := rfl
@[simp] theorem State.setSliceP_power (s : State) (n : Nat) (v : SliceP) : (s.setSliceP n v).power = s.power := rfl
@[simp] theorem State.setSliceP_casc (s : State) (n : Nat) (v : SliceP) : (s.setSliceP n v).casc = s.casc := rfl
@[simp] theorem State.setSliceP_mon (s : State) (n : Nat) (v : SliceP) : (s.setSliceP n v).mon = s.mon := rfl

/-! ### setSecPort -/

@[simp] theorem State.setSecPort_pending (s : State) (p : Nat) (v : SecPort) : (s.setSecPort p v).pending = s.pending := rfl
@[simp] theorem State.setSecPort_out (s : State) (p : Nat) (v : SecPort) : (s.setSecPort p v).out = s.out := rfl
@[simp] theorem State.setSecPort_fresh (s : State) (p : Nat) (v : SecPort) : (s.setSecPort p v).fresh = s.fresh := rfl
@[simp] theorem State.setSecPort_nextId (s : State) (p : Nat) (v : SecPort) : (s.setSecPort p v).nextId = s.nextId := rfl
@[simp] theorem State.setSecPort_clock (s : State) (p : Nat) (v : SecPort) : (s.setSecPort p v).clock = s.clock := rfl
@[simp] theorem State.setSecPort_regimes (s : State) (p : Nat) (v : SecPort) : (s.setSecPort p v).regimes = s.regimes := rfl
@[simp] theorem State.setSecPort_top (s : State) (p : Nat) (v : SecPort) : (s.setSecPort p v).top = s.top := rfl
@[simp] theorem State.setSecPort_pm (s : State) (p : Nat) (v : SecPort) : (s.setSecPort p v).pm = s.pm := rfl
@[simp] theorem State.setSecPort_cs (s : State) (p : Nat) (v : SecPort) : (s.setSecPort p v).cs = s.cs := rfl
@[simp] theorem State.setSecPort_qs (s : State) (p : Nat) (v : SecPort) : (s.setSecPort p v).qs = s.qs := rfl
@[simp] theorem State.setSecPort_dma (s : State) (p : Nat) (v : SecPort) : (s.setSecPort p v).dma = s.dma := rfl
@[simp] theorem State.setSecPort_sorter (s : State) (p : Nat) (v : SecPort) : (s.setSecPort p v).sorter = s.sorter := rfl
@[simp] theorem State.setSecPort_reg (s : State) (p : Nat) (v : SecPort) : (s.setSecPort p v).reg = s.reg := rfl
@[simp] theorem State.setSecPort_stats (s : State) (p : Nat) (v : SecPort) : (s.setSecPort p v).stats = s.stats := rfl
@[simp] theorem State.setSecPort_time (s : State) (p : Nat) (v : SecPort) : (s.setSecPort p v).time = s.time := rfl
@[simp] theorem State.setSecPort_guards (s : State) (p : Nat) (v : SecPort) : (s.setSecPort p v).guards = s.guards := rfl
@[simp] theorem State.setSecPort_guardQueue (s : State) (p : Nat) (v : SecPort) : (s.setSecPort p v).guardQueue = s.guardQueue := rfl
@[simp] theorem State.setSecPort_ports (s : State) (p : Nat) (v : SecPort) : (s.setSecPort p v).ports = s.ports := rfl
@[simp] theorem State.setSecPort_lanes (s : State) (p : Nat) (v : SecPort) : (s.setSecPort p v).lanes = s.lanes := rfl
@[simp] theorem State.setSecPort_frames (s : State) (p : Nat) (v : SecPort) : (s.setSecPort p v).frames = s.frames := rfl
@[simp] theorem State.setSecPort_power (s : State) (p : Nat) (v : SecPort) : (s.setSecPort p v).power = s.power := rfl
@[simp] theorem State.setSecPort_casc (s : State) (p : Nat) (v : SecPort) : (s.setSecPort p v).casc = s.casc := rfl
@[simp] theorem State.setSecPort_mon (s : State) (p : Nat) (v : SecPort) : (s.setSecPort p v).mon = s.mon := rfl

/-! ### setKeySlot -/

@[simp] theorem State.setKeySlot_pending (s : State) (n : Nat) (v : KeySlot) : (s.setKeySlot n v).pending = s.pending := rfl
@[simp] theorem State.setKeySlot_out (s : State) (n : Nat) (v : KeySlot) : (s.setKeySlot n v).out = s.out := rfl
@[simp] theorem State.setKeySlot_fresh (s : State) (n : Nat) (v : KeySlot) : (s.setKeySlot n v).fresh = s.fresh := rfl
@[simp] theorem State.setKeySlot_nextId (s : State) (n : Nat) (v : KeySlot) : (s.setKeySlot n v).nextId = s.nextId := rfl
@[simp] theorem State.setKeySlot_clock (s : State) (n : Nat) (v : KeySlot) : (s.setKeySlot n v).clock = s.clock := rfl
@[simp] theorem State.setKeySlot_regimes (s : State) (n : Nat) (v : KeySlot) : (s.setKeySlot n v).regimes = s.regimes := rfl
@[simp] theorem State.setKeySlot_top (s : State) (n : Nat) (v : KeySlot) : (s.setKeySlot n v).top = s.top := rfl
@[simp] theorem State.setKeySlot_pm (s : State) (n : Nat) (v : KeySlot) : (s.setKeySlot n v).pm = s.pm := rfl
@[simp] theorem State.setKeySlot_cs (s : State) (n : Nat) (v : KeySlot) : (s.setKeySlot n v).cs = s.cs := rfl
@[simp] theorem State.setKeySlot_qs (s : State) (n : Nat) (v : KeySlot) : (s.setKeySlot n v).qs = s.qs := rfl
@[simp] theorem State.setKeySlot_dma (s : State) (n : Nat) (v : KeySlot) : (s.setKeySlot n v).dma = s.dma := rfl
@[simp] theorem State.setKeySlot_sorter (s : State) (n : Nat) (v : KeySlot) : (s.setKeySlot n v).sorter = s.sorter := rfl
@[simp] theorem State.setKeySlot_reg (s : State) (n : Nat) (v : KeySlot) : (s.setKeySlot n v).reg = s.reg := rfl
@[simp] theorem State.setKeySlot_stats (s : State) (n : Nat) (v : KeySlot) : (s.setKeySlot n v).stats = s.stats := rfl
@[simp] theorem State.setKeySlot_time (s : State) (n : Nat) (v : KeySlot) : (s.setKeySlot n v).time = s.time := rfl
@[simp] theorem State.setKeySlot_guards (s : State) (n : Nat) (v : KeySlot) : (s.setKeySlot n v).guards = s.guards := rfl
@[simp] theorem State.setKeySlot_guardQueue (s : State) (n : Nat) (v : KeySlot) : (s.setKeySlot n v).guardQueue = s.guardQueue := rfl
@[simp] theorem State.setKeySlot_ports (s : State) (n : Nat) (v : KeySlot) : (s.setKeySlot n v).ports = s.ports := rfl
@[simp] theorem State.setKeySlot_lanes (s : State) (n : Nat) (v : KeySlot) : (s.setKeySlot n v).lanes = s.lanes := rfl
@[simp] theorem State.setKeySlot_frames (s : State) (n : Nat) (v : KeySlot) : (s.setKeySlot n v).frames = s.frames := rfl
@[simp] theorem State.setKeySlot_power (s : State) (n : Nat) (v : KeySlot) : (s.setKeySlot n v).power = s.power := rfl
@[simp] theorem State.setKeySlot_casc (s : State) (n : Nat) (v : KeySlot) : (s.setKeySlot n v).casc = s.casc := rfl
@[simp] theorem State.setKeySlot_mon (s : State) (n : Nat) (v : KeySlot) : (s.setKeySlot n v).mon = s.mon := rfl

/-! ### setGuardPort -/

@[simp] theorem State.setGuardPort_pending (s : State) (p : Nat) (v : GuardPort) : (s.setGuardPort p v).pending = s.pending := rfl
@[simp] theorem State.setGuardPort_out (s : State) (p : Nat) (v : GuardPort) : (s.setGuardPort p v).out = s.out := rfl
@[simp] theorem State.setGuardPort_fresh (s : State) (p : Nat) (v : GuardPort) : (s.setGuardPort p v).fresh = s.fresh := rfl
@[simp] theorem State.setGuardPort_nextId (s : State) (p : Nat) (v : GuardPort) : (s.setGuardPort p v).nextId = s.nextId := rfl
@[simp] theorem State.setGuardPort_clock (s : State) (p : Nat) (v : GuardPort) : (s.setGuardPort p v).clock = s.clock := rfl
@[simp] theorem State.setGuardPort_regimes (s : State) (p : Nat) (v : GuardPort) : (s.setGuardPort p v).regimes = s.regimes := rfl
@[simp] theorem State.setGuardPort_top (s : State) (p : Nat) (v : GuardPort) : (s.setGuardPort p v).top = s.top := rfl
@[simp] theorem State.setGuardPort_pm (s : State) (p : Nat) (v : GuardPort) : (s.setGuardPort p v).pm = s.pm := rfl
@[simp] theorem State.setGuardPort_cs (s : State) (p : Nat) (v : GuardPort) : (s.setGuardPort p v).cs = s.cs := rfl
@[simp] theorem State.setGuardPort_qs (s : State) (p : Nat) (v : GuardPort) : (s.setGuardPort p v).qs = s.qs := rfl
@[simp] theorem State.setGuardPort_dma (s : State) (p : Nat) (v : GuardPort) : (s.setGuardPort p v).dma = s.dma := rfl
@[simp] theorem State.setGuardPort_sorter (s : State) (p : Nat) (v : GuardPort) : (s.setGuardPort p v).sorter = s.sorter := rfl
@[simp] theorem State.setGuardPort_reg (s : State) (p : Nat) (v : GuardPort) : (s.setGuardPort p v).reg = s.reg := rfl
@[simp] theorem State.setGuardPort_stats (s : State) (p : Nat) (v : GuardPort) : (s.setGuardPort p v).stats = s.stats := rfl
@[simp] theorem State.setGuardPort_time (s : State) (p : Nat) (v : GuardPort) : (s.setGuardPort p v).time = s.time := rfl
@[simp] theorem State.setGuardPort_sec (s : State) (p : Nat) (v : GuardPort) : (s.setGuardPort p v).sec = s.sec := rfl
@[simp] theorem State.setGuardPort_guardQueue (s : State) (p : Nat) (v : GuardPort) : (s.setGuardPort p v).guardQueue = s.guardQueue := rfl
@[simp] theorem State.setGuardPort_ports (s : State) (p : Nat) (v : GuardPort) : (s.setGuardPort p v).ports = s.ports := rfl
@[simp] theorem State.setGuardPort_lanes (s : State) (p : Nat) (v : GuardPort) : (s.setGuardPort p v).lanes = s.lanes := rfl
@[simp] theorem State.setGuardPort_frames (s : State) (p : Nat) (v : GuardPort) : (s.setGuardPort p v).frames = s.frames := rfl
@[simp] theorem State.setGuardPort_power (s : State) (p : Nat) (v : GuardPort) : (s.setGuardPort p v).power = s.power := rfl
@[simp] theorem State.setGuardPort_casc (s : State) (p : Nat) (v : GuardPort) : (s.setGuardPort p v).casc = s.casc := rfl
@[simp] theorem State.setGuardPort_mon (s : State) (p : Nat) (v : GuardPort) : (s.setGuardPort p v).mon = s.mon := rfl

/-! ### setDom -/

@[simp] theorem State.setDom_pending (s : State) (d : Nat) (v : Domain) : (s.setDom d v).pending = s.pending := rfl
@[simp] theorem State.setDom_out (s : State) (d : Nat) (v : Domain) : (s.setDom d v).out = s.out := rfl
@[simp] theorem State.setDom_fresh (s : State) (d : Nat) (v : Domain) : (s.setDom d v).fresh = s.fresh := rfl
@[simp] theorem State.setDom_nextId (s : State) (d : Nat) (v : Domain) : (s.setDom d v).nextId = s.nextId := rfl
@[simp] theorem State.setDom_clock (s : State) (d : Nat) (v : Domain) : (s.setDom d v).clock = s.clock := rfl
@[simp] theorem State.setDom_regimes (s : State) (d : Nat) (v : Domain) : (s.setDom d v).regimes = s.regimes := rfl
@[simp] theorem State.setDom_top (s : State) (d : Nat) (v : Domain) : (s.setDom d v).top = s.top := rfl
@[simp] theorem State.setDom_pm (s : State) (d : Nat) (v : Domain) : (s.setDom d v).pm = s.pm := rfl
@[simp] theorem State.setDom_cs (s : State) (d : Nat) (v : Domain) : (s.setDom d v).cs = s.cs := rfl
@[simp] theorem State.setDom_qs (s : State) (d : Nat) (v : Domain) : (s.setDom d v).qs = s.qs := rfl
@[simp] theorem State.setDom_dma (s : State) (d : Nat) (v : Domain) : (s.setDom d v).dma = s.dma := rfl
@[simp] theorem State.setDom_sorter (s : State) (d : Nat) (v : Domain) : (s.setDom d v).sorter = s.sorter := rfl
@[simp] theorem State.setDom_reg (s : State) (d : Nat) (v : Domain) : (s.setDom d v).reg = s.reg := rfl
@[simp] theorem State.setDom_stats (s : State) (d : Nat) (v : Domain) : (s.setDom d v).stats = s.stats := rfl
@[simp] theorem State.setDom_time (s : State) (d : Nat) (v : Domain) : (s.setDom d v).time = s.time := rfl
@[simp] theorem State.setDom_sec (s : State) (d : Nat) (v : Domain) : (s.setDom d v).sec = s.sec := rfl
@[simp] theorem State.setDom_guards (s : State) (d : Nat) (v : Domain) : (s.setDom d v).guards = s.guards := rfl
@[simp] theorem State.setDom_guardQueue (s : State) (d : Nat) (v : Domain) : (s.setDom d v).guardQueue = s.guardQueue := rfl
@[simp] theorem State.setDom_ports (s : State) (d : Nat) (v : Domain) : (s.setDom d v).ports = s.ports := rfl
@[simp] theorem State.setDom_lanes (s : State) (d : Nat) (v : Domain) : (s.setDom d v).lanes = s.lanes := rfl
@[simp] theorem State.setDom_frames (s : State) (d : Nat) (v : Domain) : (s.setDom d v).frames = s.frames := rfl
@[simp] theorem State.setDom_casc (s : State) (d : Nat) (v : Domain) : (s.setDom d v).casc = s.casc := rfl
@[simp] theorem State.setDom_mon (s : State) (d : Nat) (v : Domain) : (s.setDom d v).mon = s.mon := rfl

/-! ### setVotes -/

@[simp] theorem State.setVotes_pending (s : State) (c : Nat) (v : BitVec 25) : (s.setVotes c v).pending = s.pending := rfl
@[simp] theorem State.setVotes_out (s : State) (c : Nat) (v : BitVec 25) : (s.setVotes c v).out = s.out := rfl
@[simp] theorem State.setVotes_fresh (s : State) (c : Nat) (v : BitVec 25) : (s.setVotes c v).fresh = s.fresh := rfl
@[simp] theorem State.setVotes_nextId (s : State) (c : Nat) (v : BitVec 25) : (s.setVotes c v).nextId = s.nextId := rfl
@[simp] theorem State.setVotes_clock (s : State) (c : Nat) (v : BitVec 25) : (s.setVotes c v).clock = s.clock := rfl
@[simp] theorem State.setVotes_regimes (s : State) (c : Nat) (v : BitVec 25) : (s.setVotes c v).regimes = s.regimes := rfl
@[simp] theorem State.setVotes_top (s : State) (c : Nat) (v : BitVec 25) : (s.setVotes c v).top = s.top := rfl
@[simp] theorem State.setVotes_pm (s : State) (c : Nat) (v : BitVec 25) : (s.setVotes c v).pm = s.pm := rfl
@[simp] theorem State.setVotes_cs (s : State) (c : Nat) (v : BitVec 25) : (s.setVotes c v).cs = s.cs := rfl
@[simp] theorem State.setVotes_qs (s : State) (c : Nat) (v : BitVec 25) : (s.setVotes c v).qs = s.qs := rfl
@[simp] theorem State.setVotes_dma (s : State) (c : Nat) (v : BitVec 25) : (s.setVotes c v).dma = s.dma := rfl
@[simp] theorem State.setVotes_sorter (s : State) (c : Nat) (v : BitVec 25) : (s.setVotes c v).sorter = s.sorter := rfl
@[simp] theorem State.setVotes_reg (s : State) (c : Nat) (v : BitVec 25) : (s.setVotes c v).reg = s.reg := rfl
@[simp] theorem State.setVotes_stats (s : State) (c : Nat) (v : BitVec 25) : (s.setVotes c v).stats = s.stats := rfl
@[simp] theorem State.setVotes_time (s : State) (c : Nat) (v : BitVec 25) : (s.setVotes c v).time = s.time := rfl
@[simp] theorem State.setVotes_sec (s : State) (c : Nat) (v : BitVec 25) : (s.setVotes c v).sec = s.sec := rfl
@[simp] theorem State.setVotes_guards (s : State) (c : Nat) (v : BitVec 25) : (s.setVotes c v).guards = s.guards := rfl
@[simp] theorem State.setVotes_guardQueue (s : State) (c : Nat) (v : BitVec 25) : (s.setVotes c v).guardQueue = s.guardQueue := rfl
@[simp] theorem State.setVotes_ports (s : State) (c : Nat) (v : BitVec 25) : (s.setVotes c v).ports = s.ports := rfl
@[simp] theorem State.setVotes_lanes (s : State) (c : Nat) (v : BitVec 25) : (s.setVotes c v).lanes = s.lanes := rfl
@[simp] theorem State.setVotes_frames (s : State) (c : Nat) (v : BitVec 25) : (s.setVotes c v).frames = s.frames := rfl
@[simp] theorem State.setVotes_casc (s : State) (c : Nat) (v : BitVec 25) : (s.setVotes c v).casc = s.casc := rfl
@[simp] theorem State.setVotes_mon (s : State) (c : Nat) (v : BitVec 25) : (s.setVotes c v).mon = s.mon := rfl

/-! ### emit -/

@[simp] theorem State.emit_pending (s : State) (o : Out) : (s.emit o).pending = s.pending := rfl
@[simp] theorem State.emit_fresh (s : State) (o : Out) : (s.emit o).fresh = s.fresh := rfl
@[simp] theorem State.emit_nextId (s : State) (o : Out) : (s.emit o).nextId = s.nextId := rfl
@[simp] theorem State.emit_clock (s : State) (o : Out) : (s.emit o).clock = s.clock := rfl
@[simp] theorem State.emit_regimes (s : State) (o : Out) : (s.emit o).regimes = s.regimes := rfl
@[simp] theorem State.emit_top (s : State) (o : Out) : (s.emit o).top = s.top := rfl
@[simp] theorem State.emit_pm (s : State) (o : Out) : (s.emit o).pm = s.pm := rfl
@[simp] theorem State.emit_cs (s : State) (o : Out) : (s.emit o).cs = s.cs := rfl
@[simp] theorem State.emit_qs (s : State) (o : Out) : (s.emit o).qs = s.qs := rfl
@[simp] theorem State.emit_dma (s : State) (o : Out) : (s.emit o).dma = s.dma := rfl
@[simp] theorem State.emit_sorter (s : State) (o : Out) : (s.emit o).sorter = s.sorter := rfl
@[simp] theorem State.emit_reg (s : State) (o : Out) : (s.emit o).reg = s.reg := rfl
@[simp] theorem State.emit_stats (s : State) (o : Out) : (s.emit o).stats = s.stats := rfl
@[simp] theorem State.emit_time (s : State) (o : Out) : (s.emit o).time = s.time := rfl
@[simp] theorem State.emit_sec (s : State) (o : Out) : (s.emit o).sec = s.sec := rfl
@[simp] theorem State.emit_guards (s : State) (o : Out) : (s.emit o).guards = s.guards := rfl
@[simp] theorem State.emit_guardQueue (s : State) (o : Out) : (s.emit o).guardQueue = s.guardQueue := rfl
@[simp] theorem State.emit_ports (s : State) (o : Out) : (s.emit o).ports = s.ports := rfl
@[simp] theorem State.emit_lanes (s : State) (o : Out) : (s.emit o).lanes = s.lanes := rfl
@[simp] theorem State.emit_frames (s : State) (o : Out) : (s.emit o).frames = s.frames := rfl
@[simp] theorem State.emit_power (s : State) (o : Out) : (s.emit o).power = s.power := rfl
@[simp] theorem State.emit_casc (s : State) (o : Out) : (s.emit o).casc = s.casc := rfl
@[simp] theorem State.emit_mon (s : State) (o : Out) : (s.emit o).mon = s.mon := rfl

/-! ### setJournal -/

@[simp] theorem State.setJournal_pending (s : State) (j : List JEntry) : (s.setJournal j).pending = s.pending := rfl
@[simp] theorem State.setJournal_out (s : State) (j : List JEntry) : (s.setJournal j).out = s.out := rfl
@[simp] theorem State.setJournal_fresh (s : State) (j : List JEntry) : (s.setJournal j).fresh = s.fresh := rfl
@[simp] theorem State.setJournal_nextId (s : State) (j : List JEntry) : (s.setJournal j).nextId = s.nextId := rfl
@[simp] theorem State.setJournal_clock (s : State) (j : List JEntry) : (s.setJournal j).clock = s.clock := rfl
@[simp] theorem State.setJournal_regimes (s : State) (j : List JEntry) : (s.setJournal j).regimes = s.regimes := rfl
@[simp] theorem State.setJournal_top (s : State) (j : List JEntry) : (s.setJournal j).top = s.top := rfl
@[simp] theorem State.setJournal_cs (s : State) (j : List JEntry) : (s.setJournal j).cs = s.cs := rfl
@[simp] theorem State.setJournal_qs (s : State) (j : List JEntry) : (s.setJournal j).qs = s.qs := rfl
@[simp] theorem State.setJournal_dma (s : State) (j : List JEntry) : (s.setJournal j).dma = s.dma := rfl
@[simp] theorem State.setJournal_sorter (s : State) (j : List JEntry) : (s.setJournal j).sorter = s.sorter := rfl
@[simp] theorem State.setJournal_reg (s : State) (j : List JEntry) : (s.setJournal j).reg = s.reg := rfl
@[simp] theorem State.setJournal_stats (s : State) (j : List JEntry) : (s.setJournal j).stats = s.stats := rfl
@[simp] theorem State.setJournal_time (s : State) (j : List JEntry) : (s.setJournal j).time = s.time := rfl
@[simp] theorem State.setJournal_sec (s : State) (j : List JEntry) : (s.setJournal j).sec = s.sec := rfl
@[simp] theorem State.setJournal_guards (s : State) (j : List JEntry) : (s.setJournal j).guards = s.guards := rfl
@[simp] theorem State.setJournal_guardQueue (s : State) (j : List JEntry) : (s.setJournal j).guardQueue = s.guardQueue := rfl
@[simp] theorem State.setJournal_ports (s : State) (j : List JEntry) : (s.setJournal j).ports = s.ports := rfl
@[simp] theorem State.setJournal_lanes (s : State) (j : List JEntry) : (s.setJournal j).lanes = s.lanes := rfl
@[simp] theorem State.setJournal_frames (s : State) (j : List JEntry) : (s.setJournal j).frames = s.frames := rfl
@[simp] theorem State.setJournal_power (s : State) (j : List JEntry) : (s.setJournal j).power = s.power := rfl
@[simp] theorem State.setJournal_casc (s : State) (j : List JEntry) : (s.setJournal j).casc = s.casc := rfl
@[simp] theorem State.setJournal_mon (s : State) (j : List JEntry) : (s.setJournal j).mon = s.mon := rfl

/-! ### setInj -/

@[simp] theorem State.setInj_pending (s : State) (l : List Inj) : (s.setInj l).pending = s.pending := rfl
@[simp] theorem State.setInj_out (s : State) (l : List Inj) : (s.setInj l).out = s.out := rfl
@[simp] theorem State.setInj_fresh (s : State) (l : List Inj) : (s.setInj l).fresh = s.fresh := rfl
@[simp] theorem State.setInj_nextId (s : State) (l : List Inj) : (s.setInj l).nextId = s.nextId := rfl
@[simp] theorem State.setInj_clock (s : State) (l : List Inj) : (s.setInj l).clock = s.clock := rfl
@[simp] theorem State.setInj_regimes (s : State) (l : List Inj) : (s.setInj l).regimes = s.regimes := rfl
@[simp] theorem State.setInj_top (s : State) (l : List Inj) : (s.setInj l).top = s.top := rfl
@[simp] theorem State.setInj_pm (s : State) (l : List Inj) : (s.setInj l).pm = s.pm := rfl
@[simp] theorem State.setInj_cs (s : State) (l : List Inj) : (s.setInj l).cs = s.cs := rfl
@[simp] theorem State.setInj_dma (s : State) (l : List Inj) : (s.setInj l).dma = s.dma := rfl
@[simp] theorem State.setInj_sorter (s : State) (l : List Inj) : (s.setInj l).sorter = s.sorter := rfl
@[simp] theorem State.setInj_reg (s : State) (l : List Inj) : (s.setInj l).reg = s.reg := rfl
@[simp] theorem State.setInj_stats (s : State) (l : List Inj) : (s.setInj l).stats = s.stats := rfl
@[simp] theorem State.setInj_time (s : State) (l : List Inj) : (s.setInj l).time = s.time := rfl
@[simp] theorem State.setInj_sec (s : State) (l : List Inj) : (s.setInj l).sec = s.sec := rfl
@[simp] theorem State.setInj_guards (s : State) (l : List Inj) : (s.setInj l).guards = s.guards := rfl
@[simp] theorem State.setInj_guardQueue (s : State) (l : List Inj) : (s.setInj l).guardQueue = s.guardQueue := rfl
@[simp] theorem State.setInj_ports (s : State) (l : List Inj) : (s.setInj l).ports = s.ports := rfl
@[simp] theorem State.setInj_lanes (s : State) (l : List Inj) : (s.setInj l).lanes = s.lanes := rfl
@[simp] theorem State.setInj_frames (s : State) (l : List Inj) : (s.setInj l).frames = s.frames := rfl
@[simp] theorem State.setInj_power (s : State) (l : List Inj) : (s.setInj l).power = s.power := rfl
@[simp] theorem State.setInj_casc (s : State) (l : List Inj) : (s.setInj l).casc = s.casc := rfl
@[simp] theorem State.setInj_mon (s : State) (l : List Inj) : (s.setInj l).mon = s.mon := rfl

/-! ### queueFault -/

@[simp] theorem State.queueFault_pending (s : State) (reason : BitVec 4) (q : BitVec 12) : (s.queueFault reason q).pending = s.pending := rfl
@[simp] theorem State.queueFault_out (s : State) (reason : BitVec 4) (q : BitVec 12) : (s.queueFault reason q).out = s.out := rfl
@[simp] theorem State.queueFault_fresh (s : State) (reason : BitVec 4) (q : BitVec 12) : (s.queueFault reason q).fresh = s.fresh := rfl
@[simp] theorem State.queueFault_nextId (s : State) (reason : BitVec 4) (q : BitVec 12) : (s.queueFault reason q).nextId = s.nextId := rfl
@[simp] theorem State.queueFault_clock (s : State) (reason : BitVec 4) (q : BitVec 12) : (s.queueFault reason q).clock = s.clock := rfl
@[simp] theorem State.queueFault_regimes (s : State) (reason : BitVec 4) (q : BitVec 12) : (s.queueFault reason q).regimes = s.regimes := rfl
@[simp] theorem State.queueFault_top (s : State) (reason : BitVec 4) (q : BitVec 12) : (s.queueFault reason q).top = s.top := rfl
@[simp] theorem State.queueFault_pm (s : State) (reason : BitVec 4) (q : BitVec 12) : (s.queueFault reason q).pm = s.pm := rfl
@[simp] theorem State.queueFault_cs (s : State) (reason : BitVec 4) (q : BitVec 12) : (s.queueFault reason q).cs = s.cs := rfl
@[simp] theorem State.queueFault_dma (s : State) (reason : BitVec 4) (q : BitVec 12) : (s.queueFault reason q).dma = s.dma := rfl
@[simp] theorem State.queueFault_sorter (s : State) (reason : BitVec 4) (q : BitVec 12) : (s.queueFault reason q).sorter = s.sorter := rfl
@[simp] theorem State.queueFault_reg (s : State) (reason : BitVec 4) (q : BitVec 12) : (s.queueFault reason q).reg = s.reg := rfl
@[simp] theorem State.queueFault_stats (s : State) (reason : BitVec 4) (q : BitVec 12) : (s.queueFault reason q).stats = s.stats := rfl
@[simp] theorem State.queueFault_time (s : State) (reason : BitVec 4) (q : BitVec 12) : (s.queueFault reason q).time = s.time := rfl
@[simp] theorem State.queueFault_sec (s : State) (reason : BitVec 4) (q : BitVec 12) : (s.queueFault reason q).sec = s.sec := rfl
@[simp] theorem State.queueFault_guards (s : State) (reason : BitVec 4) (q : BitVec 12) : (s.queueFault reason q).guards = s.guards := rfl
@[simp] theorem State.queueFault_guardQueue (s : State) (reason : BitVec 4) (q : BitVec 12) : (s.queueFault reason q).guardQueue = s.guardQueue := rfl
@[simp] theorem State.queueFault_ports (s : State) (reason : BitVec 4) (q : BitVec 12) : (s.queueFault reason q).ports = s.ports := rfl
@[simp] theorem State.queueFault_lanes (s : State) (reason : BitVec 4) (q : BitVec 12) : (s.queueFault reason q).lanes = s.lanes := rfl
@[simp] theorem State.queueFault_frames (s : State) (reason : BitVec 4) (q : BitVec 12) : (s.queueFault reason q).frames = s.frames := rfl
@[simp] theorem State.queueFault_power (s : State) (reason : BitVec 4) (q : BitVec 12) : (s.queueFault reason q).power = s.power := rfl
@[simp] theorem State.queueFault_casc (s : State) (reason : BitVec 4) (q : BitVec 12) : (s.queueFault reason q).casc = s.casc := rfl
@[simp] theorem State.queueFault_mon (s : State) (reason : BitVec 4) (q : BitVec 12) : (s.queueFault reason q).mon = s.mon := rfl

/-! ### logAccess -/

@[simp] theorem State.logAccess_pending (s : State) (kind : BitVec 3) (addr : BitVec 34) : (s.logAccess kind addr).pending = s.pending := rfl
@[simp] theorem State.logAccess_out (s : State) (kind : BitVec 3) (addr : BitVec 34) : (s.logAccess kind addr).out = s.out := rfl
@[simp] theorem State.logAccess_fresh (s : State) (kind : BitVec 3) (addr : BitVec 34) : (s.logAccess kind addr).fresh = s.fresh := rfl
@[simp] theorem State.logAccess_nextId (s : State) (kind : BitVec 3) (addr : BitVec 34) : (s.logAccess kind addr).nextId = s.nextId := rfl
@[simp] theorem State.logAccess_clock (s : State) (kind : BitVec 3) (addr : BitVec 34) : (s.logAccess kind addr).clock = s.clock := rfl
@[simp] theorem State.logAccess_regimes (s : State) (kind : BitVec 3) (addr : BitVec 34) : (s.logAccess kind addr).regimes = s.regimes := rfl
@[simp] theorem State.logAccess_pm (s : State) (kind : BitVec 3) (addr : BitVec 34) : (s.logAccess kind addr).pm = s.pm := rfl
@[simp] theorem State.logAccess_cs (s : State) (kind : BitVec 3) (addr : BitVec 34) : (s.logAccess kind addr).cs = s.cs := rfl
@[simp] theorem State.logAccess_qs (s : State) (kind : BitVec 3) (addr : BitVec 34) : (s.logAccess kind addr).qs = s.qs := rfl
@[simp] theorem State.logAccess_dma (s : State) (kind : BitVec 3) (addr : BitVec 34) : (s.logAccess kind addr).dma = s.dma := rfl
@[simp] theorem State.logAccess_sorter (s : State) (kind : BitVec 3) (addr : BitVec 34) : (s.logAccess kind addr).sorter = s.sorter := rfl
@[simp] theorem State.logAccess_reg (s : State) (kind : BitVec 3) (addr : BitVec 34) : (s.logAccess kind addr).reg = s.reg := rfl
@[simp] theorem State.logAccess_stats (s : State) (kind : BitVec 3) (addr : BitVec 34) : (s.logAccess kind addr).stats = s.stats := rfl
@[simp] theorem State.logAccess_time (s : State) (kind : BitVec 3) (addr : BitVec 34) : (s.logAccess kind addr).time = s.time := rfl
@[simp] theorem State.logAccess_sec (s : State) (kind : BitVec 3) (addr : BitVec 34) : (s.logAccess kind addr).sec = s.sec := rfl
@[simp] theorem State.logAccess_guards (s : State) (kind : BitVec 3) (addr : BitVec 34) : (s.logAccess kind addr).guards = s.guards := rfl
@[simp] theorem State.logAccess_guardQueue (s : State) (kind : BitVec 3) (addr : BitVec 34) : (s.logAccess kind addr).guardQueue = s.guardQueue := rfl
@[simp] theorem State.logAccess_ports (s : State) (kind : BitVec 3) (addr : BitVec 34) : (s.logAccess kind addr).ports = s.ports := rfl
@[simp] theorem State.logAccess_lanes (s : State) (kind : BitVec 3) (addr : BitVec 34) : (s.logAccess kind addr).lanes = s.lanes := rfl
@[simp] theorem State.logAccess_frames (s : State) (kind : BitVec 3) (addr : BitVec 34) : (s.logAccess kind addr).frames = s.frames := rfl
@[simp] theorem State.logAccess_power (s : State) (kind : BitVec 3) (addr : BitVec 34) : (s.logAccess kind addr).power = s.power := rfl
@[simp] theorem State.logAccess_casc (s : State) (kind : BitVec 3) (addr : BitVec 34) : (s.logAccess kind addr).casc = s.casc := rfl
@[simp] theorem State.logAccess_mon (s : State) (kind : BitVec 3) (addr : BitVec 34) : (s.logAccess kind addr).mon = s.mon := rfl

/-! ### logAsleep -/

@[simp] theorem State.logAsleep_pending (s : State) (write : Bool) (addr : Word) : (s.logAsleep write addr).pending = s.pending := rfl
@[simp] theorem State.logAsleep_out (s : State) (write : Bool) (addr : Word) : (s.logAsleep write addr).out = s.out := rfl
@[simp] theorem State.logAsleep_fresh (s : State) (write : Bool) (addr : Word) : (s.logAsleep write addr).fresh = s.fresh := rfl
@[simp] theorem State.logAsleep_nextId (s : State) (write : Bool) (addr : Word) : (s.logAsleep write addr).nextId = s.nextId := rfl
@[simp] theorem State.logAsleep_clock (s : State) (write : Bool) (addr : Word) : (s.logAsleep write addr).clock = s.clock := rfl
@[simp] theorem State.logAsleep_regimes (s : State) (write : Bool) (addr : Word) : (s.logAsleep write addr).regimes = s.regimes := rfl
@[simp] theorem State.logAsleep_top (s : State) (write : Bool) (addr : Word) : (s.logAsleep write addr).top = s.top := rfl
@[simp] theorem State.logAsleep_pm (s : State) (write : Bool) (addr : Word) : (s.logAsleep write addr).pm = s.pm := rfl
@[simp] theorem State.logAsleep_cs (s : State) (write : Bool) (addr : Word) : (s.logAsleep write addr).cs = s.cs := rfl
@[simp] theorem State.logAsleep_qs (s : State) (write : Bool) (addr : Word) : (s.logAsleep write addr).qs = s.qs := rfl
@[simp] theorem State.logAsleep_dma (s : State) (write : Bool) (addr : Word) : (s.logAsleep write addr).dma = s.dma := rfl
@[simp] theorem State.logAsleep_sorter (s : State) (write : Bool) (addr : Word) : (s.logAsleep write addr).sorter = s.sorter := rfl
@[simp] theorem State.logAsleep_reg (s : State) (write : Bool) (addr : Word) : (s.logAsleep write addr).reg = s.reg := rfl
@[simp] theorem State.logAsleep_stats (s : State) (write : Bool) (addr : Word) : (s.logAsleep write addr).stats = s.stats := rfl
@[simp] theorem State.logAsleep_time (s : State) (write : Bool) (addr : Word) : (s.logAsleep write addr).time = s.time := rfl
@[simp] theorem State.logAsleep_sec (s : State) (write : Bool) (addr : Word) : (s.logAsleep write addr).sec = s.sec := rfl
@[simp] theorem State.logAsleep_guards (s : State) (write : Bool) (addr : Word) : (s.logAsleep write addr).guards = s.guards := rfl
@[simp] theorem State.logAsleep_guardQueue (s : State) (write : Bool) (addr : Word) : (s.logAsleep write addr).guardQueue = s.guardQueue := rfl
@[simp] theorem State.logAsleep_ports (s : State) (write : Bool) (addr : Word) : (s.logAsleep write addr).ports = s.ports := rfl
@[simp] theorem State.logAsleep_lanes (s : State) (write : Bool) (addr : Word) : (s.logAsleep write addr).lanes = s.lanes := rfl
@[simp] theorem State.logAsleep_frames (s : State) (write : Bool) (addr : Word) : (s.logAsleep write addr).frames = s.frames := rfl
@[simp] theorem State.logAsleep_casc (s : State) (write : Bool) (addr : Word) : (s.logAsleep write addr).casc = s.casc := rfl
@[simp] theorem State.logAsleep_mon (s : State) (write : Bool) (addr : Word) : (s.logAsleep write addr).mon = s.mon := rfl

/-! ### setTop -/

@[simp] theorem State.setTop_pending (s : State) (u : Unit00) : (s.setTop u).pending = s.pending := rfl
@[simp] theorem State.setTop_out (s : State) (u : Unit00) : (s.setTop u).out = s.out := rfl
@[simp] theorem State.setTop_fresh (s : State) (u : Unit00) : (s.setTop u).fresh = s.fresh := rfl
@[simp] theorem State.setTop_nextId (s : State) (u : Unit00) : (s.setTop u).nextId = s.nextId := rfl
@[simp] theorem State.setTop_clock (s : State) (u : Unit00) : (s.setTop u).clock = s.clock := rfl
@[simp] theorem State.setTop_regimes (s : State) (u : Unit00) : (s.setTop u).regimes = s.regimes := rfl
@[simp] theorem State.setTop_pm (s : State) (u : Unit00) : (s.setTop u).pm = s.pm := rfl
@[simp] theorem State.setTop_cs (s : State) (u : Unit00) : (s.setTop u).cs = s.cs := rfl
@[simp] theorem State.setTop_qs (s : State) (u : Unit00) : (s.setTop u).qs = s.qs := rfl
@[simp] theorem State.setTop_dma (s : State) (u : Unit00) : (s.setTop u).dma = s.dma := rfl
@[simp] theorem State.setTop_sorter (s : State) (u : Unit00) : (s.setTop u).sorter = s.sorter := rfl
@[simp] theorem State.setTop_reg (s : State) (u : Unit00) : (s.setTop u).reg = s.reg := rfl
@[simp] theorem State.setTop_stats (s : State) (u : Unit00) : (s.setTop u).stats = s.stats := rfl
@[simp] theorem State.setTop_time (s : State) (u : Unit00) : (s.setTop u).time = s.time := rfl
@[simp] theorem State.setTop_sec (s : State) (u : Unit00) : (s.setTop u).sec = s.sec := rfl
@[simp] theorem State.setTop_guards (s : State) (u : Unit00) : (s.setTop u).guards = s.guards := rfl
@[simp] theorem State.setTop_guardQueue (s : State) (u : Unit00) : (s.setTop u).guardQueue = s.guardQueue := rfl
@[simp] theorem State.setTop_ports (s : State) (u : Unit00) : (s.setTop u).ports = s.ports := rfl
@[simp] theorem State.setTop_lanes (s : State) (u : Unit00) : (s.setTop u).lanes = s.lanes := rfl
@[simp] theorem State.setTop_frames (s : State) (u : Unit00) : (s.setTop u).frames = s.frames := rfl
@[simp] theorem State.setTop_power (s : State) (u : Unit00) : (s.setTop u).power = s.power := rfl
@[simp] theorem State.setTop_casc (s : State) (u : Unit00) : (s.setTop u).casc = s.casc := rfl
@[simp] theorem State.setTop_mon (s : State) (u : Unit00) : (s.setTop u).mon = s.mon := rfl

/-! ### setPm -/

@[simp] theorem State.setPm_pending (s : State) (p : Pm) : (s.setPm p).pending = s.pending := rfl
@[simp] theorem State.setPm_out (s : State) (p : Pm) : (s.setPm p).out = s.out := rfl
@[simp] theorem State.setPm_fresh (s : State) (p : Pm) : (s.setPm p).fresh = s.fresh := rfl
@[simp] theorem State.setPm_nextId (s : State) (p : Pm) : (s.setPm p).nextId = s.nextId := rfl
@[simp] theorem State.setPm_clock (s : State) (p : Pm) : (s.setPm p).clock = s.clock := rfl
@[simp] theorem State.setPm_regimes (s : State) (p : Pm) : (s.setPm p).regimes = s.regimes := rfl
@[simp] theorem State.setPm_top (s : State) (p : Pm) : (s.setPm p).top = s.top := rfl
@[simp] theorem State.setPm_cs (s : State) (p : Pm) : (s.setPm p).cs = s.cs := rfl
@[simp] theorem State.setPm_qs (s : State) (p : Pm) : (s.setPm p).qs = s.qs := rfl
@[simp] theorem State.setPm_dma (s : State) (p : Pm) : (s.setPm p).dma = s.dma := rfl
@[simp] theorem State.setPm_sorter (s : State) (p : Pm) : (s.setPm p).sorter = s.sorter := rfl
@[simp] theorem State.setPm_reg (s : State) (p : Pm) : (s.setPm p).reg = s.reg := rfl
@[simp] theorem State.setPm_stats (s : State) (p : Pm) : (s.setPm p).stats = s.stats := rfl
@[simp] theorem State.setPm_time (s : State) (p : Pm) : (s.setPm p).time = s.time := rfl
@[simp] theorem State.setPm_sec (s : State) (p : Pm) : (s.setPm p).sec = s.sec := rfl
@[simp] theorem State.setPm_guards (s : State) (p : Pm) : (s.setPm p).guards = s.guards := rfl
@[simp] theorem State.setPm_guardQueue (s : State) (p : Pm) : (s.setPm p).guardQueue = s.guardQueue := rfl
@[simp] theorem State.setPm_ports (s : State) (p : Pm) : (s.setPm p).ports = s.ports := rfl
@[simp] theorem State.setPm_lanes (s : State) (p : Pm) : (s.setPm p).lanes = s.lanes := rfl
@[simp] theorem State.setPm_frames (s : State) (p : Pm) : (s.setPm p).frames = s.frames := rfl
@[simp] theorem State.setPm_power (s : State) (p : Pm) : (s.setPm p).power = s.power := rfl
@[simp] theorem State.setPm_casc (s : State) (p : Pm) : (s.setPm p).casc = s.casc := rfl
@[simp] theorem State.setPm_mon (s : State) (p : Pm) : (s.setPm p).mon = s.mon := rfl

/-! ### setCs -/

@[simp] theorem State.setCs_pending (s : State) (c : Cs) : (s.setCs c).pending = s.pending := rfl
@[simp] theorem State.setCs_out (s : State) (c : Cs) : (s.setCs c).out = s.out := rfl
@[simp] theorem State.setCs_fresh (s : State) (c : Cs) : (s.setCs c).fresh = s.fresh := rfl
@[simp] theorem State.setCs_nextId (s : State) (c : Cs) : (s.setCs c).nextId = s.nextId := rfl
@[simp] theorem State.setCs_clock (s : State) (c : Cs) : (s.setCs c).clock = s.clock := rfl
@[simp] theorem State.setCs_regimes (s : State) (c : Cs) : (s.setCs c).regimes = s.regimes := rfl
@[simp] theorem State.setCs_top (s : State) (c : Cs) : (s.setCs c).top = s.top := rfl
@[simp] theorem State.setCs_pm (s : State) (c : Cs) : (s.setCs c).pm = s.pm := rfl
@[simp] theorem State.setCs_qs (s : State) (c : Cs) : (s.setCs c).qs = s.qs := rfl
@[simp] theorem State.setCs_dma (s : State) (c : Cs) : (s.setCs c).dma = s.dma := rfl
@[simp] theorem State.setCs_sorter (s : State) (c : Cs) : (s.setCs c).sorter = s.sorter := rfl
@[simp] theorem State.setCs_reg (s : State) (c : Cs) : (s.setCs c).reg = s.reg := rfl
@[simp] theorem State.setCs_stats (s : State) (c : Cs) : (s.setCs c).stats = s.stats := rfl
@[simp] theorem State.setCs_time (s : State) (c : Cs) : (s.setCs c).time = s.time := rfl
@[simp] theorem State.setCs_sec (s : State) (c : Cs) : (s.setCs c).sec = s.sec := rfl
@[simp] theorem State.setCs_guards (s : State) (c : Cs) : (s.setCs c).guards = s.guards := rfl
@[simp] theorem State.setCs_guardQueue (s : State) (c : Cs) : (s.setCs c).guardQueue = s.guardQueue := rfl
@[simp] theorem State.setCs_ports (s : State) (c : Cs) : (s.setCs c).ports = s.ports := rfl
@[simp] theorem State.setCs_lanes (s : State) (c : Cs) : (s.setCs c).lanes = s.lanes := rfl
@[simp] theorem State.setCs_frames (s : State) (c : Cs) : (s.setCs c).frames = s.frames := rfl
@[simp] theorem State.setCs_power (s : State) (c : Cs) : (s.setCs c).power = s.power := rfl
@[simp] theorem State.setCs_casc (s : State) (c : Cs) : (s.setCs c).casc = s.casc := rfl
@[simp] theorem State.setCs_mon (s : State) (c : Cs) : (s.setCs c).mon = s.mon := rfl

/-! ### setQs -/

@[simp] theorem State.setQs_pending (s : State) (q : Queues) : (s.setQs q).pending = s.pending := rfl
@[simp] theorem State.setQs_out (s : State) (q : Queues) : (s.setQs q).out = s.out := rfl
@[simp] theorem State.setQs_fresh (s : State) (q : Queues) : (s.setQs q).fresh = s.fresh := rfl
@[simp] theorem State.setQs_nextId (s : State) (q : Queues) : (s.setQs q).nextId = s.nextId := rfl
@[simp] theorem State.setQs_clock (s : State) (q : Queues) : (s.setQs q).clock = s.clock := rfl
@[simp] theorem State.setQs_regimes (s : State) (q : Queues) : (s.setQs q).regimes = s.regimes := rfl
@[simp] theorem State.setQs_top (s : State) (q : Queues) : (s.setQs q).top = s.top := rfl
@[simp] theorem State.setQs_pm (s : State) (q : Queues) : (s.setQs q).pm = s.pm := rfl
@[simp] theorem State.setQs_cs (s : State) (q : Queues) : (s.setQs q).cs = s.cs := rfl
@[simp] theorem State.setQs_dma (s : State) (q : Queues) : (s.setQs q).dma = s.dma := rfl
@[simp] theorem State.setQs_sorter (s : State) (q : Queues) : (s.setQs q).sorter = s.sorter := rfl
@[simp] theorem State.setQs_reg (s : State) (q : Queues) : (s.setQs q).reg = s.reg := rfl
@[simp] theorem State.setQs_stats (s : State) (q : Queues) : (s.setQs q).stats = s.stats := rfl
@[simp] theorem State.setQs_time (s : State) (q : Queues) : (s.setQs q).time = s.time := rfl
@[simp] theorem State.setQs_sec (s : State) (q : Queues) : (s.setQs q).sec = s.sec := rfl
@[simp] theorem State.setQs_guards (s : State) (q : Queues) : (s.setQs q).guards = s.guards := rfl
@[simp] theorem State.setQs_guardQueue (s : State) (q : Queues) : (s.setQs q).guardQueue = s.guardQueue := rfl
@[simp] theorem State.setQs_ports (s : State) (q : Queues) : (s.setQs q).ports = s.ports := rfl
@[simp] theorem State.setQs_lanes (s : State) (q : Queues) : (s.setQs q).lanes = s.lanes := rfl
@[simp] theorem State.setQs_frames (s : State) (q : Queues) : (s.setQs q).frames = s.frames := rfl
@[simp] theorem State.setQs_power (s : State) (q : Queues) : (s.setQs q).power = s.power := rfl
@[simp] theorem State.setQs_casc (s : State) (q : Queues) : (s.setQs q).casc = s.casc := rfl
@[simp] theorem State.setQs_mon (s : State) (q : Queues) : (s.setQs q).mon = s.mon := rfl

/-! ### setDma -/

@[simp] theorem State.setDma_pending (s : State) (d : Dma) : (s.setDma d).pending = s.pending := rfl
@[simp] theorem State.setDma_out (s : State) (d : Dma) : (s.setDma d).out = s.out := rfl
@[simp] theorem State.setDma_fresh (s : State) (d : Dma) : (s.setDma d).fresh = s.fresh := rfl
@[simp] theorem State.setDma_nextId (s : State) (d : Dma) : (s.setDma d).nextId = s.nextId := rfl
@[simp] theorem State.setDma_clock (s : State) (d : Dma) : (s.setDma d).clock = s.clock := rfl
@[simp] theorem State.setDma_regimes (s : State) (d : Dma) : (s.setDma d).regimes = s.regimes := rfl
@[simp] theorem State.setDma_top (s : State) (d : Dma) : (s.setDma d).top = s.top := rfl
@[simp] theorem State.setDma_pm (s : State) (d : Dma) : (s.setDma d).pm = s.pm := rfl
@[simp] theorem State.setDma_cs (s : State) (d : Dma) : (s.setDma d).cs = s.cs := rfl
@[simp] theorem State.setDma_qs (s : State) (d : Dma) : (s.setDma d).qs = s.qs := rfl
@[simp] theorem State.setDma_sorter (s : State) (d : Dma) : (s.setDma d).sorter = s.sorter := rfl
@[simp] theorem State.setDma_reg (s : State) (d : Dma) : (s.setDma d).reg = s.reg := rfl
@[simp] theorem State.setDma_stats (s : State) (d : Dma) : (s.setDma d).stats = s.stats := rfl
@[simp] theorem State.setDma_time (s : State) (d : Dma) : (s.setDma d).time = s.time := rfl
@[simp] theorem State.setDma_sec (s : State) (d : Dma) : (s.setDma d).sec = s.sec := rfl
@[simp] theorem State.setDma_guards (s : State) (d : Dma) : (s.setDma d).guards = s.guards := rfl
@[simp] theorem State.setDma_guardQueue (s : State) (d : Dma) : (s.setDma d).guardQueue = s.guardQueue := rfl
@[simp] theorem State.setDma_ports (s : State) (d : Dma) : (s.setDma d).ports = s.ports := rfl
@[simp] theorem State.setDma_lanes (s : State) (d : Dma) : (s.setDma d).lanes = s.lanes := rfl
@[simp] theorem State.setDma_frames (s : State) (d : Dma) : (s.setDma d).frames = s.frames := rfl
@[simp] theorem State.setDma_power (s : State) (d : Dma) : (s.setDma d).power = s.power := rfl
@[simp] theorem State.setDma_casc (s : State) (d : Dma) : (s.setDma d).casc = s.casc := rfl
@[simp] theorem State.setDma_mon (s : State) (d : Dma) : (s.setDma d).mon = s.mon := rfl

/-! ### setReg -/

@[simp] theorem State.setReg_pending (s : State) (r : Registry) : (s.setReg r).pending = s.pending := rfl
@[simp] theorem State.setReg_out (s : State) (r : Registry) : (s.setReg r).out = s.out := rfl
@[simp] theorem State.setReg_fresh (s : State) (r : Registry) : (s.setReg r).fresh = s.fresh := rfl
@[simp] theorem State.setReg_nextId (s : State) (r : Registry) : (s.setReg r).nextId = s.nextId := rfl
@[simp] theorem State.setReg_clock (s : State) (r : Registry) : (s.setReg r).clock = s.clock := rfl
@[simp] theorem State.setReg_regimes (s : State) (r : Registry) : (s.setReg r).regimes = s.regimes := rfl
@[simp] theorem State.setReg_top (s : State) (r : Registry) : (s.setReg r).top = s.top := rfl
@[simp] theorem State.setReg_pm (s : State) (r : Registry) : (s.setReg r).pm = s.pm := rfl
@[simp] theorem State.setReg_cs (s : State) (r : Registry) : (s.setReg r).cs = s.cs := rfl
@[simp] theorem State.setReg_qs (s : State) (r : Registry) : (s.setReg r).qs = s.qs := rfl
@[simp] theorem State.setReg_dma (s : State) (r : Registry) : (s.setReg r).dma = s.dma := rfl
@[simp] theorem State.setReg_sorter (s : State) (r : Registry) : (s.setReg r).sorter = s.sorter := rfl
@[simp] theorem State.setReg_stats (s : State) (r : Registry) : (s.setReg r).stats = s.stats := rfl
@[simp] theorem State.setReg_time (s : State) (r : Registry) : (s.setReg r).time = s.time := rfl
@[simp] theorem State.setReg_sec (s : State) (r : Registry) : (s.setReg r).sec = s.sec := rfl
@[simp] theorem State.setReg_guards (s : State) (r : Registry) : (s.setReg r).guards = s.guards := rfl
@[simp] theorem State.setReg_guardQueue (s : State) (r : Registry) : (s.setReg r).guardQueue = s.guardQueue := rfl
@[simp] theorem State.setReg_ports (s : State) (r : Registry) : (s.setReg r).ports = s.ports := rfl
@[simp] theorem State.setReg_lanes (s : State) (r : Registry) : (s.setReg r).lanes = s.lanes := rfl
@[simp] theorem State.setReg_frames (s : State) (r : Registry) : (s.setReg r).frames = s.frames := rfl
@[simp] theorem State.setReg_power (s : State) (r : Registry) : (s.setReg r).power = s.power := rfl
@[simp] theorem State.setReg_casc (s : State) (r : Registry) : (s.setReg r).casc = s.casc := rfl
@[simp] theorem State.setReg_mon (s : State) (r : Registry) : (s.setReg r).mon = s.mon := rfl

/-! ### setStats -/

@[simp] theorem State.setStats_pending (s : State) (x : Stats) : (s.setStats x).pending = s.pending := rfl
@[simp] theorem State.setStats_out (s : State) (x : Stats) : (s.setStats x).out = s.out := rfl
@[simp] theorem State.setStats_fresh (s : State) (x : Stats) : (s.setStats x).fresh = s.fresh := rfl
@[simp] theorem State.setStats_nextId (s : State) (x : Stats) : (s.setStats x).nextId = s.nextId := rfl
@[simp] theorem State.setStats_clock (s : State) (x : Stats) : (s.setStats x).clock = s.clock := rfl
@[simp] theorem State.setStats_regimes (s : State) (x : Stats) : (s.setStats x).regimes = s.regimes := rfl
@[simp] theorem State.setStats_top (s : State) (x : Stats) : (s.setStats x).top = s.top := rfl
@[simp] theorem State.setStats_pm (s : State) (x : Stats) : (s.setStats x).pm = s.pm := rfl
@[simp] theorem State.setStats_cs (s : State) (x : Stats) : (s.setStats x).cs = s.cs := rfl
@[simp] theorem State.setStats_qs (s : State) (x : Stats) : (s.setStats x).qs = s.qs := rfl
@[simp] theorem State.setStats_dma (s : State) (x : Stats) : (s.setStats x).dma = s.dma := rfl
@[simp] theorem State.setStats_sorter (s : State) (x : Stats) : (s.setStats x).sorter = s.sorter := rfl
@[simp] theorem State.setStats_reg (s : State) (x : Stats) : (s.setStats x).reg = s.reg := rfl
@[simp] theorem State.setStats_time (s : State) (x : Stats) : (s.setStats x).time = s.time := rfl
@[simp] theorem State.setStats_sec (s : State) (x : Stats) : (s.setStats x).sec = s.sec := rfl
@[simp] theorem State.setStats_guards (s : State) (x : Stats) : (s.setStats x).guards = s.guards := rfl
@[simp] theorem State.setStats_guardQueue (s : State) (x : Stats) : (s.setStats x).guardQueue = s.guardQueue := rfl
@[simp] theorem State.setStats_ports (s : State) (x : Stats) : (s.setStats x).ports = s.ports := rfl
@[simp] theorem State.setStats_lanes (s : State) (x : Stats) : (s.setStats x).lanes = s.lanes := rfl
@[simp] theorem State.setStats_frames (s : State) (x : Stats) : (s.setStats x).frames = s.frames := rfl
@[simp] theorem State.setStats_power (s : State) (x : Stats) : (s.setStats x).power = s.power := rfl
@[simp] theorem State.setStats_casc (s : State) (x : Stats) : (s.setStats x).casc = s.casc := rfl
@[simp] theorem State.setStats_mon (s : State) (x : Stats) : (s.setStats x).mon = s.mon := rfl

/-! ### setTimeUnit -/

@[simp] theorem State.setTimeUnit_pending (s : State) (t : Time) : (s.setTimeUnit t).pending = s.pending := rfl
@[simp] theorem State.setTimeUnit_out (s : State) (t : Time) : (s.setTimeUnit t).out = s.out := rfl
@[simp] theorem State.setTimeUnit_fresh (s : State) (t : Time) : (s.setTimeUnit t).fresh = s.fresh := rfl
@[simp] theorem State.setTimeUnit_nextId (s : State) (t : Time) : (s.setTimeUnit t).nextId = s.nextId := rfl
@[simp] theorem State.setTimeUnit_clock (s : State) (t : Time) : (s.setTimeUnit t).clock = s.clock := rfl
@[simp] theorem State.setTimeUnit_regimes (s : State) (t : Time) : (s.setTimeUnit t).regimes = s.regimes := rfl
@[simp] theorem State.setTimeUnit_top (s : State) (t : Time) : (s.setTimeUnit t).top = s.top := rfl
@[simp] theorem State.setTimeUnit_pm (s : State) (t : Time) : (s.setTimeUnit t).pm = s.pm := rfl
@[simp] theorem State.setTimeUnit_cs (s : State) (t : Time) : (s.setTimeUnit t).cs = s.cs := rfl
@[simp] theorem State.setTimeUnit_qs (s : State) (t : Time) : (s.setTimeUnit t).qs = s.qs := rfl
@[simp] theorem State.setTimeUnit_dma (s : State) (t : Time) : (s.setTimeUnit t).dma = s.dma := rfl
@[simp] theorem State.setTimeUnit_sorter (s : State) (t : Time) : (s.setTimeUnit t).sorter = s.sorter := rfl
@[simp] theorem State.setTimeUnit_reg (s : State) (t : Time) : (s.setTimeUnit t).reg = s.reg := rfl
@[simp] theorem State.setTimeUnit_stats (s : State) (t : Time) : (s.setTimeUnit t).stats = s.stats := rfl
@[simp] theorem State.setTimeUnit_sec (s : State) (t : Time) : (s.setTimeUnit t).sec = s.sec := rfl
@[simp] theorem State.setTimeUnit_guards (s : State) (t : Time) : (s.setTimeUnit t).guards = s.guards := rfl
@[simp] theorem State.setTimeUnit_guardQueue (s : State) (t : Time) : (s.setTimeUnit t).guardQueue = s.guardQueue := rfl
@[simp] theorem State.setTimeUnit_ports (s : State) (t : Time) : (s.setTimeUnit t).ports = s.ports := rfl
@[simp] theorem State.setTimeUnit_lanes (s : State) (t : Time) : (s.setTimeUnit t).lanes = s.lanes := rfl
@[simp] theorem State.setTimeUnit_frames (s : State) (t : Time) : (s.setTimeUnit t).frames = s.frames := rfl
@[simp] theorem State.setTimeUnit_power (s : State) (t : Time) : (s.setTimeUnit t).power = s.power := rfl
@[simp] theorem State.setTimeUnit_casc (s : State) (t : Time) : (s.setTimeUnit t).casc = s.casc := rfl
@[simp] theorem State.setTimeUnit_mon (s : State) (t : Time) : (s.setTimeUnit t).mon = s.mon := rfl

/-! ### setSec -/

@[simp] theorem State.setSec_pending (s : State) (x : Sec) : (s.setSec x).pending = s.pending := rfl
@[simp] theorem State.setSec_out (s : State) (x : Sec) : (s.setSec x).out = s.out := rfl
@[simp] theorem State.setSec_fresh (s : State) (x : Sec) : (s.setSec x).fresh = s.fresh := rfl
@[simp] theorem State.setSec_nextId (s : State) (x : Sec) : (s.setSec x).nextId = s.nextId := rfl
@[simp] theorem State.setSec_clock (s : State) (x : Sec) : (s.setSec x).clock = s.clock := rfl
@[simp] theorem State.setSec_regimes (s : State) (x : Sec) : (s.setSec x).regimes = s.regimes := rfl
@[simp] theorem State.setSec_top (s : State) (x : Sec) : (s.setSec x).top = s.top := rfl
@[simp] theorem State.setSec_pm (s : State) (x : Sec) : (s.setSec x).pm = s.pm := rfl
@[simp] theorem State.setSec_cs (s : State) (x : Sec) : (s.setSec x).cs = s.cs := rfl
@[simp] theorem State.setSec_qs (s : State) (x : Sec) : (s.setSec x).qs = s.qs := rfl
@[simp] theorem State.setSec_dma (s : State) (x : Sec) : (s.setSec x).dma = s.dma := rfl
@[simp] theorem State.setSec_sorter (s : State) (x : Sec) : (s.setSec x).sorter = s.sorter := rfl
@[simp] theorem State.setSec_reg (s : State) (x : Sec) : (s.setSec x).reg = s.reg := rfl
@[simp] theorem State.setSec_stats (s : State) (x : Sec) : (s.setSec x).stats = s.stats := rfl
@[simp] theorem State.setSec_time (s : State) (x : Sec) : (s.setSec x).time = s.time := rfl
@[simp] theorem State.setSec_guards (s : State) (x : Sec) : (s.setSec x).guards = s.guards := rfl
@[simp] theorem State.setSec_guardQueue (s : State) (x : Sec) : (s.setSec x).guardQueue = s.guardQueue := rfl
@[simp] theorem State.setSec_ports (s : State) (x : Sec) : (s.setSec x).ports = s.ports := rfl
@[simp] theorem State.setSec_lanes (s : State) (x : Sec) : (s.setSec x).lanes = s.lanes := rfl
@[simp] theorem State.setSec_frames (s : State) (x : Sec) : (s.setSec x).frames = s.frames := rfl
@[simp] theorem State.setSec_power (s : State) (x : Sec) : (s.setSec x).power = s.power := rfl
@[simp] theorem State.setSec_casc (s : State) (x : Sec) : (s.setSec x).casc = s.casc := rfl
@[simp] theorem State.setSec_mon (s : State) (x : Sec) : (s.setSec x).mon = s.mon := rfl

/-! ### setPower -/

@[simp] theorem State.setPower_pending (s : State) (p : Power) : (s.setPower p).pending = s.pending := rfl
@[simp] theorem State.setPower_out (s : State) (p : Power) : (s.setPower p).out = s.out := rfl
@[simp] theorem State.setPower_fresh (s : State) (p : Power) : (s.setPower p).fresh = s.fresh := rfl
@[simp] theorem State.setPower_nextId (s : State) (p : Power) : (s.setPower p).nextId = s.nextId := rfl
@[simp] theorem State.setPower_clock (s : State) (p : Power) : (s.setPower p).clock = s.clock := rfl
@[simp] theorem State.setPower_regimes (s : State) (p : Power) : (s.setPower p).regimes = s.regimes := rfl
@[simp] theorem State.setPower_top (s : State) (p : Power) : (s.setPower p).top = s.top := rfl
@[simp] theorem State.setPower_pm (s : State) (p : Power) : (s.setPower p).pm = s.pm := rfl
@[simp] theorem State.setPower_cs (s : State) (p : Power) : (s.setPower p).cs = s.cs := rfl
@[simp] theorem State.setPower_qs (s : State) (p : Power) : (s.setPower p).qs = s.qs := rfl
@[simp] theorem State.setPower_dma (s : State) (p : Power) : (s.setPower p).dma = s.dma := rfl
@[simp] theorem State.setPower_sorter (s : State) (p : Power) : (s.setPower p).sorter = s.sorter := rfl
@[simp] theorem State.setPower_reg (s : State) (p : Power) : (s.setPower p).reg = s.reg := rfl
@[simp] theorem State.setPower_stats (s : State) (p : Power) : (s.setPower p).stats = s.stats := rfl
@[simp] theorem State.setPower_time (s : State) (p : Power) : (s.setPower p).time = s.time := rfl
@[simp] theorem State.setPower_sec (s : State) (p : Power) : (s.setPower p).sec = s.sec := rfl
@[simp] theorem State.setPower_guards (s : State) (p : Power) : (s.setPower p).guards = s.guards := rfl
@[simp] theorem State.setPower_guardQueue (s : State) (p : Power) : (s.setPower p).guardQueue = s.guardQueue := rfl
@[simp] theorem State.setPower_ports (s : State) (p : Power) : (s.setPower p).ports = s.ports := rfl
@[simp] theorem State.setPower_lanes (s : State) (p : Power) : (s.setPower p).lanes = s.lanes := rfl
@[simp] theorem State.setPower_frames (s : State) (p : Power) : (s.setPower p).frames = s.frames := rfl
@[simp] theorem State.setPower_casc (s : State) (p : Power) : (s.setPower p).casc = s.casc := rfl
@[simp] theorem State.setPower_mon (s : State) (p : Power) : (s.setPower p).mon = s.mon := rfl

/-! ### setCasc -/

@[simp] theorem State.setCasc_pending (s : State) (c : Casc) : (s.setCasc c).pending = s.pending := rfl
@[simp] theorem State.setCasc_out (s : State) (c : Casc) : (s.setCasc c).out = s.out := rfl
@[simp] theorem State.setCasc_fresh (s : State) (c : Casc) : (s.setCasc c).fresh = s.fresh := rfl
@[simp] theorem State.setCasc_nextId (s : State) (c : Casc) : (s.setCasc c).nextId = s.nextId := rfl
@[simp] theorem State.setCasc_clock (s : State) (c : Casc) : (s.setCasc c).clock = s.clock := rfl
@[simp] theorem State.setCasc_regimes (s : State) (c : Casc) : (s.setCasc c).regimes = s.regimes := rfl
@[simp] theorem State.setCasc_top (s : State) (c : Casc) : (s.setCasc c).top = s.top := rfl
@[simp] theorem State.setCasc_pm (s : State) (c : Casc) : (s.setCasc c).pm = s.pm := rfl
@[simp] theorem State.setCasc_cs (s : State) (c : Casc) : (s.setCasc c).cs = s.cs := rfl
@[simp] theorem State.setCasc_qs (s : State) (c : Casc) : (s.setCasc c).qs = s.qs := rfl
@[simp] theorem State.setCasc_dma (s : State) (c : Casc) : (s.setCasc c).dma = s.dma := rfl
@[simp] theorem State.setCasc_sorter (s : State) (c : Casc) : (s.setCasc c).sorter = s.sorter := rfl
@[simp] theorem State.setCasc_reg (s : State) (c : Casc) : (s.setCasc c).reg = s.reg := rfl
@[simp] theorem State.setCasc_stats (s : State) (c : Casc) : (s.setCasc c).stats = s.stats := rfl
@[simp] theorem State.setCasc_time (s : State) (c : Casc) : (s.setCasc c).time = s.time := rfl
@[simp] theorem State.setCasc_sec (s : State) (c : Casc) : (s.setCasc c).sec = s.sec := rfl
@[simp] theorem State.setCasc_guards (s : State) (c : Casc) : (s.setCasc c).guards = s.guards := rfl
@[simp] theorem State.setCasc_guardQueue (s : State) (c : Casc) : (s.setCasc c).guardQueue = s.guardQueue := rfl
@[simp] theorem State.setCasc_ports (s : State) (c : Casc) : (s.setCasc c).ports = s.ports := rfl
@[simp] theorem State.setCasc_lanes (s : State) (c : Casc) : (s.setCasc c).lanes = s.lanes := rfl
@[simp] theorem State.setCasc_frames (s : State) (c : Casc) : (s.setCasc c).frames = s.frames := rfl
@[simp] theorem State.setCasc_power (s : State) (c : Casc) : (s.setCasc c).power = s.power := rfl
@[simp] theorem State.setCasc_mon (s : State) (c : Casc) : (s.setCasc c).mon = s.mon := rfl

/-! ### updEntry -/

@[simp] theorem State.updEntry_pending (s : State) (jid : Nat) (f : JEntry → JEntry) : (s.updEntry jid f).pending = s.pending := rfl
@[simp] theorem State.updEntry_out (s : State) (jid : Nat) (f : JEntry → JEntry) : (s.updEntry jid f).out = s.out := rfl
@[simp] theorem State.updEntry_fresh (s : State) (jid : Nat) (f : JEntry → JEntry) : (s.updEntry jid f).fresh = s.fresh := rfl
@[simp] theorem State.updEntry_nextId (s : State) (jid : Nat) (f : JEntry → JEntry) : (s.updEntry jid f).nextId = s.nextId := rfl
@[simp] theorem State.updEntry_clock (s : State) (jid : Nat) (f : JEntry → JEntry) : (s.updEntry jid f).clock = s.clock := rfl
@[simp] theorem State.updEntry_regimes (s : State) (jid : Nat) (f : JEntry → JEntry) : (s.updEntry jid f).regimes = s.regimes := rfl
@[simp] theorem State.updEntry_top (s : State) (jid : Nat) (f : JEntry → JEntry) : (s.updEntry jid f).top = s.top := rfl
@[simp] theorem State.updEntry_cs (s : State) (jid : Nat) (f : JEntry → JEntry) : (s.updEntry jid f).cs = s.cs := rfl
@[simp] theorem State.updEntry_qs (s : State) (jid : Nat) (f : JEntry → JEntry) : (s.updEntry jid f).qs = s.qs := rfl
@[simp] theorem State.updEntry_dma (s : State) (jid : Nat) (f : JEntry → JEntry) : (s.updEntry jid f).dma = s.dma := rfl
@[simp] theorem State.updEntry_sorter (s : State) (jid : Nat) (f : JEntry → JEntry) : (s.updEntry jid f).sorter = s.sorter := rfl
@[simp] theorem State.updEntry_reg (s : State) (jid : Nat) (f : JEntry → JEntry) : (s.updEntry jid f).reg = s.reg := rfl
@[simp] theorem State.updEntry_stats (s : State) (jid : Nat) (f : JEntry → JEntry) : (s.updEntry jid f).stats = s.stats := rfl
@[simp] theorem State.updEntry_time (s : State) (jid : Nat) (f : JEntry → JEntry) : (s.updEntry jid f).time = s.time := rfl
@[simp] theorem State.updEntry_sec (s : State) (jid : Nat) (f : JEntry → JEntry) : (s.updEntry jid f).sec = s.sec := rfl
@[simp] theorem State.updEntry_guards (s : State) (jid : Nat) (f : JEntry → JEntry) : (s.updEntry jid f).guards = s.guards := rfl
@[simp] theorem State.updEntry_guardQueue (s : State) (jid : Nat) (f : JEntry → JEntry) : (s.updEntry jid f).guardQueue = s.guardQueue := rfl
@[simp] theorem State.updEntry_ports (s : State) (jid : Nat) (f : JEntry → JEntry) : (s.updEntry jid f).ports = s.ports := rfl
@[simp] theorem State.updEntry_lanes (s : State) (jid : Nat) (f : JEntry → JEntry) : (s.updEntry jid f).lanes = s.lanes := rfl
@[simp] theorem State.updEntry_frames (s : State) (jid : Nat) (f : JEntry → JEntry) : (s.updEntry jid f).frames = s.frames := rfl
@[simp] theorem State.updEntry_power (s : State) (jid : Nat) (f : JEntry → JEntry) : (s.updEntry jid f).power = s.power := rfl
@[simp] theorem State.updEntry_casc (s : State) (jid : Nat) (f : JEntry → JEntry) : (s.updEntry jid f).casc = s.casc := rfl
@[simp] theorem State.updEntry_mon (s : State) (jid : Nat) (f : JEntry → JEntry) : (s.updEntry jid f).mon = s.mon := rfl

/-! ### updChan -/

@[simp] theorem State.updChan_pending (s : State) (c : Nat) (f : Chan → Chan) : (s.updChan c f).pending = s.pending := rfl
@[simp] theorem State.updChan_out (s : State) (c : Nat) (f : Chan → Chan) : (s.updChan c f).out = s.out := rfl
@[simp] theorem State.updChan_fresh (s : State) (c : Nat) (f : Chan → Chan) : (s.updChan c f).fresh = s.fresh := rfl
@[simp] theorem State.updChan_nextId (s : State) (c : Nat) (f : Chan → Chan) : (s.updChan c f).nextId = s.nextId := rfl
@[simp] theorem State.updChan_clock (s : State) (c : Nat) (f : Chan → Chan) : (s.updChan c f).clock = s.clock := rfl
@[simp] theorem State.updChan_regimes (s : State) (c : Nat) (f : Chan → Chan) : (s.updChan c f).regimes = s.regimes := rfl
@[simp] theorem State.updChan_top (s : State) (c : Nat) (f : Chan → Chan) : (s.updChan c f).top = s.top := rfl
@[simp] theorem State.updChan_pm (s : State) (c : Nat) (f : Chan → Chan) : (s.updChan c f).pm = s.pm := rfl
@[simp] theorem State.updChan_cs (s : State) (c : Nat) (f : Chan → Chan) : (s.updChan c f).cs = s.cs := rfl
@[simp] theorem State.updChan_qs (s : State) (c : Nat) (f : Chan → Chan) : (s.updChan c f).qs = s.qs := rfl
@[simp] theorem State.updChan_sorter (s : State) (c : Nat) (f : Chan → Chan) : (s.updChan c f).sorter = s.sorter := rfl
@[simp] theorem State.updChan_reg (s : State) (c : Nat) (f : Chan → Chan) : (s.updChan c f).reg = s.reg := rfl
@[simp] theorem State.updChan_stats (s : State) (c : Nat) (f : Chan → Chan) : (s.updChan c f).stats = s.stats := rfl
@[simp] theorem State.updChan_time (s : State) (c : Nat) (f : Chan → Chan) : (s.updChan c f).time = s.time := rfl
@[simp] theorem State.updChan_sec (s : State) (c : Nat) (f : Chan → Chan) : (s.updChan c f).sec = s.sec := rfl
@[simp] theorem State.updChan_guards (s : State) (c : Nat) (f : Chan → Chan) : (s.updChan c f).guards = s.guards := rfl
@[simp] theorem State.updChan_guardQueue (s : State) (c : Nat) (f : Chan → Chan) : (s.updChan c f).guardQueue = s.guardQueue := rfl
@[simp] theorem State.updChan_ports (s : State) (c : Nat) (f : Chan → Chan) : (s.updChan c f).ports = s.ports := rfl
@[simp] theorem State.updChan_lanes (s : State) (c : Nat) (f : Chan → Chan) : (s.updChan c f).lanes = s.lanes := rfl
@[simp] theorem State.updChan_frames (s : State) (c : Nat) (f : Chan → Chan) : (s.updChan c f).frames = s.frames := rfl
@[simp] theorem State.updChan_power (s : State) (c : Nat) (f : Chan → Chan) : (s.updChan c f).power = s.power := rfl
@[simp] theorem State.updChan_casc (s : State) (c : Nat) (f : Chan → Chan) : (s.updChan c f).casc = s.casc := rfl
@[simp] theorem State.updChan_mon (s : State) (c : Nat) (f : Chan → Chan) : (s.updChan c f).mon = s.mon := rfl

/-! ### updRx -/

@[simp] theorem State.updRx_pending (s : State) (fid : Nat) (g : RxFr → RxFr) : (s.updRx fid g).pending = s.pending := rfl
@[simp] theorem State.updRx_out (s : State) (fid : Nat) (g : RxFr → RxFr) : (s.updRx fid g).out = s.out := rfl
@[simp] theorem State.updRx_fresh (s : State) (fid : Nat) (g : RxFr → RxFr) : (s.updRx fid g).fresh = s.fresh := rfl
@[simp] theorem State.updRx_nextId (s : State) (fid : Nat) (g : RxFr → RxFr) : (s.updRx fid g).nextId = s.nextId := rfl
@[simp] theorem State.updRx_clock (s : State) (fid : Nat) (g : RxFr → RxFr) : (s.updRx fid g).clock = s.clock := rfl
@[simp] theorem State.updRx_regimes (s : State) (fid : Nat) (g : RxFr → RxFr) : (s.updRx fid g).regimes = s.regimes := rfl
@[simp] theorem State.updRx_top (s : State) (fid : Nat) (g : RxFr → RxFr) : (s.updRx fid g).top = s.top := rfl
@[simp] theorem State.updRx_pm (s : State) (fid : Nat) (g : RxFr → RxFr) : (s.updRx fid g).pm = s.pm := rfl
@[simp] theorem State.updRx_cs (s : State) (fid : Nat) (g : RxFr → RxFr) : (s.updRx fid g).cs = s.cs := rfl
@[simp] theorem State.updRx_qs (s : State) (fid : Nat) (g : RxFr → RxFr) : (s.updRx fid g).qs = s.qs := rfl
@[simp] theorem State.updRx_dma (s : State) (fid : Nat) (g : RxFr → RxFr) : (s.updRx fid g).dma = s.dma := rfl
@[simp] theorem State.updRx_sorter (s : State) (fid : Nat) (g : RxFr → RxFr) : (s.updRx fid g).sorter = s.sorter := rfl
@[simp] theorem State.updRx_reg (s : State) (fid : Nat) (g : RxFr → RxFr) : (s.updRx fid g).reg = s.reg := rfl
@[simp] theorem State.updRx_stats (s : State) (fid : Nat) (g : RxFr → RxFr) : (s.updRx fid g).stats = s.stats := rfl
@[simp] theorem State.updRx_time (s : State) (fid : Nat) (g : RxFr → RxFr) : (s.updRx fid g).time = s.time := rfl
@[simp] theorem State.updRx_sec (s : State) (fid : Nat) (g : RxFr → RxFr) : (s.updRx fid g).sec = s.sec := rfl
@[simp] theorem State.updRx_guards (s : State) (fid : Nat) (g : RxFr → RxFr) : (s.updRx fid g).guards = s.guards := rfl
@[simp] theorem State.updRx_guardQueue (s : State) (fid : Nat) (g : RxFr → RxFr) : (s.updRx fid g).guardQueue = s.guardQueue := rfl
@[simp] theorem State.updRx_ports (s : State) (fid : Nat) (g : RxFr → RxFr) : (s.updRx fid g).ports = s.ports := rfl
@[simp] theorem State.updRx_lanes (s : State) (fid : Nat) (g : RxFr → RxFr) : (s.updRx fid g).lanes = s.lanes := rfl
@[simp] theorem State.updRx_power (s : State) (fid : Nat) (g : RxFr → RxFr) : (s.updRx fid g).power = s.power := rfl
@[simp] theorem State.updRx_casc (s : State) (fid : Nat) (g : RxFr → RxFr) : (s.updRx fid g).casc = s.casc := rfl
@[simp] theorem State.updRx_mon (s : State) (fid : Nat) (g : RxFr → RxFr) : (s.updRx fid g).mon = s.mon := rfl

/-! ### leaveRx -/

@[simp] theorem State.leaveRx_pending (s : State) (fid : Nat) : (s.leaveRx fid).pending = s.pending := rfl
@[simp] theorem State.leaveRx_out (s : State) (fid : Nat) : (s.leaveRx fid).out = s.out := rfl
@[simp] theorem State.leaveRx_fresh (s : State) (fid : Nat) : (s.leaveRx fid).fresh = s.fresh := rfl
@[simp] theorem State.leaveRx_nextId (s : State) (fid : Nat) : (s.leaveRx fid).nextId = s.nextId := rfl
@[simp] theorem State.leaveRx_clock (s : State) (fid : Nat) : (s.leaveRx fid).clock = s.clock := rfl
@[simp] theorem State.leaveRx_regimes (s : State) (fid : Nat) : (s.leaveRx fid).regimes = s.regimes := rfl
@[simp] theorem State.leaveRx_top (s : State) (fid : Nat) : (s.leaveRx fid).top = s.top := rfl
@[simp] theorem State.leaveRx_pm (s : State) (fid : Nat) : (s.leaveRx fid).pm = s.pm := rfl
@[simp] theorem State.leaveRx_cs (s : State) (fid : Nat) : (s.leaveRx fid).cs = s.cs := rfl
@[simp] theorem State.leaveRx_qs (s : State) (fid : Nat) : (s.leaveRx fid).qs = s.qs := rfl
@[simp] theorem State.leaveRx_dma (s : State) (fid : Nat) : (s.leaveRx fid).dma = s.dma := rfl
@[simp] theorem State.leaveRx_sorter (s : State) (fid : Nat) : (s.leaveRx fid).sorter = s.sorter := rfl
@[simp] theorem State.leaveRx_reg (s : State) (fid : Nat) : (s.leaveRx fid).reg = s.reg := rfl
@[simp] theorem State.leaveRx_stats (s : State) (fid : Nat) : (s.leaveRx fid).stats = s.stats := rfl
@[simp] theorem State.leaveRx_time (s : State) (fid : Nat) : (s.leaveRx fid).time = s.time := rfl
@[simp] theorem State.leaveRx_sec (s : State) (fid : Nat) : (s.leaveRx fid).sec = s.sec := rfl
@[simp] theorem State.leaveRx_guards (s : State) (fid : Nat) : (s.leaveRx fid).guards = s.guards := rfl
@[simp] theorem State.leaveRx_guardQueue (s : State) (fid : Nat) : (s.leaveRx fid).guardQueue = s.guardQueue := rfl
@[simp] theorem State.leaveRx_ports (s : State) (fid : Nat) : (s.leaveRx fid).ports = s.ports := rfl
@[simp] theorem State.leaveRx_lanes (s : State) (fid : Nat) : (s.leaveRx fid).lanes = s.lanes := rfl
@[simp] theorem State.leaveRx_power (s : State) (fid : Nat) : (s.leaveRx fid).power = s.power := rfl
@[simp] theorem State.leaveRx_casc (s : State) (fid : Nat) : (s.leaveRx fid).casc = s.casc := rfl
@[simp] theorem State.leaveRx_mon (s : State) (fid : Nat) : (s.leaveRx fid).mon = s.mon := rfl

/-! ### setDepth -/

@[simp] theorem State.setDepth_pending (s : State) (j : Nat) (c : BitVec 3) : (s.setDepth j c).pending = s.pending := rfl
@[simp] theorem State.setDepth_out (s : State) (j : Nat) (c : BitVec 3) : (s.setDepth j c).out = s.out := rfl
@[simp] theorem State.setDepth_fresh (s : State) (j : Nat) (c : BitVec 3) : (s.setDepth j c).fresh = s.fresh := rfl
@[simp] theorem State.setDepth_nextId (s : State) (j : Nat) (c : BitVec 3) : (s.setDepth j c).nextId = s.nextId := rfl
@[simp] theorem State.setDepth_clock (s : State) (j : Nat) (c : BitVec 3) : (s.setDepth j c).clock = s.clock := rfl
@[simp] theorem State.setDepth_regimes (s : State) (j : Nat) (c : BitVec 3) : (s.setDepth j c).regimes = s.regimes := rfl
@[simp] theorem State.setDepth_top (s : State) (j : Nat) (c : BitVec 3) : (s.setDepth j c).top = s.top := rfl
@[simp] theorem State.setDepth_pm (s : State) (j : Nat) (c : BitVec 3) : (s.setDepth j c).pm = s.pm := rfl
@[simp] theorem State.setDepth_cs (s : State) (j : Nat) (c : BitVec 3) : (s.setDepth j c).cs = s.cs := rfl
@[simp] theorem State.setDepth_qs (s : State) (j : Nat) (c : BitVec 3) : (s.setDepth j c).qs = s.qs := rfl
@[simp] theorem State.setDepth_dma (s : State) (j : Nat) (c : BitVec 3) : (s.setDepth j c).dma = s.dma := rfl
@[simp] theorem State.setDepth_reg (s : State) (j : Nat) (c : BitVec 3) : (s.setDepth j c).reg = s.reg := rfl
@[simp] theorem State.setDepth_stats (s : State) (j : Nat) (c : BitVec 3) : (s.setDepth j c).stats = s.stats := rfl
@[simp] theorem State.setDepth_time (s : State) (j : Nat) (c : BitVec 3) : (s.setDepth j c).time = s.time := rfl
@[simp] theorem State.setDepth_sec (s : State) (j : Nat) (c : BitVec 3) : (s.setDepth j c).sec = s.sec := rfl
@[simp] theorem State.setDepth_guards (s : State) (j : Nat) (c : BitVec 3) : (s.setDepth j c).guards = s.guards := rfl
@[simp] theorem State.setDepth_guardQueue (s : State) (j : Nat) (c : BitVec 3) : (s.setDepth j c).guardQueue = s.guardQueue := rfl
@[simp] theorem State.setDepth_ports (s : State) (j : Nat) (c : BitVec 3) : (s.setDepth j c).ports = s.ports := rfl
@[simp] theorem State.setDepth_lanes (s : State) (j : Nat) (c : BitVec 3) : (s.setDepth j c).lanes = s.lanes := rfl
@[simp] theorem State.setDepth_frames (s : State) (j : Nat) (c : BitVec 3) : (s.setDepth j c).frames = s.frames := rfl
@[simp] theorem State.setDepth_power (s : State) (j : Nat) (c : BitVec 3) : (s.setDepth j c).power = s.power := rfl
@[simp] theorem State.setDepth_casc (s : State) (j : Nat) (c : BitVec 3) : (s.setDepth j c).casc = s.casc := rfl
@[simp] theorem State.setDepth_mon (s : State) (j : Nat) (c : BitVec 3) : (s.setDepth j c).mon = s.mon := rfl

/-! ### microPasses -/

@[simp] theorem State.microPasses_pending (s : State) : (s.microPasses).pending = s.pending := rfl
@[simp] theorem State.microPasses_out (s : State) : (s.microPasses).out = s.out := rfl
@[simp] theorem State.microPasses_fresh (s : State) : (s.microPasses).fresh = s.fresh := rfl
@[simp] theorem State.microPasses_nextId (s : State) : (s.microPasses).nextId = s.nextId := rfl
@[simp] theorem State.microPasses_clock (s : State) : (s.microPasses).clock = s.clock := rfl
@[simp] theorem State.microPasses_regimes (s : State) : (s.microPasses).regimes = s.regimes := rfl
@[simp] theorem State.microPasses_top (s : State) : (s.microPasses).top = s.top := rfl
@[simp] theorem State.microPasses_cs (s : State) : (s.microPasses).cs = s.cs := rfl
@[simp] theorem State.microPasses_qs (s : State) : (s.microPasses).qs = s.qs := rfl
@[simp] theorem State.microPasses_dma (s : State) : (s.microPasses).dma = s.dma := rfl
@[simp] theorem State.microPasses_sorter (s : State) : (s.microPasses).sorter = s.sorter := rfl
@[simp] theorem State.microPasses_reg (s : State) : (s.microPasses).reg = s.reg := rfl
@[simp] theorem State.microPasses_stats (s : State) : (s.microPasses).stats = s.stats := rfl
@[simp] theorem State.microPasses_time (s : State) : (s.microPasses).time = s.time := rfl
@[simp] theorem State.microPasses_sec (s : State) : (s.microPasses).sec = s.sec := rfl
@[simp] theorem State.microPasses_guards (s : State) : (s.microPasses).guards = s.guards := rfl
@[simp] theorem State.microPasses_guardQueue (s : State) : (s.microPasses).guardQueue = s.guardQueue := rfl
@[simp] theorem State.microPasses_ports (s : State) : (s.microPasses).ports = s.ports := rfl
@[simp] theorem State.microPasses_lanes (s : State) : (s.microPasses).lanes = s.lanes := rfl
@[simp] theorem State.microPasses_frames (s : State) : (s.microPasses).frames = s.frames := rfl
@[simp] theorem State.microPasses_power (s : State) : (s.microPasses).power = s.power := rfl
@[simp] theorem State.microPasses_casc (s : State) : (s.microPasses).casc = s.casc := rfl
@[simp] theorem State.microPasses_mon (s : State) : (s.microPasses).mon = s.mon := rfl

/-! ### What is read after a write -/

theorem State.port_setPort_ne (s : State) (i j : Nat) (v : Port) (h : j ≠ i) : (s.setPort i v).port j = s.port j :=
  Tab.get_put_ne _ _ _ _ _ h
theorem State.port_setPort (s : State) (i : Nat) (v : Port) (h : v ≠ {}) : (s.setPort i v).port i = v :=
  Tab.get_put_of_ne _ _ _ _ h
theorem State.port_setPort_of_wf (s : State) (i : Nat) (v : Port) (h : Tab.wf {} s.ports = true) : (s.setPort i v).port i = v :=
  Tab.get_put _ _ _ _ h
theorem State.lane_setLane_ne (s : State) (i j : Nat) (v : Lane) (h : j ≠ i) : (s.setLane i v).lane j = s.lane j :=
  Tab.get_put_ne _ _ _ _ _ h
theorem State.lane_setLane (s : State) (i : Nat) (v : Lane) (h : v ≠ {}) : (s.setLane i v).lane i = v :=
  Tab.get_put_of_ne _ _ _ _ h
theorem State.lane_setLane_of_wf (s : State) (i : Nat) (v : Lane) (h : Tab.wf {} s.lanes = true) : (s.setLane i v).lane i = v :=
  Tab.get_put _ _ _ _ h
theorem State.queue_setQueueOpt_ne (s : State) (i j : Nat) (v : Option Queue) (h : j ≠ i) : (s.setQueueOpt i v).queue j = s.queue j :=
  Tab.get_put_ne _ _ _ _ _ h
theorem State.queue_setQueueOpt (s : State) (i : Nat) (v : Option Queue) (h : v ≠ none) : (s.setQueueOpt i v).queue i = v :=
  Tab.get_put_of_ne _ _ _ _ h
theorem State.queue_setQueueOpt_of_wf (s : State) (i : Nat) (v : Option Queue) (h : Tab.wf none s.qs.tab = true) : (s.setQueueOpt i v).queue i = v :=
  Tab.get_put _ _ _ _ h
theorem State.doorbell_setDoorbell_ne (s : State) (i j : Nat) (v : RIdx) (h : j ≠ i) : (s.setDoorbell i v).doorbell j = s.doorbell j :=
  Tab.get_put_ne _ _ _ _ _ h
theorem State.doorbell_setDoorbell (s : State) (i : Nat) (v : RIdx) (h : v ≠ 0) : (s.setDoorbell i v).doorbell i = v :=
  Tab.get_put_of_ne _ _ _ _ h
theorem State.doorbell_setDoorbell_of_wf (s : State) (i : Nat) (v : RIdx) (h : Tab.wf 0 s.qs.doorbells = true) : (s.setDoorbell i v).doorbell i = v :=
  Tab.get_put _ _ _ _ h
theorem State.vector_setVector_ne (s : State) (i j : Nat) (v : Vector97) (h : j ≠ i) : (s.setVector i v).vector j = s.vector j :=
  Tab.get_put_ne _ _ _ _ _ h
theorem State.vector_setVector (s : State) (i : Nat) (v : Vector97) (h : v ≠ {}) : (s.setVector i v).vector i = v :=
  Tab.get_put_of_ne _ _ _ _ h
theorem State.vector_setVector_of_wf (s : State) (i : Nat) (v : Vector97) (h : Tab.wf {} s.qs.vectors = true) : (s.setVector i v).vector i = v :=
  Tab.get_put _ _ _ _ h
theorem State.chan_setChan_ne (s : State) (i j : Nat) (v : Chan) (h : j ≠ i) : (s.setChan i v).chan j = s.chan j :=
  Tab.get_put_ne _ _ _ _ _ h
theorem State.chan_setChan (s : State) (i : Nat) (v : Chan) (h : v ≠ {}) : (s.setChan i v).chan i = v :=
  Tab.get_put_of_ne _ _ _ _ h
theorem State.chan_setChan_of_wf (s : State) (i : Nat) (v : Chan) (h : Tab.wf {} s.dma.chans = true) : (s.setChan i v).chan i = v :=
  Tab.get_put _ _ _ _ h
theorem State.sliceL_setSliceL_ne (s : State) (i j : Nat) (v : SliceL) (h : j ≠ i) : (s.setSliceL i v).sliceL j = s.sliceL j :=
  Tab.get_put_ne _ _ _ _ _ h
theorem State.sliceL_setSliceL (s : State) (i : Nat) (v : SliceL) (h : v ≠ {}) : (s.setSliceL i v).sliceL i = v :=
  Tab.get_put_of_ne _ _ _ _ h
theorem State.sliceL_setSliceL_of_wf (s : State) (i : Nat) (v : SliceL) (h : Tab.wf {} s.sorter.logical = true) : (s.setSliceL i v).sliceL i = v :=
  Tab.get_put _ _ _ _ h
theorem State.sliceP_setSliceP_ne (s : State) (i j : Nat) (v : SliceP) (h : j ≠ i) : (s.setSliceP i v).sliceP j = s.sliceP j :=
  Tab.get_put_ne _ _ _ _ _ h
theorem State.sliceP_setSliceP (s : State) (i : Nat) (v : SliceP) (h : v ≠ {}) : (s.setSliceP i v).sliceP i = v :=
  Tab.get_put_of_ne _ _ _ _ h
theorem State.sliceP_setSliceP_of_wf (s : State) (i : Nat) (v : SliceP) (h : Tab.wf {} s.sorter.physical = true) : (s.setSliceP i v).sliceP i = v :=
  Tab.get_put _ _ _ _ h
theorem State.secPort_setSecPort_ne (s : State) (i j : Nat) (v : SecPort) (h : j ≠ i) : (s.setSecPort i v).secPort j = s.secPort j :=
  Tab.get_put_ne _ _ _ _ _ h
theorem State.secPort_setSecPort (s : State) (i : Nat) (v : SecPort) (h : v ≠ {}) : (s.setSecPort i v).secPort i = v :=
  Tab.get_put_of_ne _ _ _ _ h
theorem State.secPort_setSecPort_of_wf (s : State) (i : Nat) (v : SecPort) (h : Tab.wf {} s.sec.ports = true) : (s.setSecPort i v).secPort i = v :=
  Tab.get_put _ _ _ _ h
theorem State.keySlot_setKeySlot_ne (s : State) (i j : Nat) (v : KeySlot) (h : j ≠ i) : (s.setKeySlot i v).keySlot j = s.keySlot j :=
  Tab.get_put_ne _ _ _ _ _ h
theorem State.keySlot_setKeySlot (s : State) (i : Nat) (v : KeySlot) (h : v ≠ {}) : (s.setKeySlot i v).keySlot i = v :=
  Tab.get_put_of_ne _ _ _ _ h
theorem State.keySlot_setKeySlot_of_wf (s : State) (i : Nat) (v : KeySlot) (h : Tab.wf {} s.sec.slots = true) : (s.setKeySlot i v).keySlot i = v :=
  Tab.get_put _ _ _ _ h
theorem State.guardPort_setGuardPort_ne (s : State) (i j : Nat) (v : GuardPort) (h : j ≠ i) : (s.setGuardPort i v).guardPort j = s.guardPort j :=
  Tab.get_put_ne _ _ _ _ _ h
theorem State.guardPort_setGuardPort (s : State) (i : Nat) (v : GuardPort) (h : v ≠ {}) : (s.setGuardPort i v).guardPort i = v :=
  Tab.get_put_of_ne _ _ _ _ h
theorem State.guardPort_setGuardPort_of_wf (s : State) (i : Nat) (v : GuardPort) (h : Tab.wf {} s.guards.ports = true) : (s.setGuardPort i v).guardPort i = v :=
  Tab.get_put _ _ _ _ h
theorem State.dom_setDom_ne (s : State) (i j : Nat) (v : Domain) (h : j ≠ i) : (s.setDom i v).dom j = s.dom j :=
  Tab.get_put_ne _ _ _ _ _ h
theorem State.dom_setDom (s : State) (i : Nat) (v : Domain) (h : v ≠ {}) : (s.setDom i v).dom i = v :=
  Tab.get_put_of_ne _ _ _ _ h
theorem State.dom_setDom_of_wf (s : State) (i : Nat) (v : Domain) (h : Tab.wf {} s.power.doms = true) : (s.setDom i v).dom i = v :=
  Tab.get_put _ _ _ _ h
theorem State.queue_setQueue (s : State) (i : Nat) (v : Queue) : (s.setQueue i v).queue i = some v :=
  State.queue_setQueueOpt s i (some v) (by simp)
theorem State.queue_setQueue_ne (s : State) (i j : Nat) (v : Queue) (h : j ≠ i) : (s.setQueue i v).queue j = s.queue j :=
  State.queue_setQueueOpt_ne s i j (some v) h

/-- The entry of an identifier after its update. -/
theorem State.entry_updEntry (s : State) (id : Nat) (f : JEntry → JEntry) (h : ∀ e, (f e).id = e.id) :
    (s.updEntry id f).entry id = (s.entry id).map f := by
  unfold State.updEntry State.entry
  exact find?_updFirst _ _ _ fun e he => by simpa [h e] using he

end Machine
end Sys2Proof
end

