-- ==== Sys2Proof/Machine/Pins.lean ====
section
/-! DEFINITION. The levels of the block's level outputs, as functions of the state (R451, R454, R458, R462, R464, R481, R483 to R486). An
output that carries data or a pulse is an item of `State.out`. -/

namespace Sys2Proof
namespace Machine

/-- PW_RAIL_REQ of domain d: from the start of its rail-up step until cycle 7 of its entry (R484). -/
def State.railReqPin (s : State) (d : Nat) : Bool :=
  match (s.dom d).st with
  | .on => true
  | .restoring _ _ => true
  | .entering c _ => decide (c < 6)
  | _ => false

/-- PW_LOWPWR (R483). -/
def State.lowPwrPin (s : State) : Bool := s.lowPowerMode

/-- PW_CAP_FAIL follows `power.status` cap_unattainable (R485). -/
def State.capFailPin (s : State) : Bool := s.power.capFail

/-- MG_INT_N, active low: the level interrupt, which AON drives (R99, R481). -/
def State.intPinN (s : State) : Bool := !s.intPin

/-- MG_SCL is held low (R374, R481). -/
def State.sclLow (s : State) : Bool := s.power.sclHeld

/-- PB_CLK runs with the core PLL (R380, R454). -/
def State.pbClkPin (s : State) : Bool := s.power.corePll

/-- PB_RST (R464). -/
def State.pbRstPin (s : State) : Bool := s.pbReset

/-- PB_TX_RDY of port p: low in reset and while a slice that carries the port sleeps (R451), otherwise as R462 states. -/
def State.txRdyPin (s : State) (p : Nat) : Bool := !s.pbReset && s.portOn p && s.txReady p

/-- TM_PPS_OUT (R265). -/
def State.ppsPin (s : State) : Bool := s.time.ppsOut

end Machine
end Sys2Proof
end

