-- ==== Sys2Proof/Tests/Slice0.lean ====
section
/-! SUPPORT. Tests: terms the well-formedness check refuses, values worked out from the spec, and for each statement a concrete
state and operands that meet its hypotheses, clause by clause. -/

namespace Sys2Proof
namespace Tests

set_option Elab.async false

open Machine

/-! ### The small states -/

/-- Every domain is on, in mode `m`, after the bring-up. -/
def live (m : Mode) : State :=
  { top := { mode := m, ready := true }
    power := { doms := (List.range 24).map fun d => (d + 1, { st := .on, railGood := true }), corePll := true }
    time := { state := .free }
    qs := { tab := [(0, some { kind := .admin, cq := 1, size := 4, maxOut := 16 }), (1, some { kind := .completion, size := 4 })] } }

/-- The journal entry of queue 0 with this opcode and these operands. -/
def jent (op : Byte) (i : Ins) : JEntry := { op := op, ins := i }

/-- `s` with one accepted instruction of queue 0. -/
def State0 (s : State) (op : Byte) (i : Ins) : State := { s with nextId := 1, pm := { s.pm with journal := [jent op i] } }

/-- In `t` the instruction of the entry starts and passes the checks, and `h` holds of the state in which it runs. -/
def shownAt (t : State) (op : Byte) (i : Ins) (h : State → Bool) : Bool :=
  let b := t.begun (jent op i)
  decide (t.startable 0 = some (jent op i)) && decide (preCheck b op 0 i = none) && h b

/-- The same of `s` with the instruction accepted. -/
def shown (s : State) (op : Byte) (i : Ins) (h : State → Bool) : Bool := shownAt (State0 s op i) op i h

/-- What `shown` shows. -/
theorem shown_starts {s : State} {op : Byte} {i : Ins} {h : State → Bool} (w : shown s op i h = true) :
    (State0 s op i).starts 0 op i (jent op i) ∧ h ((State0 s op i).begun (jent op i)) = true := by
  simp only [shown, shownAt, Bool.and_eq_true, decide_eq_true_eq] at w
  exact ⟨⟨w.1.1, rfl, rfl, w.1.2⟩, w.2⟩

/-- The first half of the context of a CMD queue: ring of 16 entries at 0x1000, completions to queue 1, 4 outstanding. -/
def ctxCmd0 : QWord := 0x1000 ||| (1 <<< 57) ||| (4 <<< 60) ||| (1 <<< 64) ||| (4 <<< 96)

/-- A QCREATE or QMODIFY with that context and a head write-back at 0x2000. -/
def ctxIns (t : BitVec 16) : Ins := { target := t, ext := 2, e0 := ctxCmd0, e1 := 0x2000 }

/-- A control store whose tag names base 1. -/
def loaded : Tab QWord := Tab.put 0 [] 0x1FFF (0x01000000 : QWord)

/-- The outcome is a next state. -/
def answers (o : Host.Outcome State Fault Refusal) : Bool := match o with | .next _ => true | _ => false

/-- A channel whose next instruction, as its line was read, is `w` with opcode `op` (R314). -/
def atIns (op : BitVec 4) (w : ChIns) (x : Chan := {}) : Chan :=
  { x with st := .running, line := some (leBytes 64 (op.toNat <<< 124 + w.flags.toNat <<< 120 + w.x.toNat <<< 88 + w.y.toNat <<< 64
      + w.addr.toNat)) }

/-- The parameter of a word meets `h`. -/
def word (b : State) (a : Nat) (h : PDesc → Bool) : Bool := match describe b a with | some d => h d | none => false

/-- SET's mask `m` names bits of the word that can be written, and the value `v` is in range. -/
def allowed (b : State) (a : Nat) (m v : Word) (d : PDesc) : Bool :=
  !d.barred && decide (m &&& ~~~ (wordBits d.rw (a - d.base) ||| wordBits d.w1c (a - d.base)) = 0) && d.valid (d.candidate b (a - d.base) m v)

/-- `live` with a clock on which every time of the tests has passed. -/
def late (m : Mode) : State := { live m with clock := 1000000000000000 }

/-- The marker of an Ennos lane (R110). -/
def marker (mode : Byte) (lane : BitVec 3) (seq : Byte) : Marker := { block := markerBlock mode lane 0 seq false }

/-- `s` bound to a twin that its cascade reaches. -/
def bound (s : State) : State := { s with casc := { twin := .bound, partner := 1, present := 3, a := { up := true } } }

/-- The state in which the reception of a frame on port 3 is judged, with the MAC as `y` has it (`Obligations.FrameReception`). -/
def arrives (s : State) (f : RxFrame) (y : Port) : State :=
  let d := y.deal 3 f.preempt
  let t := ((s.setPort 3 d.2).arrived d.1 3 f.preempt).count 3 0x084 (if f.preempt then f.fragments.length - 1 else 0)
  if reasmErr f then t.event 3 0x086 else t

/-- A frame with its frame check sequence (R6). -/
def sealed (b : List Byte) : List Byte := b ++ leBytes 4 (crc32 b).toNat


/-! ### Ill-formed commands are refused -/

theorem test_wf_refuses_channel : (Instr.move 28 {}).wf = false := by decide
theorem test_wf_refuses_channel_fill : (Instr.fill 31 {}).wf = false := by decide
theorem test_wf_refuses_channel_compare : (Instr.compare 28 {}).wf = false := by decide
theorem test_wf_refuses_channel_loop : (Instr.loop 28 {}).wf = false := by decide
theorem test_wf_refuses_channel_wait : (Instr.wait 28 {}).wf = false := by decide
theorem test_wf_refuses_channel_wait_ends : (Instr.dmaWaitTimeout 28).wf = false := by decide
theorem test_wf_refuses_channel_wait_time_ends : (Instr.dmaWaitTimeEnd 28).wf = false := by decide
theorem test_wf_refuses_channel_signal : (Instr.dmaSignal 28 {}).wf = false := by decide
theorem test_wf_refuses_channel_link : (Instr.link 28 {}).wf = false := by decide
theorem test_wf_refuses_channel_nop : (Instr.dmaNop 28 8 {}).wf = false := by decide
theorem test_wf_refuses_nop_opcode : (Instr.dmaNop 0 7 {}).wf = false := by decide
theorem test_wf_refuses_channel_end : (Instr.endProg 28 {}).wf = false := by decide
theorem test_wf_refuses_channel_reread : (Instr.endReread 28 true 0).wf = false := by decide
theorem test_wf_refuses_channel_idle : (Instr.dmaIdleCheck 28).wf = false := by decide
theorem test_wf_refuses_table_slice : (Instr.tableWindowRead .window 17).wf = false := by decide
theorem test_wf_refuses_response_data : (Instr.masterResponse 0 false (List.replicate 65 0)).wf = false := by decide
theorem test_wf_refuses_lane : (Instr.frameReceive 0 { lane := 8 }).wf = false := by decide
theorem test_wf_refuses_pause_lane : (Instr.pauseFrameReceive 0 { lane := 8 }).wf = false := by decide
theorem test_wf_refuses_parity_word : (Instr.parse 0 [65536]).wf = false := by decide
theorem test_wf_refuses_entry : (Instr.sweepStep [16777216]).wf = false := by decide
theorem test_wf_refuses_inject_length : (Instr.injectFetch 0 true (List.replicate 16381 0)).wf = false := by decide +kernel
theorem test_wf_refuses_guard : (Instr.guardRefusalReport 0 7).wf = false := by decide
theorem test_wf_refuses_collective : (Instr.collectiveTimeout 0x41).wf = false := by decide
theorem test_wf_refuses_overlay_word : (Instr.csParityReload true 1 0 false 0).wf = false := by decide
theorem test_wf_refuses_slice : (Instr.sliceFault 17 1 0 false).wf = false := by decide
theorem test_wf_refuses_fault_kind_low : (Instr.sliceFault 0 0 0 false).wf = false := by decide
theorem test_wf_refuses_fault_kind_high : (Instr.sliceFault 0 9 0 false).wf = false := by decide
theorem test_wf_refuses_wake_low : (Instr.wake 0 0).wf = false := by decide
theorem test_wf_refuses_wake_high : (Instr.wake 7 0).wf = false := by decide
theorem test_wf_refuses_restore_aon : (Instr.domainRestoreStep 0).wf = false := by decide
theorem test_wf_refuses_restore_high : (Instr.domainRestoreStep 25).wf = false := by decide
theorem test_wf_refuses_entry_aon : (Instr.domainEntry 0).wf = false := by decide
theorem test_wf_refuses_entry_high : (Instr.domainEntry 25).wf = false := by decide
theorem test_wf_refuses_rail_aon : (Instr.railGood 0).wf = false := by decide
theorem test_wf_refuses_rail_high : (Instr.railGood 25).wf = false := by decide
theorem test_wf_refuses_predictions : (Instr.capEvaluation { pairPower := [[]] }).wf = false := by decide
theorem test_wf_refuses_hint : (Instr.hintExpire 8).wf = false := by decide
theorem test_wf_takes_the_last_of_each : ([Instr.move 27 {}, .dmaNop 27 15 {}, .tableWindowRead .window 16, .masterResponse 0 false (List.replicate 64 0), .frameReceive 63 { lane := 7 }, .parse 15 [65535], .sweepStep [16777215], .injectFetch 4095 true (List.replicate 16380 0), .guardRefusalReport 63 8, .collectiveTimeout 0x31, .csParityReload true 0 8191 true 4095, .sliceFault 16 8 0 true, .wake 6 0, .domainEntry 24, .capEvaluation { pairPower := List.replicate 8 [] }, .hintExpire 7].all Instr.wf) = true := by decide +kernel


/-! ### Values from the spec -/

/-- R246, R263: one cycle is 1.25 ns, 0x50000000 units of 2^-30 ns. -/
theorem test_one_cycle : (match step (live .service) with | .next t => t.now30 | _ => 0) = 0x50000000 := by decide +kernel
/-- R498, R499, and R10's reads of an unmapped word. -/
theorem test_identity : (live .service).peek 0 = 0x454E0642 ∧ (live .service).peek 1 = 0x00020000 ∧ describe (live .service) 0x00FFFFFF = none := by
  decide +kernel
/-- The session of 14_startup_monitor: `peek 0x0600_0003` answers 0x0001_0002. -/
theorem test_peek_time_state : ({ live .maintenance with time := { state := .locked } } : State).peek 0x06000003 = 0x00010002 := by decide +kernel
/-- 04_lanes_ports_frames: while physical slice 4 carries logical slice 4, `port.state` of port 16 is at 0x1400_0101. -/
theorem test_port_state_address :
    ((live .service).setPort 16 { mode := 1, st := .up }).peek 0x14000101 ≠ (live .service).peek 0x14000101 ∧
      ((live .service).setPort 17 { mode := 1, st := .up }).peek 0x14000101 = (live .service).peek 0x14000101 := by decide +kernel
/-- R6: the FCS of the standard check string is that of IEEE 802.3. -/
theorem test_fcs : crc32 [0x31, 0x32, 0x33, 0x34, 0x35, 0x36, 0x37, 0x38, 0x39] = 0xCBF43926 := by decide +kernel
/-- The cipher of the MACsec suites (09; log entry 19) on the example of its standard (FIPS 197, appendix C.1). -/
theorem test_cipher : Gcm.cipher (Gcm.roundKeys (List.ofFn fun i : Fin 16 => (i.val : Byte))) (List.ofFn fun i : Fin 16 => (17 * i.val : Byte)) =
    [0x69, 0xC4, 0xE0, 0xD8, 0x6A, 0x7B, 0x04, 0x30, 0xD8, 0xCD, 0xB7, 0x80, 0x70, 0xB4, 0xC5, 0x5A] := by decide +kernel
/-- R77: indices run modulo 2N, here 32; from 31 the index 2 is 3 away; the phase of the first lap is 1, of the second 0. -/
theorem test_ring_wraps : ({} : Queue).dist 2 31 = 3 ∧ ({} : Queue).phase 15 = true ∧ ({} : Queue).phase 16 = false := by decide +kernel
/-- R26: NOP of queue 0 in SERVICE ends OK and, without C, leaves no journal entry. -/
theorem test_nop_ends : (match exec (.nop 0 {}) (State0 (live .service) 0x00 {}) with | .next t => t.pm.journal.length | _ => 1) = 0 := by decide +kernel
/-- R110, R112: the marker of logical lane 3 of a port in mode 0x0C with `am_seq` 0xFE is good, and reads back as sent. -/
theorem test_marker : (marker 0x0C 3 0xFE).isGood = true ∧ (marker 0x0C 3 0xFE).mode = 0x0C ∧ (marker 0x0C 3 0xFE).lane = 3 ∧
    (marker 0x0C 3 0xFE).seq = 0xFE ∧ bitOf (marker 0x0C 3 0xFE).block 0 = false := by decide +kernel
/-- R106: the generator polynomial of the FEC has degree 30 and the root 1. -/
theorem test_fec_generator : rsGenerator.length = 30 ∧ rsGenerator.foldl (· ^^^ ·) 1 = 0 := by decide +kernel
/-- R314: an instruction of zeros is END; SIGNAL's vector and data stand in Y and X. -/
theorem test_channel_instruction : (chIns 0).1 = 0 ∧ (chIns ((6 <<< 124) ||| (12 <<< 120) ||| (0xAB <<< 88) ||| (5 <<< 64) ||| 0x40)) =
    (6, { flags := 12, x := 0xAB, y := 5, addr := 0x40 }) := by decide +kernel
/-- R381: the effective cap is the lower of the two caps; CAPSET of 12,000 mW answers 12,000. -/
theorem test_capset : (match exec (.capset 0 { a := 12000, c := true }) (State0 (live .service) 0x83 { a := 12000, c := true }) with
    | .next t => (t.entry 0).bind (·.slot) | _ => none) = some ⟨.ok, 12000, 0⟩ := by decide +kernel
/-- R47: MODE_FORBIDS where the mode does not permit the opcode: GUARDLOCK in SERVICE. -/
theorem test_guardlock_in_service : (match exec (.guardlock 0 {}) (State0 (live .service) 0x63 {}) with
    | .next t => (t.guards.locked, ((t.entry 0).bind (·.slot)).map (·.status)) | _ => (true, none)) = (false, some .modeForbids) := by decide +kernel
/-- 05_pause_preemption_franking: a ceiling of 128 of 255 is 50 ms in 100 ms; the highest ceiling GUARDSET takes is 192. -/
theorem test_guard_ceiling : guardOk { a := 2, b := 192 } = true ∧ guardOk { a := 2, b := 193 } = false := by decide +kernel
/-- 06_sorter: with a depth of 128 bytes a window of 300 bytes is shallow, one of 90 is not. -/
theorem test_shallow : depthBytes 2 = 128 ∧ (({} : SliceL).classify 0 2 0 (List.replicate 314 0) false 0).cls.shallow = true ∧
    (({} : SliceL).classify 0 2 0 (List.replicate 104 0) false 0).cls.shallow = false := by decide +kernel
/-- R62: an instant of 5 s and 7 ns names that time of the present era. -/
theorem test_instant : (live .service).instant16 ((5 <<< 30) ||| 7) = 5 * 65536000000000 + 7 * 65536 := by decide +kernel
/-- R449 (log entry 8): a code that the configuration names as an internal scan instruction is refused on an open test access port. -/
theorem test_internal_scan_refused (h : Config.tapInternal 0x01 = true) :
    exec (.tapInstruction 0x01) { live .maintenance with mon := { tapOpen := true, dbgEn := true } } = .refused .internalScan := by
  have h' : Config.tapInternal 1#8 = true := h
  simp [exec, execTapInstruction, h']
/-- No row of the table gives bits: no word spells a command. -/
theorem test_no_word_spells_a_command : decodeTableWord 16 0x1234 = none ∧ (State.reset.withFetchWord 16 0x1234).pending = [] := by decide +kernel

/-! ### Witnesses: a state and operands that meet the hypotheses of each statement -/

theorem witness_EmptyQueueLetsTimePass :
    (live .service).pending = [] ∧ (live .service).timeRuns = true ∧ (live .service).time.sub < 1073741824000000000 := by decide +kernel
theorem witness_EveryStepTakesOneCommand : step { live .service with pending := [.heartbeat] } = exec .heartbeat (live .service) := rfl
theorem witness_LockedGuardsOutlastEveryStep :
    let s : State := { live .service with guards := { locked := true }, pending := [.holdoverTimeout] }
    s.guards.locked = true ∧ step s = .next { s with pending := [] } ∧
      ∀ c ∈ s.pending.head?, c ≠ .coldReset ∧ (∀ b l r, c ≠ .aonPowerUp b l r) ∧ ∀ b, c ≠ .brownOut b := by
  refine ⟨rfl, rfl, ?_⟩; simp
theorem witness_GuardTableStaysCanonical :
    Tab.wf {} (live .service).guards.ports = true ∧ step (live .service) = .next (live .service).idle := ⟨by decide +kernel, rfl⟩
theorem witness_FailedChecksEndTheStart :
    let s := State0 (live .cold) 0x00 {}
    let u := State0 (live .service) 0xB0 {}
    let v := State0 (live .service) 0x00 { ext := 3 }
    s.startable 0 = some (jent 0x00 {}) ∧ preCheck (s.begun (jent 0x00 {})) 0x00 0 {} = some .modeForbids ∧
      dispatchOk (s.begun (jent 0x00 {})) 0x00 0 = true ∧ extOk (s.begun (jent 0x00 {})) 0x00 {} = true ∧ permits 0x00 {} .cold = false ∧
      u.startable 0 = some (jent 0xB0 {}) ∧ dispatchOk (u.begun (jent 0xB0 {})) 0xB0 0 = false ∧
      v.startable 0 = some (jent 0x00 { ext := 3 }) ∧ dispatchOk (v.begun (jent 0x00 { ext := 3 })) 0x00 0 = true ∧
      extOk (v.begun (jent 0x00 { ext := 3 })) 0x00 { ext := 3 } = false := by decide +kernel
theorem witness_EndOfAnInstruction :
    let e := jent 0x00 {}
    let c := jent 0x00 { c := true }
    (State0 (live .service) 0x00 {}).entry e.id = some e ∧ e.queue ≠ 0xFFFF ∧ (live .service).mirrors = false ∧ e.rolled = false ∧
      e.ins.c = false ∧ (State0 (live .service) 0x00 { c := true }).entry c.id = some c ∧ c.ins.c = true ∧ c.rolled = false := by decide +kernel
theorem witness_RollbackTurnsOkIntoRetried :
    let e := { jent 0x00 {} with rolled := true }
    let s : State := { live .service with pm := { journal := [e] } }
    s.entry e.id = some e ∧ e.rolled = true ∧ e.queue ≠ 0xFFFF ∧ s.mirrors = false ∧
    let e := jent 0x00 { c := true }
    let s := State0 (live .service) 0x00 { c := true }
    s.entry e.id = some e ∧ e.rolled = false ∧ e.ins.c = true ∧ e.queue ≠ 0xFFFF ∧ s.mirrors = false := by decide +kernel
theorem witness_NopHintAndCap :
    shown (live .service) 0x00 {} (fun _ => true) = true ∧
    shown (live .service) 0x82 { a := 0x00100001, b := 10000000 } (fun b => decide (b.power.hints.length < 8)) = true ∧
    shown (live .service) 0x82 { a := 0x00100005, b := 1 } (fun b => decide (b.power.hints.length < 8)) = true ∧
    shown (live .service) 0x82 { a := 0 } (fun _ => true) = true ∧
    shown (live .service) 0x83 { a := 12000 } (fun _ => true) = true ∧
    shown (live .service) 0x83 { a := 46000 } (fun _ => true) = true := by decide +kernel
theorem witness_SetAndGetParameters :
    shown (live .service) 0x01 { a := 0x00FFFFFF } (fun b => (describe b 0x00FFFFFF).isNone) = true ∧
    shown (live .service) 0x01 { a := 0x36 } (fun b => word b 0x36 (·.barred)) = true ∧
    shown (live .service) 0x01 { a := 0x06000000, b := 0x0000000100000000 } (fun b => word b 0x06000000 fun d =>
      decide ((1 : Word) &&& ~~~ (wordBits d.rw 0 ||| wordBits d.w1c 0) ≠ 0)) = true ∧
    shown ((live .service).setDom dREG {}) 0x01 { a := 0x05000007, b := 0x0000FFFF00000001 } (fun b =>
      word b 0x05000007 (allowed b 0x05000007 0xFFFF 1) && !b.regionOn 0x05000007) = true ∧
    shown (live .service) 0x01 { a := 0x06000005, b := 0x0000FFFF00000001 } (fun b => b.regionOn 0x06000005 &&
      word b 0x06000005 fun d => allowed b 0x06000005 0xFFFF 1 d && d.w1c == 0 && d.words == 1) = true ∧
    shown (live .service) 0x01 { a := 0x06000005, b := 0x0000000000000001 } (fun b => b.regionOn 0x06000005 &&
      word b 0x06000005 (allowed b 0x06000005 0 1)) = true ∧
    shown (live .service) 0x01 { a := 0x06000010, b := 0xFFFFFFFF00000001 } (fun b => b.regionOn 0x06000010 &&
      word b 0x06000010 fun d => allowed b 0x06000010 0xFFFFFFFF 1 d && d.w1c == 0 && d.words != 1 && d.base == 0x06000010) = true ∧
    shown ({ live .service with dma := { staged := [(0x06000010, 7)] } }) 0x01 { a := 0x06000011, b := 0xFFFFFFFF00000000 } (fun b =>
      b.regionOn 0x06000011 && (b.dma.staged.find? fun kv => kv.1 == 0x06000010) == some (0x06000010, 7) &&
      word b 0x06000011 fun d => allowed b 0x06000011 0xFFFFFFFF 0 d && d.w1c == 0 && d.words != 1 && d.base == 0x06000010) = true ∧
    shown (live .service) 0x02 { a := 0x00FFFFFF } (fun b => (describe b 0x00FFFFFF).isNone) = true ∧
    shown ((live .service).setDom dREG {}) 0x02 { a := 0x05000004 } (fun b => word b 0x05000004 (fun _ => true) && !b.regionOn 0x05000004) = true ∧
    shown ((live .service).setDom dREG {}) 0x02 { a := 0x05000004, target := 1 } (fun b => word b 0x05000004 (fun _ => true) &&
      (describe b 0x05000005).isSome && !b.regionOn 0x05000005) = true ∧
    shown (live .service) 0x02 { a := 0x06000004 } (fun b => word b 0x06000004 (·.words == 1) && b.regionOn 0x06000004) = true ∧
    shown (live .service) 0x02 { a := 0x05000010, target := 1 } (fun b => word b 0x05000010 (fun _ => true) && (describe b 0x05000011).isNone) = true ∧
    shown (live .service) 0x02 { a := 0x06000010, target := 1 } (fun b => b.regionOn 0x06000010 && b.regionOn 0x06000011 &&
      word b 0x06000010 (fun d => d.words != 1 && d.base == 0x06000010) && word b 0x06000011 (·.base == 0x06000010)) = true ∧
    shown (live .service) 0x02 { a := 0x06000007, target := 1 } (fun b => b.regionOn 0x06000007 && b.regionOn 0x06000008 &&
      (describe b 0x06000008).isSome && word b 0x06000007 fun d =>
        (describe (b.readMapped .postmaster d 0x06000007).2 0x06000008).isSome) = true := by decide +kernel
theorem witness_SetAndGetParameters_one_parameter : describe (live .service) 0x06000011 = describe (live .service) 0x06000010 := rfl
theorem witness_TestsOfAWord :
    let v (i : Ins) (b : State) : Bool := match describe b 0x06000004 with
      | some d => b.regionOn 0x06000004 && testHolds i (b.readMapped .postmaster d 0x06000004).1 | none => false
    let holds : Ins := { a := 0x06000004, b := 0xFFFFFFFF50000000 }
    let fails : Ins := { a := 0x06000004, b := 0xFFFFFFFF00000000 }
    shown (live .service) 0x05 holds (v holds) = true ∧
    shown (live .service) 0x05 fails (fun b => (describe b 0x06000004).isSome && b.regionOn 0x06000004 && !v fails b) = true ∧
    shown (live .service) 0x06 { holds with target := 255 } (v { holds with target := 255 }) = true ∧
    shown (live .service) 0x06 { fails with target := 1 } (fun b => (describe b 0x06000004).isSome && b.regionOn 0x06000004 && !v { fails with target := 1 } b) = true := by decide +kernel
theorem witness_FenceAndSignal :
    shown (live .service) 0x04 {} (fun b => b.fenceConditions 0 0 0 (b.fenceMarks 0).1 (b.fenceMarks 0).2 0) = true ∧
    shown (live .service) 0x04 { a := 4, target := 15 } (fun b => b.sliceOn 15 && b.fenceConditions 4 0 15 [] [] 0) = true ∧
    shown ({ live .service with sorter := { logical := [(3, { draining := true })] } }) 0x04 { a := 4, target := 0xFFFF } (fun b => !b.fenceConditions 4 0 0xFFFF (b.fenceMarks 4).1 (b.fenceMarks 4).2 0) = true ∧
    shown ({ live .service with casc := { a := { up := true }, present := 3, serving := 3 } }) 0x04 { s := true } (fun b => ((b.issueColl 0 0 0x04 0 0 0 false).readiness.issuedEnd 0).isNone) = true ∧
    shown (live .service) 0x07 { target := 2047 } (fun b => signalOk { target := 2047 } && !(State.postAll b.pm.journal.length 0 b).postingNow 0) = true ∧
    shown (live .service) 0x07 { target := 0xFFFF, ext := 1, e0 := 0x1000 } (fun _ => signalOk { target := 0xFFFF, ext := 1, e0 := 0x1000 }) = true ∧
    shownAt (let s := State0 (live .service) 0x07 { target := 2047 }
      { s with pm := { s.pm with journal := { id := 7, st := .completed, slot := some ⟨.ok, 0, 0⟩ } :: s.pm.journal } })
      0x07 { target := 2047 } (fun b => (State.postAll b.pm.journal.length 0 b).postingNow 0) = true := by decide +kernel
theorem witness_QueueAdministration :
    shown (live .service) 0x10 (ctxIns 4095) (fun b => match ctxOf (ctxIns 4095) with | some x => b.ctxOk 4095 x && (b.queue 4095).isNone | none => false) = true ∧
    shown (live .service) 0x10 (ctxIns 0) (fun _ => (ctxOf (ctxIns 0)).isSome) = true ∧
    shown ((live .service).setQueue 5 {}) 0x10 (ctxIns 5) (fun b => (ctxOf (ctxIns 5)).isSome && (b.queue 5).isSome) = true ∧
    shown ((live .service).setQueue 9 { kind := .completion }) 0x11 { target := 9 } (fun b => match b.queue 9 with
      | some x => !x.closing && !b.named 9 x && x.kind == .completion && !(b.setQueue 9 { x with closing := true, skip := 0, stopped := x.stopped && !x.submits }).unfinished 9 { x with closing := true, skip := 0, stopped := x.stopped && !x.submits } false
      | none => false) = true ∧
    shown ((live .service).setQueue 4095 { kind := .record, cq := 1, size := 4 }) 0x11 { target := 4095 } (fun b => match b.queue 4095 with
      | some x => !x.closing && !b.named 4095 x && x.kind != .completion && !(b.setQueue 4095 { x with closing := true, skip := 0, stopped := x.stopped && !x.submits }).unfinished 4095 { x with closing := true, skip := 0, stopped := x.stopped && !x.submits } false
      | none => false) = true ∧
    shown ((live .service).setQueue 2 { kind := .record, cq := 1, size := 4, inflight := [(0, {})] }) 0x11 { target := 2 } (fun b => match b.queue 2 with
      | some x => !x.closing && !b.named 2 x && (b.setQueue 2 { x with closing := true, skip := 0, stopped := x.stopped && !x.submits }).unfinished 2 { x with closing := true, skip := 0, stopped := x.stopped && !x.submits } false
      | none => false) = true ∧
    shown (live .service) 0x11 { target := 2 } (fun b => (b.queue 2).isNone) = true ∧
    shown (live .service) 0x11 { target := 1 } (fun b => (b.queue 1).isSome) = true ∧
    (((live .service).setQueue 4095 { kind := .record }).queue 4095).map (·.notice) = some none ∧
    shown ((live .service).setQueue 5 { kind := .cmd, base := 0x1000, size := 4, cq := 1, maxOut := 4, headWb := 0x2000, modCount := 0 }) 0x12 (ctxIns 5) (fun b => match b.queue 5, ctxOf (ctxIns 5) with | some x, some y => b.ctxOk 5 y && sameFixed x y && !x.closing && y.poll == 0 | _, _ => false) = true ∧
    shown ((live .service).setQueue 2 { kind := .cmd, base := 0x1000, size := 4, cq := 1, maxOut := 4, headWb := 0x2000, modCount := 0 }) 0x12 { ctxIns 2 with e0 := ctxCmd0 ||| (1 <<< 88) } (fun b => match b.queue 2, ctxOf { ctxIns 2 with e0 := ctxCmd0 ||| (1 <<< 88) } with | some x, some y => b.ctxOk 2 y && sameFixed x y && !x.closing && y.poll != 0 | _, _ => false) = true := by decide +kernel
theorem witness_ModeTransitions :
    shown (let s := live .cold; { s with top := { s.top with ready := true } }) 0x18 { a := 1 } (fun b => b.top.mode == .cold && Mode.ofCode (fld (1 : Word) 0 4) == some .provision && !b.top.coldBar && b.top.ready) = true ∧
    shown ({ live .provision with cs := { verified := true, store := loaded } }) 0x18 { a := 2 } (fun b => b.top.mode == .provision && Mode.ofCode (fld (2 : Word) 0 4) == some .service && b.cs.vendorLoaded && b.cs.verified) = true ∧
    shown (live .service) 0x18 { a := 1 } (fun b => b.top.mode == .service && b.allDown) = true ∧
    shown ({ live .adopted with casc := { twin := .adopted } }) 0x18 { a := 2 } (fun b => b.top.mode == .adopted && b.pm.fit) = true := by decide +kernel
theorem witness_PortInstructions :
    shown (live .provision) 0x20 { target := 56, a := 0x0308, b := 16384 } (fun b => b.portcfgOk { target := 56, a := 0x0308, b := 16384 } && (slicesAt 56 8).all b.sliceOn) = true ∧
    shown (live .provision) 0x20 { target := 63, a := 1 } (fun b => b.portcfgOk { target := 63, a := 1 } && (slicesAt 63 1).all b.sliceOn) = true ∧
    shown ((live .service).setPort 3 { mode := 1, st := .up }) 0x21 { target := 3 } (fun b => b.portCheck { target := 3 } == none && (b.port 3).st == .up) = true ∧
    shown ((live .service).setPort 3 { mode := 1 }) 0x21 { target := 3 } (fun b => b.portCheck { target := 3 } == none && (b.port 3).st == .down) = true ∧
    shown ((live .service).setPort 3 { mode := 1 }) 0x21 { target := 3, a := 1 } (fun b => b.portCheck { target := 3 } == none && (b.port 3).st == .down) = true ∧
    shown ((live .service).setPort 3 { mode := 1 }) 0x22 { target := 3 } (fun b => b.portCheck { target := 3 } == none && (b.port 3).st == .down) = true ∧
    shown ((live .service).setPort 3 { mode := 1, st := .up }) 0x22 { target := 3 } (fun b => b.portCheck { target := 3 } == none && (b.port 3).st == .up) = true := by decide +kernel
theorem witness_SparingInstructions :
    shown (live .service) 0x23 { target := 15 } (fun b => !b.top.spareCarrying && !b.top.spareBusy && !(b.sliceP 16).testing && b.isOn (dSLICE 16) && b.sliceOn 15) = true ∧
    shown (let s := (live .service).setSliceP 15 { passed := true }; { s with top := { s.top with spareCarrying := true, spareLogical := 15 } }) 0x23 { target := 15, a := 1 } (fun b => b.top.spareCarrying && b.top.spareLogical == 15 && !b.top.spareBusy && (b.sliceP 15).passed && !(b.sliceP 15).testing && b.isOn (dSLICE 16) && b.isOn (dSLICE 15)) = true ∧
    shown (live .service) 0x24 { target := 16 } (fun b => (b.carried 16).isNone && !b.top.spareBusy && b.isOn (dSLICE 16)) = true ∧
    shown (live .service) 0x24 { target := 16, a := 7 } (fun b => (b.carried 16).isNone && !b.top.spareBusy && b.isOn (dSLICE 16) && fld (7 : Word) 0 3 != (0#3)) = true := by decide +kernel
theorem witness_InstructionsThatReadHostMemory :
    shown (live .service) 0x03 { a := 0x06000005, target := 4096, b := 0x1000 } (fun b => hostAddrOk 0x1000 4 && b.regionOn 0x06000005 && ((b.entry 0).bind (·.rd)).isNone) = true ∧
    shown (live .service) 0x30 { a := 0x01000000, target := 0xFFFF, b := 0x1000 } (fun b => rules.check { a := 0x01000000, target := 0xFFFF, b := 0x1000 } b == none && (b.tableSlices 0xFFFF).length == 16 && !(b.tableSlices 0xFFFF).any (fun k => (b.sliceL k).draining) && ((b.entry 0).bind (·.rd)).isNone) = true ∧
    shown (live .service) 0x30 { a := 0x00001FFF, target := 15, b := 0x1000 } (fun b => rules.check { a := 0x00001FFF, target := 15, b := 0x1000 } b == none && b.sliceOn 15 && !(b.sliceL 15).draining && ((b.entry 0).bind (·.rd)).isNone) = true ∧
    shown (live .service) 0x32 { a := 0x00003FFF, target := 15, b := 0x1000 } (fun b => bindings.check { a := 0x00003FFF, target := 15, b := 0x1000 } b == none && b.sliceOn 15 && ((b.entry 0).bind (·.rd)).isNone) = true ∧
    shown (live .service) 0x33 { a := 0x000003FF, target := 15, b := 0x1000 } (fun b => patterns.check { a := 0x000003FF, target := 15, b := 0x1000 } b == none && b.sliceOn 15 && ((b.entry 0).bind (·.rd)).isNone) = true ∧
    shown (live .provision) 0x90 { a := 0xFFFF0000, b := 0x1000 } (fun b => decide (loadFirst { a := 0xFFFF0000 } + loadCount { a := 0xFFFF0000 } ≤ 65536) && b.isOn dDMA && ((b.entry 0).bind (·.rd)).isNone) = true ∧
    shown (live .service) 0x60 { target := 63, a := 0x40, b := 0x1000 } (fun b => !(b.keySlot (keySlotOf { target := 63, a := 0x40 })).installed && !b.hasScratch 0 0 && ((b.entry 0).bind (·.rd)).isNone) = true := by decide +kernel
theorem witness_EpochAndSnapInstructions :
    shown (late .service) 0x31 { target := 15, b := 1 } (fun b => !b.epochBusy && !b.leadMet b.casc.lead.toNat 1) = true ∧
    shown ({ live .service with time := { state := .free, armedEpoch := some { instant := 0 } } }) 0x31 { target := 15, b := 1 } (fun b => b.sliceOn 15 && b.epochBusy) = true ∧
    shown (live .service) 0x31 { target := 15, b := 0x0000000500000000 } (fun b => b.sliceOn 15 && !b.epochBusy && b.leadMet b.casc.lead.toNat 0x0000000500000000) = true ∧
    shown (let s := (late .service).setQueue 7 { kind := .record }; { s with reg := { recordQueue := 7 } }) 0x40 { target := 0xFFFF, b := 1 } (fun b => b.isRecordQueue b.reg.recordQueue.toNat && !b.snapBusy && !b.leadMet b.casc.lead.toNat 1) = true ∧
    shown (let s := (live .service).setQueue 7 { kind := .record }; { s with reg := { recordQueue := 7 }, time := { state := .free, armedSnap := some { instant := 0 } } }) 0x40 { target := 0xFFFF, b := 1 } (fun b => b.isRecordQueue b.reg.recordQueue.toNat && b.isOn dREG && b.snapBusy) = true ∧
    shown (let s := (live .service).setQueue 7 { kind := .record }; { s with reg := { recordQueue := 7 } }) 0x40 { target := 0xFFFF, b := 0x0000000500000000 } (fun b => b.isRecordQueue b.reg.recordQueue.toNat && b.isOn dREG && !b.snapBusy && b.leadMet b.casc.lead.toNat 0x0000000500000000) = true := by decide +kernel
theorem witness_PairTableAndStatistics :
    shown ({ live .service with reg := { clearing := false } }) 0x41 { ext := 2, b := 0xFFFFFF } (fun b => pairwrOk { ext := 2, b := 0xFFFFFF } && b.isOn dREG && !b.reg.clearing) = true ∧
    shown ({ live .service with reg := { clearing := false } }) 0x41 { ext := 1, a := 0x10011 } (fun b => pairwrOk { a := 0x10011 } && pairwrCount { a := 0x10011 } == 4097 && b.isOn dREG && !b.reg.clearing) = true ∧
    shown ({ live .service with reg := { clearing := false } }) 0x41 { a := 0x10002, b := 0xFFF000 } (fun b => pairwrOk { a := 0x10002, b := 0xFFF000 } && pairwrCount { a := 0x10002 } == 4096 && b.isOn dREG && !b.reg.clearing) = true ∧
    shown (live .service) 0x42 { target := 63, b := 0x1000 } (fun b => ((b.entry 0).bind (·.rd)).isNone && b.isOn dREG && b.isOn dDMA) = true := by decide +kernel
theorem witness_TimeInstructions :
    shown (live .service) 0x50 { ext := 1, e0 := 0x3B9AC9FF0000 } (fun b => !b.time.follows && b.isOn dTIME && decide ((fld (0x3B9AC9FF0000 : QWord) 16 30 : BitVec 30).toNat = 999999999)) = true ∧
    shown ({ live .service with time := { state := .free, source := 1 } }) 0x51 { b := 0xFFFFFFFFFFFF0000 } (fun b => !b.time.follows && b.isOn dTIME && b.time.source == 1 && b.time.state != .unset) = true ∧
    shown ({ live .service with time := { state := .free, seconds := 5 } }) 0x52 { b := 0xFFFFFFFFFFFF0000 } (fun b => !b.time.follows && b.isOn dTIME && decide (0 ≤ (b.now30 : Int) + (0xFFFFFFFFFFFF0000 : DWord).toInt * 16384) && b.time.state == .free) = true ∧
    shown ({ live .service with time := { state := .locked } }) 0x52 { b := 0 } (fun b => !b.time.follows && b.isOn dTIME && decide (0 ≤ (b.now30 : Int) + (0 : DWord).toInt * 16384) && b.time.state == .locked) = true ∧
    shown ({ live .service with time := { state := .holdover } }) 0x52 { b := 0x7FFFFFFFFFFFFFFF } (fun b => !b.time.follows && b.isOn dTIME && decide ((b.now30 : Int) + (0x7FFFFFFFFFFFFFFF : DWord).toInt * 16384 < 2 ^ 48 * 1073741824000000000) && b.time.state == .holdover) = true := by decide +kernel
theorem witness_KeyRetireAndGuards :
    shown (live .service) 0x61 { target := 63 } (fun b => !(b.keySlot (keySlotOf { target := 63 })).installed) = true ∧
    shown ({ live .service with sec := { slots := [(keySlotOf { target := 63, a := 4 }, { installed := true })] } }) 0x61 { target := 63, a := 4 } (fun b => (b.keySlot (keySlotOf { target := 63, a := 4 })).installed && bitOf (4 : Word) 2) = true ∧
    shown (live .provision) 0x62 { target := 63, a := 2, b := 192 } (fun b => guardOk { a := 2, b := 192 } && !b.guards.locked) = true ∧
    shown ({ live .provision with guards := { locked := true } }) 0x62 { target := 0, a := 8 } (fun b => guardOk { a := 8 } && b.guards.locked) = true ∧
    shown (live .provision) 0x62 { target := 0xFFFF, a := 3, b := 0x271003E8 } (fun b => guardOk { a := 3, b := 0x271003E8 } && !b.guards.locked) = true ∧
    shown (live .provision) 0x63 {} (fun b => !b.guards.locked) = true ∧
    shown ({ live .provision with guards := { locked := true } }) 0x63 {} (fun b => b.guards.locked) = true := by decide +kernel
theorem witness_DmaChannelControl :
    shown (live .service) 0x70 { target := 27, b := 0x1000 } (fun b => b.isOn dDMA && (b.chan 27).isIdle) = true ∧
    shown (live .service) 0x70 { target := 0, a := 0x100, b := 0x1000 } (fun b => b.isOn dDMA && !(b.chan 0).armed && bitOf (0x100 : Word) 8) = true ∧
    shown ((live .service).setChan 27 { st := .waiting, armed := true }) 0x71 { target := 27 } (fun b => b.isOn dDMA && ((b.updChan 27 fun x => { x with armed := false }).chan 27).st == .waiting) = true ∧
    shown (live .service) 0x71 { target := 0 } (fun b => b.isOn dDMA && ((b.updChan 0 fun x => { x with armed := false }).chan 0).st == .idle) = true ∧
    shown ((live .service).setChan 1 { st := .halted }) 0x71 { target := 1 } (fun b => b.isOn dDMA && ((b.updChan 1 fun x => { x with armed := false }).chan 1).st == .halted) = true := by decide +kernel
theorem witness_VotesOnDomains :
    shown (live .service) 0x80 { target := 24 } (fun b => votedDomains { target := 24 } false == some [24] && ([24].find? b.fencedOff) == none && ((allDomains.filter fun d => bitOf (domainSet [24]) d).all ((b.placeVotes 0 (withRequired [24])).startRails).isOn)) = true ∧
    shown ((live .service).setDom 24 { st := .off }) 0x80 { target := 24 } (fun b => votedDomains { target := 24 } false == some [24] && ([24].find? b.fencedOff) == none && !((allDomains.filter fun d => bitOf (domainSet [24]) d).all ((b.placeVotes 0 (withRequired [24])).startRails).isOn)) = true ∧
    shown (live .service) 0x81 { target := 24 } (fun b => votedDomains { target := 24 } true == some [24] && b.requirementBroken 0 [24] == none && !b.allWouldSleep 0 [24]) = true ∧
    shown ({ live .service with power := { (live .service).power with votes := [(0, 0x1FFFFFE)] } }) 0x81 { target := BitVec.ofNat 16 dHOST } (fun b => votedDomains { target := BitVec.ofNat 16 dHOST } true == some [dHOST] && (b.requirementBroken 0 [dHOST]).isSome) = true := by decide +kernel
theorem witness_ControlStoreInstructions :
    shown (live .provision) 0x91 { a := 7 } (fun _ => !bitOf (7 : Word) 7) = true ∧
    shown (live .provision) 0x91 { a := 0x80 } (fun _ => bitOf (0x80 : Word) 7) = true ∧
    shown (live .provision) 0x92 {} (fun _ => true) = true := by decide +kernel
theorem witness_TwinAndHeadInstructions :
    shown ({ live .service with casc := { a := { up := true }, present := 0xFF }, reg := { region := 2 } }) 0xA0 { target := 1 } (fun b => decide ((1 : BitVec 16).toNat = (twinOf b.casc.self).toNat) && b.twinFit && b.ringUp && bitOf b.casc.present (twinOf b.casc.self).toNat && b.isOn dREG) = true ∧
    shown (live .service) 0xA1 {} (fun b => b.casc.twin != .serving && b.casc.twin != .adopted) = true ∧
    shown ({ live .service with casc := { a := { up := true }, present := 0xFF }, reg := { region := 2 } }) 0xA2 {} (fun b => b.isHead) = true ∧
    shown ({ live .service with casc := { self := 3, present := 0xFF } }) 0xA2 {} (fun b => !b.isHead) = true := by decide +kernel
theorem witness_RoutinesGoOn :
    let e : JEntry := { op := 0x05, st := .committed, routine := some (.waitfor 0 0) }
    let w : State := { live .service with pm := { journal := [e] } }
    shown ({ live .service with cs := { store := Tab.put 0 [] 0xE000 0x8000E009 } }) 0xE0 {} (fun _ => !vendorOpcode 0xE0) = true ∧
    w.resumable 0 = some e ∧ e.routine = some (.waitfor 0 0) := by decide +kernel
theorem witness_LaterStepsOfRoutines :
    let i : Ins := { a := 0x06000004, b := 0xFFFFFFFF50000000 }
    word (live .service) i.a.toNat (fun d => (live .service).regionOn i.a.toNat && testHolds i ((live .service).readMapped .postmaster d i.a.toNat).1) = true ∧
    word ((live .service).setDom dREG {}) 0x05000004 (fun _ => !((live .service).setDom dREG {}).regionOn 0x05000004) = true ∧
    (((live .service).setPort 3 { mode := 1, st := .up }).port (3 : BitVec 16).toNat).st = .up ∧
    ((live .service).port 3).wireFree = true ∧
    (live .service).frames.rx.any (heldBeforeCut 15 7) = false ∧
    (let s : State := { live .service with pm := { micros := 10 } }; 10 ≤ s.pm.micros - 0) ∧
    (allDomains.filter fun x => bitOf (domainSet [2, 24]) x).all (live .service).isOn = true ∧
    (let s : State := { live .service with sec := { slots := [(5, { retiring := true })] } }; (5 % 8 < 4 && (s.port (5 / 8)).wireUses (5 % 8)) = false ∧ (s.keySlot 5).retiring = true) ∧
    (let s : State := { live .service with sec := { slots := [(511, { retiring := true })] } }; (511 % 8 < 4 && (s.port (511 / 8)).wireUses (511 % 8)) = false ∧ (s.keySlot 511).retiring = true) ∧
    let a : Armed := { instant := 0, fired := some 0, jid := some 0 }
    let s : State := { State0 (live .service) 0x31 {} with time := { state := .free, armedEpoch := some a } }
    (jent 0x31 {}).ins.s = false ∧ s.time.armedEpoch = some a ∧ a.fired = some 0 ∧ a.jid = some (jent 0x31 {}).id := by decide +kernel
theorem witness_FrameOfInstructions :
    ([(0x00, .nop 0 {}), (0x07, .signal 0 {}), (0x82, .hint 0 { a := 1, b := 1 }), (0x82, .hintCancel 0 {}), (0x83, .capset 0 { a := 20000 }),
      (0x80, .vote 0 { target := 24 }), (0x81, .unvote 0 { target := 24 }), (0x62, .guardset 0 { a := 8 }), (0x63, .guardlock 0 {}),
      (0x61, .keyretire 0 {}), (0x92, .csverify 0 {}), (0x22, .portdown 0 {}), (0x18, .mode 0 { a := 2 }), (0x04, .fence 0 {}),
      (0xA2, .headyield 0 {})].all fun (x : Byte × Instr) => answers (exec x.2 (State0 (live .provision) x.1 {}))) = true := by decide +kernel
theorem witness_DoorbellsAndPolling :
    (live .service).queue (4095 : QId).toNat = none ∧
    (((live .service).setQueue 4095 ({ kind := .cmd, tail := 3 } : Queue)).queue 4095) = some ({ kind := .cmd, tail := 3 } : Queue) ∧ ({ kind := .cmd, tail := 3 } : Queue).doorbellFault (fld (32 : Word) 0 17) = some 1 ∧
    ({ kind := .cmd, tail := 3 } : Queue).doorbellFault (fld (3 : Word) 0 17) = none ∧ ({ kind := .cmd, tail := 3 } : Queue).doorbellFault (fld (16 : Word) 0 17) = none ∧ ({ kind := .cmd, tail := 3 } : Queue).submits = true ∧
    (((live .service).setQueue 5 ({ kind := .record, head := 1, tail := 3 } : Queue)).queue 5) = some ({ kind := .record, head := 1, tail := 3 } : Queue) ∧ ({ kind := .record, head := 1, tail := 3 } : Queue).doorbellFault (fld (1 : Word) 0 17) = none ∧ ({ kind := .record, head := 1, tail := 3 } : Queue).doorbellFault (fld (3 : Word) 0 17) = none ∧ ({ kind := .record, head := 1, tail := 3 } : Queue).submits = false ∧
    let x : Queue := { kind := .cmd, poll := 255 }; let s := (late .service).setQueue 5 x; s.queue (5 : QId).toNat = some x ∧ s.engineRuns = true ∧ x.submits = true ∧ x.poll ≠ 0 ∧ x.stopped = false ∧ x.closing = false ∧ x.fetches = [] ∧ x.ready = [] ∧ s.usPassed x.poll.toNat x.polledAt = true := by decide +kernel
theorem witness_DoorbellRule :
    2 * ({ kind := .cmd, tail := 3 } : Queue).n = 32 ∧ 2 * ({ kind := .cmd, tail := 3 } : Queue).n ≤ (32 : RIdx).toNat ∧
    (31 : RIdx).toNat < 2 * ({ kind := .cmd, tail := 3 } : Queue).n ∧ ({ kind := .cmd, tail := 3 } : Queue).submits = true ∧ ({ kind := .cmd, tail := 3 } : Queue).n < ({ kind := .cmd, tail := 3 } : Queue).dist 31 ({ kind := .cmd, tail := 3 } : Queue).head ∧ ({ kind := .cmd, tail := 3 } : Queue).n < ({ kind := .cmd, tail := 3 } : Queue).dist 17 ({ kind := .cmd, tail := 3 } : Queue).head ∧
    ({ kind := .cmd, tail := 3 } : Queue).dist 2 ({ kind := .cmd, tail := 3 } : Queue).head ≤ ({ kind := .cmd, tail := 3 } : Queue).n ∧ ({ kind := .cmd, tail := 3 } : Queue).dist 2 ({ kind := .cmd, tail := 3 } : Queue).head < ({ kind := .cmd, tail := 3 } : Queue).dist ({ kind := .cmd, tail := 3 } : Queue).tail ({ kind := .cmd, tail := 3 } : Queue).head ∧
    ({ kind := .record, head := 1, tail := 3 } : Queue).submits = false ∧ ({ kind := .record, head := 1, tail := 3 } : Queue).dist 4 ({ kind := .record, head := 1, tail := 3 } : Queue).head ≤ ({ kind := .record, head := 1, tail := 3 } : Queue).n ∧ ({ kind := .record, head := 1, tail := 3 } : Queue).dist ({ kind := .record, head := 1, tail := 3 } : Queue).tail ({ kind := .record, head := 1, tail := 3 } : Queue).head < ({ kind := .record, head := 1, tail := 3 } : Queue).dist 4 ({ kind := .record, head := 1, tail := 3 } : Queue).head ∧
    ({ kind := .record, head := 1, tail := 3 } : Queue).n < ({ kind := .record, head := 1, tail := 3 } : Queue).dist 18 ({ kind := .record, head := 1, tail := 3 } : Queue).head ∧
    ({ kind := .cmd, tail := 3 } : Queue).tail.toNat < 2 * ({ kind := .cmd, tail := 3 } : Queue).n ∧ ({ kind := .cmd, tail := 3 } : Queue).dist ({ kind := .cmd, tail := 3 } : Queue).tail ({ kind := .cmd, tail := 3 } : Queue).head ≤ ({ kind := .cmd, tail := 3 } : Queue).n ∧
    let x : Queue := { tail := 31, head := 15 }; x.tail.toNat < 2 * x.n ∧ x.dist x.tail x.head = x.n := by decide +kernel
theorem witness_FetchAndAcceptance :
    let f : Fetch := { idx := 31, tail := 0 }; let x : Queue := { head := 31, tail := 0, fetches := [f] }; let s := (live .service).setQueue 0 x
    s.queue (0 : QId).toNat = some x ∧ x.fetches.find? (fun f => f.idx == 31) = some f ∧ x.dist f.idx x.head < x.dist f.tail x.head ∧
      x.dist f.tail x.head ≤ x.n ∧ ({ x with fetches := dropFirst (fun g => g == f) x.fetches } : Queue).inHand f.idx = false ∧ bitOf (0 : BitVec 512) 511 = x.phase f.idx ∧
    let f : Fetch := { idx := 0, tail := 16 }; let x : Queue := { tail := 16, fetches := [f] }; let s := (live .service).setQueue 5 x
    s.queue (5 : QId).toNat = some x ∧ x.fetches.find? (fun f => f.idx == 0) = some f ∧ x.dist f.idx x.head < x.dist f.tail x.head ∧
      x.dist f.tail x.head ≤ x.n ∧ ({ x with fetches := dropFirst (fun g => g == f) x.fetches } : Queue).inHand f.idx = false ∧ bitOf ((1 : BitVec 512) <<< 511) 511 = x.phase f.idx ∧
    let x : Queue := { kind := .admin, tail := 1, maxOut := 1, ready := [(0, 7)], skip := 255 }; let s := (live .service).setQueue 0 x
    s.queue 0 = some x ∧ s.intake 0 x = true ∧ s.pmOn = true ∧ s.twinReach = true ∧ s.awaitsTwin 0 = false ∧ x.front = some 7 ∧
      x.closing = false ∧ x.skip ≠ 0 ∧ s.pm.journal.length < 4096 ∧ s.mirrors = false ∧
    let x : Queue := { kind := .cmd, tail := 1, maxOut := 1, ready := [(0, 7)] }; let s := (live .service).setQueue 4095 x
    s.queue (4095 : QId).toNat = some x ∧ s.intake 4095 x = true ∧ s.pmOn = true ∧ s.twinReach = true ∧ s.awaitsTwin 4095 = false ∧
      x.front = some 7 ∧ x.closing = false ∧ x.skip = 0 ∧ s.pm.journal.length < 4096 ∧ s.mirrors = false ∧
    let s := bound ((live .service).setQueue 4095 x)
    s.queue (4095 : QId).toNat = some x ∧ s.intake 4095 x = true ∧ s.pmOn = true ∧ s.twinReach = true ∧ s.awaitsTwin 4095 = false ∧
      s.pm.journal.length < 4096 ∧ s.mirrors = true ∧
    let e : JEntry := { queue := 4095, awaits := true }; let g : JEntry := { queue := 4095, awaits := true, st := .skipped }
    s.queue e.q = some x ∧ e.st ≠ .skipped ∧ s.queue g.q = some x ∧ g.st = .skipped := by decide +kernel
theorem witness_InjectConsumption :
    let x : Queue := { kind := .inject, tail := 1, maxOut := 1, ready := [(0, ((0x1000 : BitVec 512) ||| (14 <<< 64) ||| (3 <<< 80)))] }; let s := ((live .service).setPort 3 { mode := 1, st := .up }).setQueue 9 x
    let o := injOfEntry ((0x1000 : BitVec 512) ||| (14 <<< 64) ||| (3 <<< 80)); let e : Inj := { o with iid := s.nextId, queue := qid 9, idx := x.head, gen := x.gen, wantTs := false }
    let t := ((((({ s with nextId := s.nextId + 1 }.addInj e).mirrorInj e false).setQueue 9 x.pass).mirrorQueue 9).fetchNext 9)
    s.queue (9 : QId).toNat = some x ∧ s.intake 9 x = true ∧ x.kind = .inject ∧ s.twinReach = true ∧ x.front = some ((0x1000 : BitVec 512) ||| (14 <<< 64) ||| (3 <<< 80)) ∧ x.closing = false ∧ o.wantTs = false ∧
      t.injValid x o = true ∧ (t.port o.port.toNat).txStopped = false ∧
    let x : Queue := { kind := .inject, tail := 1, maxOut := 1, ready := [(0, ((0x1000 : BitVec 512) ||| (16380 <<< 64) ||| (3 <<< 80)))] }; let s := ((live .service).setPort 3 { mode := 1, st := .up }).setQueue 9 x
    let o := injOfEntry ((0x1000 : BitVec 512) ||| (16380 <<< 64) ||| (3 <<< 80)); let e : Inj := { o with iid := s.nextId, queue := qid 9, idx := x.head, gen := x.gen, wantTs := false }
    let t := ((((({ s with nextId := s.nextId + 1 }.addInj e).mirrorInj e false).setQueue 9 x.pass).mirrorQueue 9).fetchNext 9)
    s.queue (9 : QId).toNat = some x ∧ s.intake 9 x = true ∧ x.kind = .inject ∧ s.twinReach = true ∧ x.front = some ((0x1000 : BitVec 512) ||| (16380 <<< 64) ||| (3 <<< 80)) ∧ x.closing = false ∧ o.wantTs = false ∧
      t.injValid x o = true ∧ (t.port o.port.toNat).txStopped = false ∧
    let x : Queue := { kind := .inject, tail := 1, maxOut := 1, ready := [(0, ((0x1000 : BitVec 512) ||| (13 <<< 64) ||| (3 <<< 80)))] }; let s := ((live .service).setPort 3 { mode := 1, st := .up }).setQueue 9 x
    let o := injOfEntry ((0x1000 : BitVec 512) ||| (13 <<< 64) ||| (3 <<< 80)); let e : Inj := { o with iid := s.nextId, queue := qid 9, idx := x.head, gen := x.gen, wantTs := false }
    let t := ((((({ s with nextId := s.nextId + 1 }.addInj e).mirrorInj e false).setQueue 9 x.pass).mirrorQueue 9).fetchNext 9)
    s.queue (9 : QId).toNat = some x ∧ s.intake 9 x = true ∧ x.kind = .inject ∧ s.twinReach = true ∧ x.front = some ((0x1000 : BitVec 512) ||| (13 <<< 64) ||| (3 <<< 80)) ∧ x.closing = false ∧ o.wantTs = false ∧
      t.injValid x o = false ∧ (t.port o.port.toNat).txStopped = false ∧
    let x : Queue := { kind := .inject, tail := 1, maxOut := 1, ready := [(0, ((0x1000 : BitVec 512) ||| (16381 <<< 64) ||| (3 <<< 80)))] }; let s := ((live .service).setPort 3 { mode := 1, st := .up }).setQueue 9 x
    let o := injOfEntry ((0x1000 : BitVec 512) ||| (16381 <<< 64) ||| (3 <<< 80)); let e : Inj := { o with iid := s.nextId, queue := qid 9, idx := x.head, gen := x.gen, wantTs := false }
    let t := ((((({ s with nextId := s.nextId + 1 }.addInj e).mirrorInj e false).setQueue 9 x.pass).mirrorQueue 9).fetchNext 9)
    s.queue (9 : QId).toNat = some x ∧ s.intake 9 x = true ∧ x.kind = .inject ∧ s.twinReach = true ∧ x.front = some ((0x1000 : BitVec 512) ||| (16381 <<< 64) ||| (3 <<< 80)) ∧ x.closing = false ∧ o.wantTs = false ∧
      t.injValid x o = false ∧ (t.port o.port.toNat).txStopped = false ∧
    let x : Queue := { kind := .inject, tail := 1, maxOut := 1, ready := [(0, ((0x1000 : BitVec 512) ||| (64 <<< 64) ||| (4 <<< 80)))] }; let s := ((live .service).setPort 3 { mode := 1, st := .up }).setQueue 9 x
    let o := injOfEntry ((0x1000 : BitVec 512) ||| (64 <<< 64) ||| (4 <<< 80)); let e : Inj := { o with iid := s.nextId, queue := qid 9, idx := x.head, gen := x.gen, wantTs := false }
    let t := ((((({ s with nextId := s.nextId + 1 }.addInj e).mirrorInj e false).setQueue 9 x.pass).mirrorQueue 9).fetchNext 9)
    s.queue (9 : QId).toNat = some x ∧ s.intake 9 x = true ∧ x.kind = .inject ∧ s.twinReach = true ∧ x.front = some ((0x1000 : BitVec 512) ||| (64 <<< 64) ||| (4 <<< 80)) ∧ x.closing = false ∧ o.wantTs = false ∧
      t.injValid x o = false ∧ (t.port o.port.toNat).txStopped = false := by decide +kernel
theorem witness_WritebackPostingAndModeration :
    let x : Queue := { wbOwed := true }; let s := (live .service).setQueue 5 x; s.queue 5 = some x ∧ s.engineRuns = true ∧ x.submits = true ∧ x.wbOwed = true ∧
    let e : JEntry := { queue := 5, st := .completed, slot := some ⟨.ok, 0, 0⟩ }; let s := { (live .service).setQueue 5 {} with pm := { journal := [e] } }
    s.queue 5 = some {} ∧ s.engineRuns = true ∧ s.nextReady 5 = some (.cmd 0) ∧
    let x : Queue := { kind := .completion, irqEn := true, modTime := 65535, unsignalled := 1 }; let s := (late .service).setQueue 1 x; s.queue 1 = some x ∧ s.usPassed x.modTime.toNat x.firstAt = true ∧ x.submits = false ∧ x.irqEn = true ∧ x.modTime ≠ 0 ∧ 0 < x.unsignalled := by decide +kernel
theorem witness_VectorPendingAndMask :
    let s := (live .service).setVector 2047 { mask := true, pending := true }; ((s.vector 2047).mask && (s.vector 2047).pending && !(s.vector 2047).pin) = true ∧
    (((live .service).vector 0).mask && ((live .service).vector 0).pending && !((live .service).vector 0).pin) = false := by decide +kernel
theorem witness_DirectWritesByAddress :
    let s := (live .service).setTop { (live .service).top with resetting := .cold }; s.top.resetting = .cold ∧
    (live .service).top.resetting ≠ .cold ∧
    0x40000000 ≤ (0x40000000 : BitVec 34).toNat ∧ (0x40000FFF : BitVec 34).toNat < 0x40001000 ∧
    0x40001000 ≤ (0x40001000 : BitVec 34).toNat ∧ (0x4000101F : BitVec 34).toNat < 0x40001020 ∧
    0x40004000 ≤ (0x40004000 : BitVec 34).toNat ∧ (0x40005FFF : BitVec 34).toNat < 0x40006000 ∧
    ((live .service).setDom dREG {}).regionOn 0x05000000 = false ∧ ((live .service).setDom 24 {}).regionOn 0x20000000 = false ∧
    (live .service).regionOn 0x06000005 = true ∧ (describe (live .service) 0x06000005).isSome = true ∧
    (live .service).regionOn 0x36 = true ∧ (describe (live .service) 0x36).isSome = true ∧ (live .service).bootOpen = false ∧
    State.reset.top.mode = .cold ∧ State.reset.top.ready = false ∧
    0x40006000 ≤ (0x40006000 : BitVec 34).toNat ∧ 0x40006000 ≤ (0x3FFFFFFFF : BitVec 34).toNat := by decide +kernel
theorem witness_DirectReadsByAddress :
    (live .service).top.resetting ≠ .cold ∧ (live .service).regionOn 0x06000000 = true ∧ (describe (live .service) 0x06000000).isSome = true ∧
    ((live .service).setDom dREG {}).regionOn 0x05000000 = false ∧ ((live .service).setDom 24 {}).regionOn 0x20FFFFFF = false ∧
    (live .service).regionOn 0x00FFFFFF = true ∧ describe (live .service) 0x00FFFFFF = none := by decide +kernel
theorem witness_TimeNowReadsAsOneValue :
    (match describe (live .service) 0x06000000 with
      | some d => d.base == 0x06000000 && d.words == 3 && ((live .service).readMapped .window d 0x06000000).2.dma.latches.length == 1 | none => false) = true := by decide +kernel
theorem witness_TransfersBegin :
    (([1, 2, 3] : List (BitVec 4)).all fun op => ([0, 1, 2, 3, 15] : List (BitVec 4)).all fun f =>
      ((live .service).setChan 27 (atIns op { flags := f, x := 7, y := 0xFFFFFF, addr := 0x1000 })).chanReady (27 : BitVec 5).toNat op
        { flags := f, x := 7, y := 0xFFFFFF, addr := 0x1000 }) = true ∧
    (loadCursor (fld (0 : BitVec 4) 0 2) 0x1000 {}).isSome = true ∧ fld (0 : BitVec 4) 0 2 = (0#2) ∧
    (loadCursor (fld (2 : BitVec 4) 0 2) 0x1000 {}).isSome = true ∧ fld (2 : BitVec 4) 0 2 ≠ (0#2) ∧
    (loadCursor (fld (1 : BitVec 4) 0 2) 0x1000 {}).isSome = true ∧ fld (1 : BitVec 4) 0 2 ≠ (0#2) ∧
    loadCursor (fld (3 : BitVec 4) 0 2) 0x1000 {} = none ∧ loadCursor (fld (15 : BitVec 4) 0 2) 0x1000 {} = none := by decide +kernel
theorem witness_DoorbellsLoopsAndWaits :
    28 ≤ (28 : BitVec 5).toNat ∧ (27 : BitVec 5).toNat < 28 ∧
    ((live .service).setDom dDMA {}).isOn dDMA = false ∧ (live .service).isOn dDMA = true ∧
    (let w : ChIns := { flags := 1, y := 5, addr := 0x10 }; ((live .service).setChan 27 (atIns 4 w)).chanReady 27 4 w = true ∧ w.addr.toNat % 16 = 0 ∧ bitOf w.flags 0 = true) ∧
    (let w : ChIns := { y := 0, addr := 0x10 }; ((live .service).setChan 27 (atIns 4 w)).chanReady 27 4 w = true ∧ w.addr.toNat % 16 = 0 ∧ bitOf w.flags 0 = false) ∧
    (let w : ChIns := { addr := 8 }; ((live .service).setChan 27 (atIns 4 w)).chanReady 27 4 w = true ∧ w.addr.toNat % 16 ≠ 0) ∧
    (let w : ChIns := { flags := 4 }; ((live .service).setChan 27 (atIns 5 w)).chanReady 27 5 w = true ∧ fld w.flags 0 2 = (0#2) ∧ w.x = 0) ∧
    (let w : ChIns := { x := 0xFFFFFFFF }; ((live .service).setChan 0 (atIns 5 w)).chanReady 0 5 w = true ∧ fld w.flags 0 2 = (0#2) ∧ w.x ≠ 0) ∧
    (let w : ChIns := { flags := 1, y := 3 }; let s := (live .service).setChan 0 (atIns 5 w { credits := 3 }); s.chanReady 0 5 w = true ∧ fld w.flags 0 2 = (1#2) ∧ w.y.toNat ≤ (s.chan 0).credits.toNat) ∧
    (let w : ChIns := { flags := 1, y := 4 }; let s := (live .service).setChan 0 (atIns 5 w { credits := 3 }); s.chanReady 0 5 w = true ∧ fld w.flags 0 2 = (1#2) ∧ (s.chan 0).credits.toNat < w.y.toNat) ∧
    (let s := (late .service).setChan 5 { st := .waiting, waitUs := 0xFFFFFFFF }; s.dmaRuns = true ∧ (s.chan 5).st = .waiting ∧ (s.chan 5).waitFor = none ∧ s.usPassed (s.chan 5).waitUs (s.chan 5).waitAt = true) ∧
    let s := (late .service).setChan 5 { st := .waiting, waitFor := some 255, waitUs := 1 }; s.dmaRuns = true ∧ (s.chan 5).st = .waiting ∧ (s.chan 5).waitFor.isSome = true ∧ (s.chan 5).waitUs ≠ 0 ∧ s.usPassed (s.chan 5).waitUs (s.chan 5).waitAt = true := by decide +kernel
theorem witness_SignalsLinksAndEnds :
    (([0, 4, 8, 12] : List (BitVec 4)).all fun f => ((live .service).setChan 27 (atIns 6 { flags := f, x := 9, y := 2047, addr := 4 })).chanReady 27 6
      { flags := f, x := 9, y := 2047, addr := 4 }) = true ∧ (4 : HostAddr).toNat % 4 = 0 ∧
    bitOf (8 : BitVec 4) 3 = true ∧ bitOf (4 : BitVec 4) 3 = false ∧ bitOf (4 : BitVec 4) 2 = true ∧ bitOf (0 : BitVec 4) 3 = false ∧ bitOf (0 : BitVec 4) 2 = false ∧
    (let x : Chan := { st := .running, line := some (leBytes 64 (7 <<< 124 + 0x1FFFFFFFFFFFFF0 <<< 64)) }
     ((live .service).setChan 27 x).chanReady 27 7 { addr := 0x1FFFFFFFFFFFFF0 } = true ∧ (0x1FFFFFFFFFFFFF0 : HostAddr).toNat % 16 = 0) ∧
    (([8, 9, 15] : List (BitVec 4)).all fun op => ((live .service).setChan 27 (atIns op {})).chanReady 27 op {}) = true ∧ 8 < (9 : BitVec 4).toNat ∧ 8 < (15 : BitVec 4).toNat ∧
    (let s := (live .service).setChan 27 (atIns 0 {}); s.chanReady 27 0 {} = true ∧ (s.chan 27).reread = false) ∧
    (let s := (live .service).setChan 27 (atIns 0 {} { reread := true }); s.chanReady 27 0 {} = true ∧ (s.chan 27).reread = true) ∧
    (let s := (live .service).setChan 3 { st := .running, xfer := some .reread }; s.dmaRuns = true ∧ (s.chan 3).xfer = some .reread ∧ (0x1FFFFFFFFFFFFF0 : BitVec 57).toNat % 16 = 0) ∧
    (let s := (live .service).setChan 3 { armed := true }; s.dmaRuns = true ∧ (s.chan 3).st = .idle ∧ (s.chan 3).armed = true ∧ (s.chan 3).xfer = none) ∧
    fld (1 : BitVec 128) 124 4 ≠ (7#4) ∧ fld ((7 : BitVec 128) <<< 124) 124 4 = (7#4) := by decide +kernel
theorem witness_FrameOfChannelsAndQueues :
    let s := (live .service).setChan 27 { st := .running }
    ([.loop 27 {}, .wait 27 {}, .link 27 {}, .dmaNop 27 8 {}, .dmaSignal 27 {}, .move 27 {}, .vectorPendingClear 0 true, .vectorUnmask 0, .queuePoll 0,
      .headWriteback 0, .moderationTimeout 0, .entryFetch 0 0 0, .endProg 27 {}, .dmaIdleCheck 27, .internalChannelFault 3].all fun c => answers (exec c s)) = true := by decide +kernel
theorem witness_FabricAndManagementPorts :
    let r : Req := { tag := 1023, isWrite := true, tries := 3 }; let s : State := { live .service with dma := { reqs := [r] } }
    s.dma.reqs.find? (fun x => x.tag == 1023) = some r ∧ r.tries ≠ 0 ∧
    let r : Req := { tag := 0 }; let s : State := { live .service with dma := { reqs := [r] } }
    s.dma.reqs.find? (fun x => x.tag == 0) = some r ∧ r.tries = 0 ∧
    (live .service).top.resetting ≠ .cold ∧ (live .service).isOn dHOST = true ∧
    { live .service with casc := { self := 1 } }.isHead = false ∧ (live .service).entryWindow = false ∧ bitOf (live .service).power.wakeCfg 27 = false ∧
    ((live .service).setDom dHOST {}).isOn dHOST = false ∧ ((live .service).setDom dHOST {}).entryWindow = false ∧
    let s : State := { (live .service).setDom 2 { st := .entering 5 .off } with power := { ((live .service).setDom 2 { st := .entering 5 .off }).power with wakeCfg := 4 } }; s.entryWindow = true := by decide +kernel
theorem witness_FrameReception :
    ((live .service).port 3).mayEnd { bytes := List.replicate 64 0 } = false ∧
    let s := ((live .service).setPort 3 { mode := 1, st := .up }); (s.port (3 : PortId).toNat).st = .up ∧ s.portOn 3 = true ∧ s.top.resetting = .none ∧
    (let f : RxFrame := { bytes := List.replicate 64 0 }; (arrives s f (s.port 3)).rxReason 3 f = some 0x025) ∧
    (let f : RxFrame := { bytes := List.replicate 64 0, preempt := true, fragments := [{}, { start := false, count := 1, mcrcGood := false }, { start := false, count := 2 }] }
     reasmErr f = true ∧ (arrives s f (s.port 3)).rxReason 3 f = some 0x024) ∧
    (let f : RxFrame := { bytes := List.replicate 63 0 }; f.bytes.length < 64) ∧
    (let f : RxFrame := { bytes := sealed (List.replicate 12 0 ++ [0x88, 0x08] ++ List.replicate 46 0) }
     (arrives s f (s.port 3)).rxReason 3 f = none ∧ be16 (f.bytes.take (f.bytes.length - 4)) 12 = 0x8808) ∧
    (let f : RxFrame := { bytes := sealed (List.replicate 12 0 ++ [0x08, 0x00] ++ List.replicate 46 0), preempt := true, fragments := [{}, { start := false, count := 1 }] }
     reasmErr f = false ∧ (arrives s f (s.port 3)).rxReason 3 f = none ∧ be16 (f.bytes.take (f.bytes.length - 4)) 12 ≠ 0x8808) ∧
    (let s := (live .service).setPort 3 { mode := 1, st := .down, endE := true }; let f : RxFrame := { bytes := List.replicate 64 0 }
     (s.port 3).st ≠ .up ∧ (s.port 3).mayEnd f = true ∧ s.portOn 3 = true ∧ s.top.resetting = .none) ∧
    (let b : List Byte := List.replicate 12 0 ++ [0x88, 0x08, 0x01, 0x01] ++ List.replicate 48 0; be16 b 12 = 0x8808 ∧ (be16 b 14 = 1 ∨ be16 b 14 = 0x0101)) ∧
    (let b : List Byte := List.replicate 12 0 ++ [0x88, 0x08, 0x00, 0x01] ++ List.replicate 48 0; be16 b 12 = 0x8808 ∧ (be16 b 14 = 1 ∨ be16 b 14 = 0x0101)) ∧
    (let x : Port := { mode := 1, pauseTime := [(7, 65535)] }
     x.quantaPassed (Tab.get 0 x.pauseTime (7 : Prio).toNat).toNat (Tab.get 0 x.pauseFrom (7 : Prio).toNat) (late .service).clock = true) := by decide +kernel
theorem witness_TransmissionAndPreemption :
    let x : Port := { preemptEn := true, st := .up }; x.preemptEn = true ∧ x.st = .up ∧
    let x : Port := { verify := .verifying, attempts := 2 }; x.verify = .verifying ∧ (late .service).msPassed x.verifyTime.toNat x.verifyAt = true ∧ x.attempts.toNat < 3 ∧
    let x : Port := { verify := .verifying, attempts := 3 }; x.verify = .verifying ∧ (late .service).msPassed x.verifyTime.toNat x.verifyAt = true ∧ 3 ≤ x.attempts.toNat ∧
    let g : TxFr := { bytes := List.replicate 64 0, src := .pipe 0 none }; let s := (live .service).setPort 3 { mode := 1, st := .up, tx := [g] }; let x := s.port 3
    x.st = .up ∧ x.wireFree = true ∧ s.top.resetting = .none ∧ x.tx = [g] ∧ (g.preempt = false ∨ x.active = false) ∧ x.holds g.prio = false ∧
      g.injected = false ∧ s.startCheck 3 g = none ∧
    let g : TxFr := { wire := List.replicate 200 0, preempt := true }; let x : Port := { mode := 1, st := .up, preemptEn := true, verify := .succeeded, wireP := some g, tx := [{}] }
    x.wireP = some g ∧ x.active = true ∧ x.suspended = false ∧ x.wireE = none ∧ g.preemptPoint 64 = true ∧ g.preemptPoint 136 = true ∧ (x.nextTx false).isSome = true ∧
    let x : Port := { wireE := some {} }; x.wireE = some {} := by decide +kernel
theorem witness_TransmissionAndPreemption_pipeline :
    let w : QWord := (14 : QWord) <<< 12; let frame : List Byte := List.replicate 14 0; let s := let s := (live .service).setPort 3 { mode := 1, st := .down, txStopped := false }; s.setTop { s.top with pbRst := false }
    let x := s.port (3 : PortId).toNat
    s.pbReset = false ∧ s.sliceOn (0 : BitVec 4).toNat = true ∧ x.configured = true ∧ (s.slicesOfPort 3).contains 0 = true ∧ (fld w 12 14).toNat = frame.length ∧
      14 ≤ frame.length ∧ frame.length ≤ 16380 ∧ bitOf w 124 = false ∧ (x.st ≠ .up ∨ x.txStopped = true) ∧
    let w : QWord := (14 : QWord) <<< 12; let frame : List Byte := List.replicate 14 0; let s := let s := (live .service).setPort 3 { mode := 1, st := .up, txStopped := true }; s.setTop { s.top with pbRst := false }
    let x := s.port (3 : PortId).toNat
    s.pbReset = false ∧ s.sliceOn (0 : BitVec 4).toNat = true ∧ x.configured = true ∧ (s.slicesOfPort 3).contains 0 = true ∧ (fld w 12 14).toNat = frame.length ∧
      14 ≤ frame.length ∧ frame.length ≤ 16380 ∧ bitOf w 124 = false ∧ (x.st ≠ .up ∨ x.txStopped = true) ∧
    let w : QWord := (14 : QWord) <<< 12; let frame : List Byte := List.replicate 14 0; let s := let s := (live .service).setPort 3 { mode := 1, st := .up, txStopped := false }; s.setTop { s.top with pbRst := false }
    let x := s.port (3 : PortId).toNat
    s.pbReset = false ∧ s.sliceOn (0 : BitVec 4).toNat = true ∧ x.configured = true ∧ (s.slicesOfPort 3).contains 0 = true ∧ (fld w 12 14).toNat = frame.length ∧
      14 ≤ frame.length ∧ frame.length ≤ 16380 ∧ bitOf w 124 = false ∧ x.st = .up ∧ x.txStopped = false ∧ s.txUsed 3 + s.txCells 3 14 false ≤ x.txCap ∧
    (let f : TxFr := { slice := some 0 }; let g : TxFr := { slice := some 1 }; f.slice = some 0 ∧ (0 : BitVec 4).toNat % 2 = 0 ∧ g.slice = some (0 + 1)) ∧
    let e : Inj := { queue := 9, length := 14, fetching := true, cells := 2 }; let s : State := { live .service with qs := { inj := [e] } }
    s.isOn dHOST = true ∧ s.top.resetting = .none ∧ s.qs.inj.find? (fun e => e.queue.toNat == (9 : QId).toNat && e.fetching && e.outcome.isNone && e.cells != 0) = some e ∧
      (List.replicate 14 (0 : Byte)).length = e.length.toNat := by decide +kernel
theorem witness_SorterAndPipelineBoundary :
    let f : RxFr := { port := 3, bytes := List.replicate 60 0 }; let s := { (live .service).setPort 3 { mode := 1, memberGuard := true } with frames := { rx := [{ port := 3, bytes := List.replicate 60 0 }] } }; let u := s.markReplica 0 []
    let c := (u.sliceL 0).classify u.sorter.seed (u.depthOf 0) f.port.toNat f.bytes f.macsec f.epoch
    s.sliceOn (0 : BitVec 4).toNat = true ∧ s.top.resetting = .none ∧ u.frames.rx.find? (fun f => f.slice.toNat == 0 && !f.parsed) = some f ∧ (u.port 3).memberGuard = true ∧ c.cls.src = (0#14) ∧
    let f : RxFr := { port := 3, bytes := List.replicate 60 0 }; let s := { live .service with frames := { rx := [{ port := 3, bytes := List.replicate 60 0 }] }, sorter := { logical := [(0, { bank0 := [(0, { action := 0x8000000000000000 })] })] } }; let u := s.markReplica 0 []
    let c := (u.sliceL 0).classify u.sorter.seed (u.depthOf 0) f.port.toNat f.bytes f.macsec f.epoch
    s.sliceOn (0 : BitVec 4).toNat = true ∧ s.top.resetting = .none ∧ u.frames.rx.find? (fun f => f.slice.toNat == 0 && !f.parsed) = some f ∧ (u.port 3).memberGuard = false ∧ c.cls.pipe = false ∧ c.cls.punt = false ∧
    let f : RxFr := { port := 3, bytes := List.replicate 60 0 }; let s := { live .service with frames := { rx := [{ port := 3, bytes := List.replicate 60 0 }] } }; let u := s.markReplica 0 []
    let c := (u.sliceL 0).classify u.sorter.seed (u.depthOf 0) f.port.toNat f.bytes f.macsec f.epoch
    s.sliceOn (0 : BitVec 4).toNat = true ∧ s.top.resetting = .none ∧ u.frames.rx.find? (fun f => f.slice.toNat == 0 && !f.parsed) = some f ∧ (u.port 3).memberGuard = false ∧ c.cls.pipe = true := by decide +kernel
theorem witness_SorterAndPipelineBoundary_engines :
    (let f : RxFr := { fid := 1, port := 3, bytes := List.replicate 60 0 }; let g : RxFr := { fid := 2, port := 3, bytes := List.replicate 60 0, recirc := some 0 }
     let s := { live .service with frames := { rx := [f], recirc := [g] } }
     (s.markReplica 0 []).wireWaits 0 = some f ∧ (s.markReplica 0 []).recircWaits 0 = some g ∧ (((s.setSliceL 0 { slots := 30 }).markReplica 0 []).sliceL 0).slots < 31 ∧
       ((s.setSliceL 0 { slots := 30 }).markReplica 0 []).wireWaits 0 = some f ∧ ((s.setSliceL 0 { slots := 30 }).markReplica 0 []).recircWaits 0 = some g ∧
       31 ≤ (((s.setSliceL 0 { slots := 31 }).markReplica 0 []).sliceL 0).slots ∧
       ((s.setSliceL 0 { slots := 31 }).markReplica 0 []).wireWaits 0 = some f ∧ ((s.setSliceL 0 { slots := 31 }).markReplica 0 []).recircWaits 0 = some g) ∧
    (let g : RxFr := { fid := 2, port := 3, bytes := List.replicate 60 0, recirc := some 0 }; let s := { live .service with frames := { recirc := [g] } }; let v := s.eventSlice 0 1
     (s.markReplica 0 []).wireWaits 0 = none ∧ (s.markReplica 0 []).recircWaits 0 = some g ∧ g.recirc = some 0 ∧
       (s.sliceL 0).recircEpoch (fld (0 : QWord) 88 4) = (0, false) ∧
       ((v.sliceL 0).classify v.sorter.seed (v.depthOf 0) g.port.toNat g.bytes (bitOf (0 : QWord) 4) 0).cls.parseFault = false) := by decide +kernel
theorem witness_SorterAndPipelineBoundary_handover :
    let s := (live .service).setSliceL 0 { badReplica := [0xE010] }; s.sliceOn (0 : BitVec 4).toNat = true ∧ (s.sliceL 0).badReplica.contains (0xE010 : BitVec 16).toNat = true ∧ s.cs.badWords.contains (0xE010 : BitVec 16).toNat = false ∧
    let f : RxFr := { parsed := true, res := .pair 0, cls := { pipe := true } }; let s := let s := { live .service with frames := { rx := [f] } }; s.setTop { s.top with pbRst := false }
    s.sliceOn (0 : BitVec 4).toNat = true ∧ s.pbReset = false ∧ s.quiesced = false ∧ s.busHead 0 = some f ∧
    let f : RxFr := { bytes := [0], parsed := true, res := .pair 0, cls := { punt := true, puntQueue := 5 } }; let s := ({ live .service with frames := { rx := [f] } }).setQueue 5 { kind := .punt, size := 4 }
    s.engineRuns = true ∧ s.frames.rx.find? (fun f => f.slice.toNat == 0 && f.parsed && f.resolved && f.cls.punt && (!f.cls.pipe || f.handed) && f.punting.isNone) = some f ∧
      s.frames.rx.any (fun g => g.punting.map (·.1.toNat) == some f.cls.puntQueue) = false ∧ (s.puntQueue f).isSome = true ∧
    let f : RxFr := { bytes := [0], parsed := true, res := .pair 0, cls := { punt := true, puntQueue := 4096 } }; let s := { live .service with frames := { rx := [f] } }
    s.engineRuns = true ∧ s.frames.rx.find? (fun f => f.slice.toNat == 0 && f.parsed && f.resolved && f.cls.punt && (!f.cls.pipe || f.handed) && f.punting.isNone) = some f ∧
      s.frames.rx.any (fun g => g.punting.map (·.1.toNat) == some f.cls.puntQueue) = false ∧ s.puntQueue f = none := by decide +kernel
theorem witness_SorterAndPipelineBoundary_returns :
    let frame : List Byte := List.replicate 64 0; let mw : QWord := 0
    let s := let s := live .service; s.setTop { s.top with pbRst := false }; let x := s.sliceL 0
    s.pbReset = false ∧ (s.port (3 : PortId).toNat).configured = false ∧
    let frame : List Byte := List.replicate 64 0; let mw : QWord := 0
    let s := let s := (live .service).setPort 8 { mode := 1 }; s.setTop { s.top with pbRst := false }; let x := s.sliceL 0
    s.pbReset = false ∧ (s.port (8 : PortId).toNat).configured = true ∧ (s.slicesOfPort 8).contains 0 = false ∧
    let frame : List Byte := List.replicate 64 0
    (let s := let s := (live .quarantine).setPort 3 { mode := 1 }; s.setTop { s.top with pbRst := false }
     s.pbReset = false ∧ (s.port (3 : PortId).toNat).configured = true ∧ (s.slicesOfPort 3).contains 0 = true ∧ s.recircUsed 0 + segments frame ≤ 512 ∧ s.quiesced = true) ∧
    (let s := let s := (live .service).setPort 3 { mode := 1 }; { s.setTop { s.top with pbRst := false } with frames := { rx := [{}] } }
     s.pbReset = false ∧ (s.port (3 : PortId).toNat).configured = true ∧ (s.slicesOfPort 3).contains 0 = true ∧ s.recircUsed 0 + segments frame ≤ 512 ∧ s.quiesced = false ∧ s.wireWaits 0 ≠ none) ∧
    (let s := let s := (live .service).setPort 3 { mode := 1 }; s.setTop { s.top with pbRst := false }
     let h : RxFr := { fid := s.nextId, port := 3, bytes := frame, wire := frame.length + 4, slice := 0, recirc := some 0 }
     let w := { s with nextId := s.nextId + 1, frames := { s.frames with recirc := s.frames.recirc ++ [h] } }
     s.pbReset = false ∧ (s.port (3 : PortId).toNat).configured = true ∧ (s.slicesOfPort 3).contains 0 = true ∧ s.recircUsed 0 + segments frame ≤ 512 ∧ s.quiesced = false ∧ s.wireWaits 0 = none ∧ s.recircWaits 0 = none ∧
       ((w.parseRecirc 0 h).frames.recirc.find? (fun g => g.fid == s.nextId)).isSome = true) ∧
    let s : State := let s := live .service; { s.setTop { s.top with pbRst := false } with frames := { creditsUsed := [(0, 4)] } }; s.pbReset = false ∧ let u := Tab.get 0 s.frames.creditsUsed 0
    (4 : BitVec 3).toNat ≤ 4 ∧ (4 : BitVec 3).toNat ≤ u ∧ 4 < (5 : BitVec 3).toNat ∧ Tab.get 0 (live .service).frames.creditsUsed 0 < (1 : BitVec 3).toNat := by decide +kernel
theorem witness_RegistryEvents :
    let s : State := { live .service with reg := { region := 2, clearing := false, probes := [{ tag := some 2047 }] } }; s.isOn dREG = true ∧ s.reg.region ≠ 0 ∧ s.reg.probes.find? (fun p => p.tag == some 2047) = some { tag := some 2047 } ∧ s.reg.unreachable = false ∧
    let s : State := { live .service with reg := { region := 2, clearing := false, probes := [] } }; s.isOn dREG = true ∧ s.reg.region ≠ 0 ∧ s.reg.probes.find? (fun p => p.tag == some 0) = none ∧
    let s : State := { live .service with reg := { region := 2, clearing := false, cache := [{ index := 0xFFFFFF, dirty := true }] } }; s.isOn dREG = true ∧ s.reg.region ≠ 0 ∧ s.reg.cache.find? (fun l => l.index == (0xFFFFFF : BitVec 24).toNat) = some { index := 0xFFFFFF, dirty := true } ∧
    let s : State := { live .service with time := { state := .free, seconds := 61 }, reg := { region := 2, clearing := false, age := 1, cache := [{ index := 5, entry := { state := 1, swept := true } }] } }
    s.isOn dREG = true ∧ s.reg.region ≠ 0 ∧ s.reg.age ≠ 0 ∧ s.isOn dDMA = true ∧ s.reg.clearing = false ∧ s.aged (s.pairEntry 6) = false ∧
    let s : State := { live .service with time := { state := .free, seconds := 61 }, reg := { region := 2, clearing := false, age := 1, epoch := 5, ledger := [(5, { state := 1, swept := true })] } }
    s.aged (s.pairEntry 5) = true ∧
    let s : State := { live .service with reg := { region := 2, clearing := false, phase := .idle } }; s.isOn dREG = true ∧ s.reg.region ≠ 0 ∧ s.reg.phase = .idle ∧
    let s : State := { live .service with reg := { region := 2, clearing := false, phase := .sweeping, mark := 0 } }; s.isOn dREG = true ∧ s.reg.region ≠ 0 ∧ s.reg.phase ≠ .idle ∧ s.reg.writebackOwed = false ∧ s.reg.mark.toNat < Config.pairEntries ∧
    let s : State := { live .service with reg := { region := 2, clearing := true } }; s.isOn dREG = true ∧ s.reg.region ≠ 0 ∧ s.reg.clearing = true ∧
    let s : State := { live .service with reg := { region := 2, clearing := false, writebackOwed := true } }; s.isOn dREG = true ∧ s.reg.region ≠ 0 ∧ s.reg.writebackOwed = true := by decide +kernel
theorem witness_FlowControlAndGuards :
    (let s := (live .service).setPort 63 { mode := 1, xoff := 0x7F }; let x := s.port (63 : PortId).toNat; x.configured = true ∧ s.portOn 63 = true ∧ bitOf x.xoff 7 ≠ true ∧ bitOf x.xoff 0 = true) ∧
    (let s := live .service; (s.port (63 : PortId).toNat).configured = false ∧ bitOf (s.port (63 : PortId).toNat).xoff 7 ≠ true) ∧
    (let x : Port := { mode := 1, st := .up, txMode := 2 }; x.st = .up ∧ x.txMode ≠ 0 ∧ x.wireFree = true ∧ { x with wireE := some {} }.wireFree = false) ∧
    (let s := (late .service).setPort 63 { mode := 1, asserted := 0x80, xoff := 0x80, txMode := 2, quanta := 65535, refresh := 4095 }; let x := s.port (63 : PortId).toNat
     bitOf (s.lines 63) 7 = true ∧ bitOf (s.wanted 63) 7 = true ∧
       x.quantaPassed (max 1 (min (x.refresh.toNat * 16) (x.quanta.toNat / 2))) (Tab.get 0 x.toldAt 7) s.clock = true) ∧
    (let s := (late .service).setPort 63 { mode := 1, asserted := 0x80, toldTime := [(7, 65535)] }; let x := s.port (63 : PortId).toNat
     bitOf x.asserted 7 = true ∧ x.quantaPassed (Tab.get 0 x.toldTime 7).toNat (Tab.get 0 x.toldAt 7) s.clock = true) ∧
    (let s := (late .service).setPort 63 { mode := 1, asserted := 0x80 }; let x := s.port (63 : PortId).toNat
     bitOf (x.asserted ||| x.xoff) 7 = true ∧ bitOf x.dutyClipped 7 = false ∧ ((s.guardPort 63).ceiling 7).toNat * dutyWindow ≤ 256 * x.dutySum 7 s.clock) ∧
    (let s := { late .service with guards := { ports := [(63, { duty := 0 })] } }.setPort 63 { mode := 1, xoff := 1 }; let x := s.port (63 : PortId).toNat
     bitOf (x.asserted ||| x.xoff) 0 = true ∧ bitOf x.dutyClipped 0 = false ∧ ((s.guardPort 63).ceiling 0).toNat * dutyWindow ≤ 256 * x.dutySum 0 s.clock) ∧
    (let s := (late .service).setPort 63 { mode := 1, dutyClipped := 0x80 }; let x := s.port (63 : PortId).toNat
     bitOf x.dutyClipped 7 = true ∧ 8 * (256 * x.dutySum 7 s.clock) ≤ 7 * (((s.guardPort 63).ceiling 7).toNat * dutyWindow)) ∧
    (let s := (late .service).setPort 63 { mode := 1, rxPaused := 0x80 }; let x := s.port (63 : PortId).toNat
     bitOf x.rxPaused 7 = true ∧ bitOf x.rxIgnored 7 = false ∧ s.msPassed (s.guardPort 63).rxDetect.toNat (Tab.get 0 x.pausedAt 7) = true) ∧
    (let s := (late .service).setPort 63 { mode := 1, asserted := 0xFF, txMode := 1 }; let x := s.port (63 : PortId).toNat
     bitOf x.asserted 0 = true ∧ bitOf x.stormTx 0 = false ∧ s.msPassed (s.guardPort 63).txDetect.toNat (Tab.get 0 x.assertedAt 0) = true) ∧
    (let s := (late .service).setPort 63 { mode := 1, stormTx := 1, rxIgnored := 2 }; let x := s.port (63 : PortId).toNat
     bitOf x.stormTx 0 = true ∧ s.msPassed (s.guardPort 63).txHold.toNat (Tab.get 0 x.stormTxAt 0) = true ∧ bitOf x.rxIgnored 1 = true ∧
       s.msPassed (s.guardPort 63).rxHold.toNat (Tab.get 0 x.stormRxAt 1) = true) ∧
    (let s := (late .service).setPort 63 { mode := 1, refused5 := 1, refused6 := 2, refused8 := 3, reportedAt := [(6, some 0)] }; let x := s.port (63 : PortId).toNat
     x.refused5 ≠ 0 ∧ Tab.get none x.reportedAt 5 = none ∧ x.refused6 ≠ 0 ∧ Tab.get none x.reportedAt 6 = some 0 ∧ s.msPassed 1 0 = true ∧ x.refused8 ≠ 0 ∧ Tab.get none x.reportedAt 8 = none) := by decide +kernel
theorem witness_LaneEvents :
    let s := ((live .service).setPort 56 { mode := 8, st := .up }).setLane 63 { signal := true, lock := true }; let x := s.lane 63; s.portOfLane (63 : PortId).toNat = some 56 ∧ s.pcsRuns 56 = true ∧ s.portOn 56 = true ∧ x.signal = true ∧ x.lock = true ∧ ennosMode (s.port 56).mode = false ∧ goodMarker (s.port 56).mode {} = true ∧
    let s := ((live .service).setPort 3 { mode := 9, st := .up }).setLane 3 { signal := true, lock := true }; let x := s.lane 3; s.portOfLane (3 : PortId).toNat = some 3 ∧ s.pcsRuns 3 = true ∧ x.signal = true ∧ x.lock = true ∧ ennosMode (s.port 3).mode = true ∧ goodMarker (s.port 3).mode (marker 9 0 9) = true ∧ (marker 9 0 9).isGood = true ∧
    let s := ((live .service).setPort 3 { mode := 9, st := .up }).setLane 3 { signal := true, cand := some (9, 0, 255) }; let x := s.lane 3; s.portOfLane (3 : PortId).toNat = some 3 ∧ s.pcsRuns 3 = true ∧ x.signal = true ∧ x.lock = false ∧ ennosMode (s.port 3).mode = true ∧ (marker 9 0 0).isCandidate = true ∧ (marker 9 0 0).mode = (s.port 3).mode ∧ (marker 9 0 0).onPeriod = true ∧ x.cand = some ((s.port 3).mode, (marker 9 0 0).lane, 255) ∧ (marker 9 0 0).seq = 255 + 1 ∧
    let s := ((live .service).setPort 3 { mode := 1, st := .up }).setLane 3 { signal := true }; let x := s.lane 3; s.portOfLane (3 : PortId).toNat = some 3 ∧ s.pcsRuns 3 = true ∧ s.pcsRuns (3 : PortId).toNat = true ∧ (s.port 3).st = .up ∧ (s.port 3).corrected ≤ (s.port 3).thresholdNow.toNat ∧
    let s := (live .service).setPort 3 { mode := 1, st := .up, corrected := 0x100001 }; s.pcsRuns 3 = true ∧ (s.port 3).thresholdNow.toNat < (s.port 3).corrected ∧ (s.port 3).thresholdNow ≠ 0xFFFFFFFF ∧
    let s := ((live .service).setPort 3 { mode := 1, st := .up }).setLane 3 { signal := true, lock := true }; let x := s.lane 3; s.portOfLane (3 : PortId).toNat = some 3 ∧ s.pcsRuns 3 = true ∧ s.isOn dTIME = true ∧ x.lock = true ∧ s.sliceOn (3 / 4) = true ∧
    let s := ((live .service).setPort 3 { mode := 1, st := .up }).setLane 3 { lock := true, badCodewords := 14 }; let x := s.lane 3; s.portOfLane (3 : PortId).toNat = some 3 ∧ s.pcsRuns 3 = true ∧ x.lock = true ∧ x.badCodewords < 15 ∧
    let s := ((live .service).setPort 3 { mode := 1, st := .up }).setLane 3 { lock := true, badCodewords := 15 }; let x := s.lane 3; s.portOfLane (3 : PortId).toNat = some 3 ∧ s.pcsRuns 3 = true ∧ x.lock = true ∧ 15 ≤ x.badCodewords := by decide +kernel
theorem witness_TimeEvents :
    let s : State := { live .service with time := { state := .free, inEn := true, lastEdge := some 0 } }; s.isOn dTIME = true ∧ s.time.inEn = true ∧ s.time.state ≠ .unset ∧ s.time.edgeBad (s.now16 + (0 : BitVec 3).toNat * 10240 - s.time.inDelay.toInt * 4096) = true ∧
    let s : State := { live .service with time := { state := .free, seconds := 1, inEn := true, lastEdge := some 0, source := 2 } }; s.isOn dTIME = true ∧ s.time.inEn = true ∧ s.time.state ≠ .unset ∧ s.time.edgeBad (s.now16 + (7 : BitVec 3).toNat * 10240 - s.time.inDelay.toInt * 4096) = false ∧ s.time.source = 2 ∧ s.time.follows = false ∧
    let s : State := { live .service with time := { state := .free, inEn := true, source := 1 } }; s.isOn dTIME = true ∧ s.time.inEn = true ∧ s.time.edgeBad (s.now16 + (7 : BitVec 3).toNat * 10240 - s.time.inDelay.toInt * 4096) = false ∧ s.time.source ≠ 2 ∧
    let s : State := { live .service with time := { state := .free, todEn := true } }; s.isOn dTIME = true ∧ s.time.todEn = true ∧
    let b : List Byte := [0xA5, 0x5A, 0, 0, 0, 0, 0, 0, 1, 0]; b.length = 10 ∧ byteAt b 0 = 0xA5 ∧ byteAt b 1 = 0x5A ∧ b.sum = 0 ∧ bitOf (byteAt b 8) 0 = true ∧
    let b : List Byte := [0xA5, 0x5A, 0, 0, 0, 0, 0, 0, 1, 1]; b.length = 10 ∧ b.sum ≠ 0 ∧
    let b : List Byte := [0xA5, 0x5A, 0, 0, 0, 0, 0, 0, 0, 1]; b.length = 10 ∧ b.sum = 0 ∧ bitOf (byteAt b 8) 0 = false ∧
    let s : State := { late .service with time := { state := .locked, holdMs := 65535 } }; s.isOn dTIME = true ∧ s.time.state = .locked ∧ s.msPassed s.time.holdMs.toNat s.time.lastTick = true ∧
    let s : State := { live .service with time := { state := .free, outEn := true } }; s.isOn dTIME = true ∧ s.ppsAllowed = true ∧ (s.now16 + s.time.outAdv.toNat * 4096 + 40960) % 65536000000000 < s.time.outWidth.toNat * 655360000 ∧ s.time.ppsOut = false ∧
    let s : State := { live .service with time := { state := .unset, outEn := true, ppsOut := true } }; s.isOn dTIME = true ∧ s.ppsAllowed = false ∧ s.time.ppsOut = true ∧
    let s : State := { live .service with time := { state := .free, outEn := true, ppsOut := true, sub := 536870912000000000 } }; s.isOn dTIME = true ∧ s.ppsAllowed = true ∧ ¬ (s.now16 + s.time.outAdv.toNat * 4096 + 40960) % 65536000000000 < s.time.outWidth.toNat * 655360000 ∧ s.time.ppsOut = true ∧
    let a : Armed := { instant := 5 <<< 30 }; let s : State := { live .service with time := { state := .free, seconds := 5, armedEpoch := some a, armedSnap := some a } }
    s.isOn dTIME = true ∧ s.timeRuns = true ∧ a.fired = none ∧ a.held = false ∧ s.instant16 a.instant = s.now16 ∧ s.time.armedEpoch = some a ∧ s.time.armedSnap = some a ∧
    let s : State := { live .service with time := { state := .free, seconds := 5, armed0 := true, alarm0 := 5 <<< 30, armed1 := true, alarm1 := 4 <<< 30 } }; s.isOn dTIME = true ∧ s.timeRuns = true ∧ s.time.armed0 = true ∧ s.instant16 s.time.alarm0 ≤ s.now16 ∧ s.time.armed1 = true ∧ s.instant16 s.time.alarm1 ≤ s.now16 ∧
    let s : State := { live .service with casc := { self := 1, present := 3, serving := 3 }, time := { state := .free, role := 2, joined := true } }
    s.isOn dTIME = true ∧ s.isOn dHOST = true ∧ s.isHead = false ∧ bitOf (setBit s.casc.present s.casc.self.toNat false) s.casc.head.toNat = true ∧ s.time.follows = true ∧ s.time.joined = true := by decide +kernel
theorem witness_CascadeEvents :
    let s : State := { live .service with casc := {  } }; s.isOn dHOST = true ∧ ({ crcOk := false } : Flit).crcOk = false ∧ ({} : Flit).crcOk = true ∧
    let s : State := { live .service with casc := { a := { up := true, lastRecv := 0xFFFF } } }; s.isOn dHOST = true ∧ (let f : Flit := { seq := 0, payload := .heartbeat 2 true true false }; let t := s.setLinkSt .a (s.link .a).sawGood
      let u := (t.setLinkSt (otherLink .a) ((t.link (otherLink .a)).acked f.ack)).retainHeld; f.payload ≠ .idle ∧ f.seq = (u.link .a).lastRecv + 1) ∧
    let s : State := { live .service with casc := {  } }; s.isOn dHOST = true ∧ (let f : Flit := { seq := 5, payload := .heartbeat 2 true true false }; let t := s.setLinkSt .b (s.link .b).sawGood
      let u := (t.setLinkSt (otherLink .b) ((t.link (otherLink .b)).acked f.ack)).retainHeld; f.payload = .idle ∨ f.seq ≠ (u.link .b).lastRecv + 1) ∧
    let s : State := { live .service with casc := { b := { up := true, unacked := [{ seq := 1 }, { seq := 2 }] } } }; s.isOn dHOST = true ∧ (s.link .b).unacked = { seq := 1 } :: [{ seq := 2 }] ∧
    let s : State := { late .service with casc := { colls := [{ op := 0x31 }] } }; s.usPassed s.casc.limit.toNat 0 = true ∧ s.isOn dHOST = true ∧ s.casc.colls.find? (fun c => c.op == 0x31) = some { op := 0x31 } ∧ s.isHead = true ∧
    let s : State := { live .service with casc := { self := 1 } }; s.isOn dHOST = true ∧ s.sendBeats.countMissing.isHead = false ∧
    let s : State := { live .provision with casc := {} }
    s.isOn dHOST = true ∧ s.sendBeats.countMissing.isHead = true ∧ s.sendBeats.countMissing.serves = false ∧
    let s : State := { live .service with casc := { self := 1, present := 0x83, missing := [(7, 3)] } }; s.isOn dHOST = true ∧ (7 : BitVec 3) ≠ s.casc.self ∧ bitOf s.casc.present (7 : BitVec 3).toNat = true ∧ 3 ≤ Tab.get 0 s.casc.missing (7 : BitVec 3).toNat ∧ s.isHead = false ∧ (7 : BitVec 3) ≠ s.casc.partner ∧
    let s : State := { live .service with casc := {  } }; s.isOn dHOST = true ∧ bitOf s.casc.present (7 : BitVec 3).toNat = false ∧
    let s : State := { live .service with casc := { twin := .bound, partner := 1, present := 3, a := { up := true }, pmFailed := 2 } }; s.isOn dHOST = true ∧ s.mirrors = true ∧ s.ringUp = true ∧ s.casc.twin = .bound ∧ bitOf s.casc.pmFailed s.casc.partner.toNat = true ∧
    { live .service with casc := { twin := .partnerLost } }.casc.twin = .partnerLost := by decide +kernel
theorem witness_FaultAndTestEvents :
    (let e : JEntry := { op := 0x05, st := .committed, routine := some (.waitfor 0 0), mism := 1 }; let s : State := { live .service with pm := { journal := [e] } }; s.stepping (0 : QId) = some e ∧ s.pm.alone = 0 ∧ s.top.mode ≠ .adopted ∧ e.mism + 1 < 3) ∧
    (let e : JEntry := { op := 0x05, st := .committed, routine := some (.waitfor 0 0), mism := 2 }; let s : State := { live .service with pm := { journal := [e] } }; s.stepping (0 : QId) = some e ∧ s.pm.alone = 0 ∧ s.top.mode ≠ .adopted ∧ ¬ e.mism + 1 < 3) ∧
    (let e : JEntry := { queue := 4095, idx := 0x1FFFF }; let s : State := { live .service with pm := { journal := [{}, e] } }
     s.pm.journal.find? (fun e => e.q == (4095 : QId).toNat && e.idx == 0x1FFFF && e.st != .completed) = some e) ∧
    ((live .service).queue (1 : QId).toNat).isSome = true ∧ (live .service).atCommit = true ∧
    (let s : State := { live .service with pm := { testing := true } }; s.pm.testing = true ∧ s.pm.testFor = none) ∧
    (let s := late .service; s.pm.interval ≠ 0 ∧ s.pm.testing = false ∧ s.top.resetting = .none ∧ s.top.mode ≠ .adopted ∧ s.atCommit = true ∧ s.msPassed s.pm.interval.toNat s.pm.testedAt = true ∧ s.pm.alone = 0 ∧ s.isOn dPMA = true ∧ s.isOn dPMB = true ∧ s.pmRuns = true ∧ s.pmOn = true) ∧
    (let s : State := { late .service with pm := { alone := 1, failedReturns := 2 } }; s.pm.interval ≠ 0 ∧ s.pm.testing = false ∧ s.atCommit = true ∧ s.msPassed s.pm.interval.toNat s.pm.testedAt = true ∧ s.pm.alone = 1 ∧ s.isOn dPMA = true ∧ s.pm.failedReturns < 3) ∧
    (let e : JEntry := { op := 0x05, st := .committed, routine := some (.waitfor 0 0) }; let s : State := { live .service with pm := { journal := [e] } }
     let t := s.setCs { s.cs with reloads := s.cs.reloads ++ [{ word := 65535 }] }
     s.isOn dHOST = true ∧ s.top.resetting = .none ∧ (s.cs.reloads.any fun r => r.ovl == false && r.word == (65535 : BitVec 16).toNat) = false ∧
       (t.cs.visibleAt false 65535).isSome = true ∧ t.reloading (0 : QId).toNat = false ∧ t.stepping 0 = some e) ∧
    (let r : Reload := { word := 65535, fails := 1 }; let u : Reload := { word := 0, fails := 2 }; let s : State := { live .service with cs := { reloads := [r, u] } }
     s.cs.reloads.find? (fun r => r.ovl == false && r.word == 65535) = some r ∧ r.fails < 2 ∧ s.cs.reloads.find? (fun r => r.ovl == false && r.word == 0) = some u ∧ 2 ≤ u.fails) ∧
    (16 : BitVec 5).toNat ≤ 16 ∧ (live .service).isOn (dSLICE (16 : BitVec 5).toNat) = true ∧ tableKind 5 = true ∧ tableKind 8 = true ∧ tableKind 1 = false ∧ tableKind 4 = false ∧ (1 : BitVec 4) ≠ 0 ∧ (8 : BitVec 4).toNat ≤ 8 ∧
    (let s := (late .service).setSliceP 16 { faults := [0, 0] }; (s.clock :: ((s.sliceP 16).faults.filter fun t => !s.msPassed 1000 t).take 2).length < 3) ∧
    (let s := (live .service).setSliceP 16 { faults := [0, 0] }; 3 ≤ (s.clock :: ((s.sliceP 16).faults.filter fun t => !s.msPassed 1000 t).take 2).length) ∧
    (∀ r ∈ (live .service).dma.reqs ++ (live .service).dma.backlog, ∀ w, r.chan = some w → w < 28) := by
  refine ⟨?_, ?_, ?_, ?_, ?_, ?_, ?_, ?_, ?_, ?_, ?_, ?_, ?_, ?_, ?_, ?_, ?_, ?_, ?_, ?_, ?_⟩ <;> first | decide +kernel | simp [live]
theorem witness_ResetEvents :
    (live .cold).top.mode = .cold ∧ (live .service).top.mode ≠ .cold ∧ (live .service).top.due = [] ∧ (live .service).top.resetting ≠ .cold ∧ (live .service).top.resetting = .none ∧
    let s := (live .service).setTop { resetting := .cold }; s.top.resetting = .cold ∧
    let s := ((live .service).setTop { resetting := .warm }).setDom dHOST {}; s.top.resetting = .warm ∧ s.isOn dHOST = false := by decide +kernel
theorem witness_PowerDomainEvents :
    let s := (live .service).setDom dHOST {}; s.wakeHolds 5 0 = true ∧ s.wakeEnabled 5 = true ∧ s.entryWindow = false ∧ s.wakeable ≠ [] ∧
    (live .service).wakeEnabled 0 = false ∧
    let s := (live .service).setDom 24 { st := .restoring .railUp true }; let x := s.dom 24; x.st = .restoring .railUp true ∧
    let s := (live .service).setDom 1 { st := .restoring .isolation false }; let x := s.dom 1; x.st = .restoring .isolation false ∧ (nextRestore 1 .isolation).isSome = true ∧ nextRestore 1 .resetRelease = none ∧
    let s := (live .service).setDom 24 { st := .entering 6 .off }; let x := s.dom 24; x.leaving = false ∧ x.st = .entering 6 .off ∧ 6 < 7 ∧ 7 ≤ 7 ∧
    let s := (live .service).setDom 24 { st := .restoring .railUp true }; let x := s.dom 24; x.resting = false ∧ 24 ≠ 0 ∧ (24 : BitVec 5).toNat ≤ 24 ∧ (1 : BitVec 5).toNat ≠ 0 ∧
    (live .service).coreNeeded = true ∧ State.reset.coreNeeded = false := by decide +kernel
theorem witness_PowerGovernor :
    let s := live .service; let o : CapObs := { activity := 46001 }; let e := min 65535 (freeDiv (o.activity * s.power.gain.toNat) 4096).toNat
    let t := s.setPower { s.power with estimate := BitVec.ofNat 16 e, estLinks := o.links, estMemory := o.memory, estCompute := o.compute }.withReserve
    t.power.effectiveCap < e + t.power.reserve ∧
    let s := live .service; let o : CapObs := { activity := 46000 }; let e := min 65535 (freeDiv (o.activity * s.power.gain.toNat) 4096).toNat
    let t := s.setPower { s.power with estimate := BitVec.ofNat 16 e, estLinks := o.links, estMemory := o.memory, estCompute := o.compute }.withReserve
    e + t.power.reserve = t.power.effectiveCap ∧
    (1 : BitVec 16) ≠ (live .service).power.capSample ∧ (0xB3B0 : BitVec 16) = (live .service).power.capSample ∧
    (let h : Hint := { kind := 5, expected := 0, duration := 10000000, since := 0 }; let s := late .service; let t := s.setPower { s.power with hints := [{ h with since := s.clock }, h] }
     t.power.hints[1]? = some h ∧ t.usPassed h.duration h.since = true ∧ t.power.hints[0]? = some { h with since := s.clock } ∧ t.usPassed h.duration s.clock = false) := by decide +kernel
theorem witness_MonitorCommands :
    let s : State := { live .service with mon := {  } }; s.monOn = true ∧ s.mon.busy = none ∧ s.mon.isOpen = false ∧ unlockMode s.top.mode = true ∧ s.mon.tapOpen = false ∧
    let s : State := { live .service with mon := { isOpen := true, dbgEn := true } }; s.monOn = true ∧ s.mon.busy = none ∧ s.mon.isOpen = true ∧ permits 0x01 {} s.top.mode = true ∧ setCheck s (0x06000005 : Word).toNat 0x0000FFFF 1 = none ∧ s.pm.journal.length < Config.journalSize ∧ s.sliceOn ((63 : PortId).toNat / 4) = true ∧ 9600 ∉ baudRates ∧
    (live .service).keyloadInStep = false ∧ (live .service).erase.atCommit = true ∧ (live .service).top.mode ≠ .maintenance ∧
    (let e : JEntry := { op := 0x60, st := .running }; let z : State := { live .service with pm := { journal := [e], burstOf := some 0 } }; z.keyloadInStep = true) ∧
    (let e : JEntry := { op := 0x05, st := .running }; let z : State := { live .service with pm := { journal := [e], burstOf := some 0 } }; z.keyloadInStep = false ∧ z.erase.atCommit = false) := by decide +kernel
theorem witness_FrameOfUnitEvents :
    ([.wake 5 0, .railGood 1, .corePllLock, .capInput 0, .hintExpire 0, .measurementStale, .todMessage [] true, .holdoverTimeout, .machineCheck (.mismatch 0), .pauseExpire 0 0,
      .respondReceive 0, .sentPauseExpire 0 0, .heldBankHigh 0 0, .laneCalibration 0 1 1, .pairTableClear, .cascadeLinkDown .a, .scrub, .replicaReload 0 0,
      .probeTimeout 0, .rxCreditReturn 0 1, .cacheCleaner 0, .cascadeResend .a, .mirrorInterval, .twinAdopt, .ppsOutput true, .xoffChange 0 0 true, .pfcRefresh 0 0,
      .verifyTimer 0, .preempt 0 64, .fecDegradeInterval 0, .dutyClip 0 0, .dutyRelease 0 0, .stormWatchdogRx 0 0, .stormWatchdogTx 0 0,
      .stormHoldExpire 0 0 true].all fun c => answers (exec c (live .service))) = true := by decide +kernel

end Tests
end Sys2Proof
end

section
/-! The end of an instruction (R45, R55): the status it reports, and the completion slot it fills. -/

namespace Sys2Proof
namespace Machine

/-! ### A block without a partner sends the twin nothing -/

theorem State.mirrorEntry_of_not_mirrors {s : State} (h : s.mirrors = false) (e : JEntry) (gone : Bool) :
    s.mirrorEntry e gone = s := by
  simp [State.mirrorEntry, State.toTwin, h]

theorem State.mirrorJid_of_not_mirrors {s : State} (h : s.mirrors = false) (jid : Nat) : s.mirrorJid jid = s := by
  unfold State.mirrorJid
  split
  · exact State.mirrorEntry_of_not_mirrors h _ _
  · rfl

@[simp] theorem State.updEntry_mirrors (s : State) (jid : Nat) (f : JEntry → JEntry) : (s.updEntry jid f).mirrors = s.mirrors := rfl

/-! ### The parts of an end -/

/-- R55: the status that an instruction reports when it ends `st`. -/
def JEntry.reported (e : JEntry) (st : Status) : Status :=
  if st = .ok && e.rolled then .retriedAfterCheck else st

theorem JEntry.reported_ok_of_rolled {e : JEntry} (h : e.rolled = true) : e.reported .ok = .retriedAfterCheck := by
  simp [JEntry.reported, h]

theorem JEntry.reported_of_not_rolled {e : JEntry} (h : e.rolled = false) (st : Status) : e.reported st = st := by
  simp [JEntry.reported, h]

theorem JEntry.reported_retriedAfterCheck (e : JEntry) : e.reported .retriedAfterCheck = .retriedAfterCheck := by
  simp [JEntry.reported]

/-- The entry after an end that fills its completion slot (R45, R93). -/
def JEntry.completedWith (e : JEntry) (d : Done) (ran : BitVec 16) : JEntry :=
  { e with st := .completed, routine := none, rd := none, slot := some d, ran := ran }

/-- The count of an instruction's steps in a row, by which it yields (R44), ends with the instruction. -/
def State.endBurst (s : State) (jid : Nat) : State :=
  if s.pm.burstOf = some jid then { s with pm := { s.pm with burst := 0, burstOf := none } } else s

@[simp] theorem State.endBurst_entry (s : State) (jid j : Nat) : (s.endBurst jid).entry j = s.entry j := by
  unfold State.endBurst; split <;> rfl

@[simp] theorem State.endBurst_genOf (s : State) (jid q : Nat) (g : BitVec 16) : (s.endBurst jid).genOf q g = s.genOf q g := by
  unfold State.endBurst; split <;> rfl

@[simp] theorem State.endBurst_mirrors (s : State) (jid : Nat) : (s.endBurst jid).mirrors = s.mirrors := by
  unfold State.endBurst; split <;> rfl

/-! ### The end -/

/-- The end of an instruction depends on the status it ends with only through the status it reports. -/
theorem State.finish_congr_reported {s : State} {e : JEntry} {st st' : Status} (he : s.entry e.id = some e)
    (h : e.reported st = e.reported st') (a b : DWord) : s.finish e.id st a b = s.finish e.id st' a b := by
  unfold JEntry.reported at h
  simp only [State.finish, he, h]

/-- An end that reports to a queue: the burst ends, and the entry completes with the reported status and both results. -/
theorem State.finish_of_reports {s : State} {e : JEntry} {st : Status} (he : s.entry e.id = some e) (hq : e.queue ≠ 0xFFFF)
    (hr : e.reported st ≠ .ok ∨ e.ins.c = true) (a b : DWord) :
    s.finish e.id st a b = ((s.endBurst e.id).updEntry e.id fun x =>
      x.completedWith ⟨e.reported st, a, b⟩ ((s.endBurst e.id).genOf e.q e.gen)).mirrorJid e.id := by
  have hreports : ¬ (e.reported st = .ok && !e.ins.c) = true := by
    rcases hr with hst | hc
    · simp [hst]
    · simp [hc]
  unfold State.finish
  rw [he]
  exact (if_neg hq).trans (if_neg hreports)

/-- The completion slot that such an end fills, and the queue's generation noted with it. -/
theorem State.entry_finish_of_reports {s : State} {e : JEntry} {st : Status} (he : s.entry e.id = some e)
    (hq : e.queue ≠ 0xFFFF) (hr : e.reported st ≠ .ok ∨ e.ins.c = true) (hm : s.mirrors = false) (a b : DWord) :
    (s.finish e.id st a b).entry e.id = some (e.completedWith ⟨e.reported st, a, b⟩ (s.genOf e.q e.gen)) := by
  rw [State.finish_of_reports he hq hr, State.mirrorJid_of_not_mirrors (by simp [hm]), State.entry_updEntry]
  · simp [he]
  · exact fun _ => rfl

/-- Settles O11: the end reads the status only through the reported one, which a rollback turns from OK into RETRIED_AFTER_CHECK
(R55) and which stays OK without a rollback. -/
theorem rollbackTurnsOkIntoRetried : Obligations.RollbackTurnsOkIntoRetried := by
  intro s e a b he
  refine ⟨fun hrolled => ?_, fun hrolled hq hm => ?_, fun hrolled hc hq hm => ?_⟩
  · have hsame := (JEntry.reported_ok_of_rolled hrolled).trans e.reported_retriedAfterCheck.symm
    exact State.finish_congr_reported he hsame a b
  · have hretried := JEntry.reported_ok_of_rolled hrolled
    have hslot := State.entry_finish_of_reports (st := .ok) he hq (.inl (by simp [hretried])) hm a b
    rwa [hretried] at hslot
  · have hslot := State.entry_finish_of_reports (st := .ok) he hq (.inr hc) hm a b
    rwa [JEntry.reported_of_not_rolled hrolled] at hslot

end Machine
end Sys2Proof
end

section
/-! The guard settings and their lock over resets and retention (R148): they stand in AON, and only a cold reset clears them. -/

namespace Sys2Proof
namespace Machine

/-- Without a pair that runs the watchdog resets nothing. -/
theorem exec_postmasterWatchdog (s : State) :
    exec .postmasterWatchdog s = .next (if s.pmRuns then s.postmasterReset else s) := rfl

/-- The guards are not among what a cold reset keeps (R399). -/
@[simp] theorem State.coldReset_guards (s : State) : s.coldReset.guards = {} := rfl

/-- A port of which the table of guard settings holds nothing reads its reset settings. -/
theorem State.guardPort_of_guards_reset {s : State} (h : s.guards = {}) (p : Nat) : s.guardPort p = {} := by
  rw [State.guardPort, h]; rfl

/-- Settles O6: the frames of the resets and of the power steps keep the guards, and a cold reset starts them anew. -/
theorem guardSettingsAndResets : Obligations.GuardSettingsAndResets := by
  intro s n d kind entry bank
  refine ⟨?slice, ?postmaster, ?warm, ?rest, ?restore, ?cold⟩
  case slice => exact ⟨s.sliceFault n.toNat kind entry bank, rfl, (State.sliceFault_kept ..).2⟩
  case postmaster => exact ⟨_, exec_postmasterWatchdog s, (kept_ite s.postmasterReset_kept ⟨rfl, rfl⟩).2⟩
  case warm => exact ⟨s.warmReset, rfl, s.warmReset_kept.2⟩
  case rest => exact ⟨s.entryCycle d.toNat, rfl, (s.entryCycle_kept _).2⟩
  case restore => exact ⟨s.restoreStep d.toNat, rfl, (s.restoreStep_kept _).2⟩
  case cold => exact ⟨s.coldReset, rfl, by rw [s.coldReset_guards], State.guardPort_of_guards_reset s.coldReset_guards⟩

end Machine
end Sys2Proof
end

section
/-! The latch of a path (R10, R494), and `time.now` read through it (R269). -/

namespace Sys2Proof
namespace Machine

/-- Word `i` of a value lies `32 * i` bits up. -/
theorem wordOf_eq_setWidth_ushiftRight (v : BitVec 96) (i : Nat) : wordOf v i = (v >>> (32 * i)).setWidth 32 :=
  BitVec.eq_of_toNat_eq (by simp [wordOf, fld])

/-- `time.now` as a parameter (R269). -/
def timeNowDesc (s : State) : PDesc := { base := 0x06000000, words := 3, val := s.timeNow }

theorem describe_timeNow (s : State) : describe s 0x06000000 = some (timeNowDesc s) := rfl

theorem timeNowDesc_base (s : State) : (timeNowDesc s).base = 0x06000000 := rfl

theorem timeNowDesc_words_ne_one (s : State) : (timeNowDesc s).words ≠ 1 := by simp [timeNowDesc]

theorem State.latchOf_congr {s t : State} (h : t.dma.latches = s.dma.latches) (p : Path) : t.latchOf p = s.latchOf p := by
  rw [State.latchOf, h, State.latchOf]

/-! ### The first word of a parameter of several words -/

theorem State.readMapped_base_val {d : PDesc} (hd : d.words ≠ 1) (s : State) (p : Path) :
    (s.readMapped p d d.base).1 = wordOf d.val 0 := by
  simp [State.readMapped, hd]

/-- Its read loads the path's latch with the parameter's address and its high words. -/
theorem State.latchOf_readMapped_base {d : PDesc} (hd : d.words ≠ 1) (s : State) (p : Path) :
    (s.readMapped p d d.base).2.latchOf p = some (p, BitVec.ofNat 32 d.base, wordOf d.val 1, wordOf d.val 2) := by
  simp [State.readMapped, State.latchOf, hd]

/-! ### The later words -/

/-- A later word is the latch's where the path's latch is of this parameter: its own value is not read. -/
theorem State.readMapped_high_of_latchOf {t : State} {p q : Path} {d : PDesc} {b h1 h2 : Word} (hd : d.words ≠ 1)
    (hl : t.latchOf p = some (q, b, h1, h2)) (hb : b.toNat = d.base) {i : Nat} (hi : i ≠ 0) :
    (t.readMapped p d (d.base + i)).1 = if i = 1 then h1 else h2 := by
  simp [State.readMapped, hd, hl, hb, hi]

/-- R494: under the latches that the first word's read left, the later words read on the path as they were then, whatever the
value is by now. -/
theorem State.readMapped_high_of_latched {s t : State} {p : Path} {d d' : PDesc} (hd : d.words ≠ 1) (hd' : d'.words ≠ 1)
    (hbase : d'.base = d.base) (hfits : d.base < 2 ^ 32)
    (hlatches : t.dma.latches = (s.readMapped p d d.base).2.dma.latches) :
    (t.readMapped p d' (d'.base + 1)).1 = wordOf d.val 1 ∧ (t.readMapped p d' (d'.base + 2)).1 = wordOf d.val 2 := by
  have hlatch := (State.latchOf_congr hlatches p).trans (s.latchOf_readMapped_base hd p)
  have haddr : (BitVec.ofNat 32 d.base).toNat = d'.base := by
    rw [BitVec.toNat_ofNat, Nat.mod_eq_of_lt hfits, hbase]
  exact ⟨State.readMapped_high_of_latchOf hd' hlatch haddr (by decide),
    State.readMapped_high_of_latchOf hd' hlatch haddr (by decide)⟩

/-- Settles O41: `time.now` is a parameter of three words, so its first read latches the other two. -/
theorem timeNowReadsAsOneValue : Obligations.TimeNowReadsAsOneValue := by
  intro s t p d hd hlatches d' ⟨hbase, hwords⟩
  obtain rfl : timeNowDesc s = d := Option.some.inj ((describe_timeNow s).symm.trans hd)
  rw [← timeNowDesc_base s] at hbase hlatches ⊢
  have hmany := timeNowDesc_words_ne_one s
  have hlow := s.readMapped_base_val hmany p
  have hhigh := State.readMapped_high_of_latched hmany (by simp [hwords]) hbase (by simp [timeNowDesc_base]) hlatches
  rw [hbase, timeNowDesc_base] at hhigh
  simp only [wordOf_eq_setWidth_ushiftRight] at hlow hhigh
  exact ⟨hlow, hhigh⟩

end Machine
end Sys2Proof
end

section
/-! The step (R148, log entries 1, 7 and 8): no command touches the queue of those that wait; none but a cold reset, AON power-up and a
brown-out touches locked guards; one alone can be refused. -/

namespace Sys2Proof
namespace Machine

/-! ### What an outcome keeps -/

/-- Every next state of the outcome keeps of `s` what `GuardsStay` says. -/
def NextStays (s : State) (o : Host.Outcome State Fault Refusal) : Prop := ∀ t, o = .next t → GuardsStay s t

theorem NextStays.next {s u : State} (h : GuardsStay s u) : NextStays s (.next u) := fun _ ht => Host.Outcome.next.inj ht ▸ h

theorem NextStays.of_kept {s u : State} (h : u.pending = s.pending ∧ u.guards = s.guards) : NextStays s (.next u) :=
  .next (.of_kept h)

theorem NextStays.refused (s : State) (r : Refusal) : NextStays s (.refused r) :=
  fun _ h => by cases h

theorem NextStays.of_begins {run : Nat → BitVec 16 → Ins → State → Ran}
    (h : ∀ j q i t, (run j q i t).state.pending = t.pending ∧ (run j q i t).state.guards = t.guards) {q : QId} {op : Byte} {sel : Bool}
    {i : Ins} {s : State} : NextStays s (begins q op sel i run s) := fun t => begins_kept q op sel i run s t h |> fun k e => .of_kept (k e)

theorem NextStays.of_begins_stays {run : Nat → BitVec 16 → Ins → State → Ran} (h : ∀ j q i t, GuardsStay t (run j q i t).state)
    {q : QId} {op : Byte} {sel : Bool} {i : Ins} {s : State} : NextStays s (begins q op sel i run s) :=
  fun t => begins_stays q op sel i run s t h

/-- A command of the monitor keeps what its answer keeps. -/
theorem NextStays.of_monitor {s : State} {b : Bool} {f : State → State} (h : (f s).pending = s.pending ∧ (f s).guards = s.guards) :
    NextStays s (.next (s.monCommand b f)) := .next (s.monCommand_stays b f (.of_kept h))

/-! ### The arms that choose between several operations -/

theorem entryFetch_keeps (s : State) (q : QId) (idx : RIdx) (data : BitVec 512) : NextStays s (exec (.entryFetch q idx data) s) := by
  refine .of_kept ?_
  split
  · split
    · exact State.fetched_kept ..
    · exact kept_ite (State.fetched_kept ..) ⟨rfl, rfl⟩
  · exact ⟨rfl, rfl⟩

theorem collectiveTimeout_keeps (s : State) (op : Byte) : NextStays s (exec (.collectiveTimeout op) s) := by
  refine .of_kept ?_
  split
  · exact kept_ite (kept_trans (kept_trans (State.headEnd_kept ..) (State.headNext_kept ..)) (State.readiness_kept _)) ⟨rfl, rfl⟩
  · exact ⟨rfl, rfl⟩

theorem machineCheck_keeps (s : State) (what : Check) : NextStays s (exec (.machineCheck what) s) := by
  refine .of_kept ?_
  cases what with
  | mismatch q =>
    dsimp only
    split
    · exact kept_ite (kept_trans (State.mismatch_kept ..) (State.takeAll_kept _)) ⟨rfl, rfl⟩
    · exact ⟨rfl, rfl⟩
  | journalWord q idx => exact kept_trans (State.journalError_kept ..) (State.takeDue_kept _)
  | queueContext q => exact kept_ite (State.raiseFault_kept ..) ⟨rfl, rfl⟩

theorem internalChannelFault_keeps (s : State) (c : BitVec 2) : NextStays s (exec (.internalChannelFault c) s) :=
  .of_kept (kept_trans (kept_trans (State.setDma_kept ..) (State.setChan_kept ..)) (State.forEach_kept _ _ _ State.internalRuns_kept))

theorem hintExpire_keeps (s : State) (n : Nat) : NextStays s (exec (.hintExpire n) s) := by
  refine .of_kept ?_
  split
  · exact kept_ite (State.setHints_kept ..) ⟨rfl, rfl⟩
  · exact ⟨rfl, rfl⟩

theorem monUnlockErase_keeps (s : State) (d : Bool) (n : Nat) : NextStays s (exec (.monUnlockErase d n) s) := by
  have h := (s.setDbg d).monCommand_stays true _ (.of_kept (State.unlockErase_kept n _))
  exact .next ((GuardsStay.of_kept (s.setDbg_kept d)).trans h)

theorem monUnknownCommand_keeps (s : State) (line : List Byte) : NextStays s (exec (.monUnknownCommand line) s) := by
  refine .next ?_
  split
  · exact .of_kept (kept_ite (State.say_kept ..) ⟨rfl, rfl⟩)
  · exact s.monCommand_stays _ _ (.of_kept (State.say_kept ..))

theorem tapInstruction_keeps (s : State) (ir : Byte) : NextStays s (exec (.tapInstruction ir) s) := by
  change NextStays s (execTapInstruction ir s)
  unfold execTapInstruction
  split
  · exact .refused s _
  · exact .of_kept (s.tapLoad_kept ir)

/-! ### Every command -/

/-- The commands that return the guard settings to their reset values (R148). -/
def resetsGuards : Instr → Bool
  | .coldReset | .aonPowerUp .. | .brownOut .. => true
  | _ => false

theorem exec_keeps {c : Instr} (hc : resetsGuards c = false) (s : State) : NextStays s (exec c s) := by
  cases c with
  | nop => exact .of_begins runNop_kept
  | set => exact .of_begins runSet_kept
  | get => exact .of_begins runGet_kept
  | setblk => exact .of_begins runSetblk_kept
  | fence => exact .of_begins runFence_kept
  | waitfor => exact .of_begins runWaitfor_kept
  | skipif => exact .of_begins runSkipif_kept
  | signal => exact .of_begins runSignal_kept
  | qcreate => exact .of_begins runQcreate_kept
  | qdestroy => exact .of_begins runQdestroy_kept
  | qmodify => exact .of_begins runQmodify_kept
  | mode => exact .of_begins runMode_kept
  | portcfg => exact .of_begins runPortcfg_kept
  | portup => exact .of_begins runPortup_kept
  | portdown => exact .of_begins runPortdown_kept
  | spareMove => exact .of_begins runSpareMove_kept
  | spareReturn => exact .of_begins runSpareReturn_kept
  | slicetest => exact .of_begins runSlicetest_kept
  | rulewr => exact .of_begins runRulewr_kept
  | epoch => exact .of_begins runEpoch_kept
  | bindwr => exact .of_begins runBindwr_kept
  | pattwr => exact .of_begins runPattwr_kept
  | snap => exact .of_begins runSnap_kept
  | pairwrWrite => exact .of_begins runPairwr_kept
  | pairwrFill => exact .of_begins runPairwr_kept
  | pairwrInvalidate => exact .of_begins runPairwr_kept
  | statread => exact .of_begins runStatread_kept
  | timeset => exact .of_begins runTimeset_kept
  | timeadj => exact .of_begins runTimeadj_kept
  | timestep => exact .of_begins runTimestep_kept
  | keyload => exact .of_begins runKeyload_kept
  | keyretire => exact .of_begins runKeyretire_kept
  | guardset => exact .of_begins_stays runGuardset_stays
  | guardlock => exact .of_begins_stays runGuardlock_stays
  | dmarun => exact .of_begins runDmarun_kept
  | dmarunArm => exact .of_begins runDmarunArm_kept
  | dmastop => exact .of_begins runDmastop_kept
  | vote => exact .of_begins runVote_kept
  | unvote => exact .of_begins runUnvote_kept
  | hint => exact .of_begins runHint_kept
  | hintCancel => exact .of_begins runHintCancel_kept
  | capset => exact .of_begins runCapset_kept
  | csload => exact .of_begins runCsload_kept
  | csswapMap => exact .of_begins runCsswapMap_kept
  | csswapUnmap => exact .of_begins runCsswapUnmap_kept
  | csverify => exact .of_begins runCsverify_kept
  | twinbind => exact .of_begins runTwinbind_kept
  | twinrelease => exact .of_begins runTwinrelease_kept
  | headyield => exact .of_begins runHeadyield_kept
  | openRoutine => exact .of_begins runOpen_kept
  | routineStep q => exact .next (s.routineStep_stays q)
  | queueDoorbell => exact .of_kept (State.doorbellWrite_kept ..)
  | queuePoll => exact .of_kept (State.poll_kept ..)
  | entryFetch q idx data => exact entryFetch_keeps s q idx data
  | commandAccept => exact .of_kept (State.accept_kept ..)
  | injectConsume => exact .of_kept (State.consume_kept ..)
  | headWriteback => exact .of_kept (State.headWrite_kept ..)
  | completionPost q => exact .of_kept (kept_ite (State.postNext_kept ..) ⟨rfl, rfl⟩)
  | moderationTimeout => exact .of_kept (State.modTimeout_kept ..)
  | vectorPendingClear v firesToo => exact .of_kept (kept_trans (State.clearPending_kept ..) (kept_ite (State.fireVector_kept ..) ⟨rfl, rfl⟩))
  | vectorUnmask => exact .of_kept (State.unmask_kept ..)
  | directWrite => exact .of_kept (State.pathWrite_kept ..)
  | directRead => exact .of_kept (State.pathRead_kept ..)
  | paramLowWordRead => exact .of_kept (State.pathRead_kept ..)
  | timeNowRead => exact .of_kept (State.pathRead_kept ..)
  | compatCounterRead => exact .of_kept (State.pathRead_kept ..)
  | tableWindowRead => exact .of_kept (State.pathRead_kept ..)
  | bootGo => exact .of_kept (State.pathWrite_kept ..)
  | dmaDoorbell => exact .of_kept (State.dmaBell_kept ..)
  | move => exact .of_kept (State.chanMove_kept ..)
  | fill => exact .of_kept (State.chanFill_kept ..)
  | compare => exact .of_kept (State.chanCompare_kept ..)
  | loop => exact .of_kept (State.chanLoop_kept ..)
  | wait => exact .of_kept (State.chanWait_kept ..)
  | dmaWaitTimeout => exact .of_kept (kept_ite (State.haltChan_kept ..) ⟨rfl, rfl⟩)
  | dmaSignal => exact .of_kept (State.chanSignal_kept ..)
  | link => exact .of_kept (State.chanLink_kept ..)
  | dmaNop => exact .of_kept (State.chanNop_kept ..)
  | endProg => exact .of_kept (State.chanEnd_kept ..)
  | endReread c isLink target => exact .of_kept (kept_ite (kept_trans (State.setDma_kept ..) (State.rereadDone_kept ..)) ⟨rfl, rfl⟩)
  | dmaIdleCheck => exact .of_kept (State.idleCheck_kept ..)
  | masterResponse => exact .of_kept (State.masterAnswer_kept ..)
  | targetRead => exact .of_kept (State.targetRead_kept ..)
  | mgmtBlockWrite => exact .of_kept (State.mgmtWrite_kept ..)
  | mgmtProcessCall => exact .of_kept (State.mgmtRead_kept ..)
  | mgmtAddressMatch => exact .of_kept (State.mgmtMatch_kept ..)
  | frameReceive => exact .of_kept (State.receive_kept ..)
  | pauseFrameReceive => exact .of_kept (kept_ite (State.receive_kept ..) ⟨rfl, rfl⟩)
  | pauseExpire => exact .of_kept (State.pauseExpires_kept ..)
  | verifyReceive => exact .of_kept (kept_ite (State.sendVerify_kept ..) ⟨rfl, rfl⟩)
  | respondReceive p => exact .of_kept (kept_ite (State.setPort_kept ..) ⟨rfl, rfl⟩)
  | verifyTimer => exact .of_kept (State.verifyTimer_kept ..)
  | parse k parity => exact .of_kept (kept_ite (kept_trans (State.markReplica_kept ..) (State.parseNext_kept ..)) ⟨rfl, rfl⟩)
  | replicaReload => exact .of_kept (kept_ite (State.reloadReplica_kept ..) ⟨rfl, rfl⟩)
  | ledgerResponse => exact .of_kept (State.ledgerAnswer_kept ..)
  | probeTimeout => exact .of_kept (State.probeTimeout_kept ..)
  | ledgerUnreachable => exact .of_kept (State.ledgerLost_kept ..)
  | cacheCleaner => exact .of_kept (kept_ite (State.writeBack_kept ..) ⟨rfl, rfl⟩)
  | agingScan => exact .of_kept (State.ageVisit_kept ..)
  | sweepStep uncorrectable => exact .of_kept (kept_ite (State.shadowPart_kept ..) (State.sweepOn_kept ..))
  | pairTableClear => exact .of_kept (State.clearTable_kept ..)
  | coldResetWriteback => exact .of_kept (State.coldWriteback_kept ..)
  | handover => exact .of_kept (State.handNext_kept ..)
  | punt => exact .of_kept (kept_ite (State.puntNext_kept ..) ⟨rfl, rfl⟩)
  | recircReceive => exact .of_kept (State.recirculate_kept ..)
  | rxCreditReturn => exact .of_kept (State.creditReturn_kept ..)
  | heldBankLow k bank => exact .of_kept (kept_trans (State.setHeld_kept ..) (State.drained_kept ..))
  | pipelineTxFrame => exact .of_kept (State.pipeTx_kept ..)
  | injectFetch => exact .of_kept (kept_ite (State.injectFetched_kept ..) ⟨rfl, rfl⟩)
  | txFrameStart => exact .of_kept (State.txStart_kept ..)
  | preempt => exact .of_kept (State.preemptAt_kept ..)
  | txFrameEnd => exact .of_kept (State.txEnd_kept ..)
  | xoffChange => exact .of_kept (State.xoffChange_kept ..)
  | pfcRefresh => exact .of_kept (State.pfcRefresh_kept ..)
  | dutyClip => exact .of_kept (State.dutyClip_kept ..)
  | dutyRelease => exact .of_kept (State.dutyRelease_kept ..)
  | stormWatchdogRx => exact .of_kept (State.stormRx_kept ..)
  | stormWatchdogTx => exact .of_kept (State.stormTxFires_kept ..)
  | stormHoldExpire => exact .of_kept (State.stormRelease_kept ..)
  | guardRefusalReport => exact .of_kept (State.refusalReport_kept ..)
  | laneSignalDetect => exact .of_kept (State.signalDetect_kept ..)
  | alignmentMarker => exact .of_kept (State.marker_kept ..)
  | faultOrderedSet => exact .of_kept (State.faultSets_kept ..)
  | fecDegradeInterval => exact .of_kept (State.degradeInterval_kept ..)
  | laneCalibration => exact .of_kept (State.calibrate_kept ..)
  | ppsEdge => exact .of_kept (State.ppsIn_kept ..)
  | todMessage => exact .of_kept (State.todIn_kept ..)
  | holdoverTimeout => exact .of_kept (kept_ite (State.setTimeUnit_kept ..) ⟨rfl, rfl⟩)
  | ppsOutput => exact .of_kept (State.ppsDrive_kept ..)
  | armedInstant => exact .of_kept (kept_ite (State.fireDue_kept ..) ⟨rfl, rfl⟩)
  | alarmFire => exact .of_kept (State.alarmDue_kept ..)
  | collectiveTimeout op => exact collectiveTimeout_keeps s op
  | cascadeFlitReceive => exact .of_kept (State.flitIn_kept ..)
  | cascadeResend => exact .of_kept (State.resend_kept ..)
  | cascadeLinkDown => exact .of_kept (State.setLinkSt_kept ..)
  | heartbeat => exact .of_kept (State.heartbeat_kept ..)
  | memberDeclaredFailed => exact .of_kept (State.memberFails_kept ..)
  | cascadeTimeExchange => exact .of_kept (State.timeExchange_kept ..)
  | mirrorInterval => exact .of_kept (kept_ite (State.settleOther_kept ..) (State.mirrorNow_kept ..))
  | twinAdopt => exact .of_kept (State.twinAdopt_kept ..)
  | machineCheck what => exact machineCheck_keeps s what
  | periodicSelfTest => exact .of_kept (State.periodicTest_kept ..)
  | csParityReload => exact .of_kept (State.csParity_kept ..)
  | scrub => exact .of_kept (kept_ite (State.forEach_kept _ _ _ fun s _ => s.scrubWord_kept) ⟨rfl, rfl⟩)
  | sliceFault => exact .of_kept (State.sliceFault_kept ..)
  | internalChannelFault c => exact internalChannelFault_keeps s c
  | postmasterWatchdog => exact .of_kept (kept_ite (State.postmasterReset_kept ..) ⟨rfl, rfl⟩)
  | warmReset => exact .of_kept (State.warmReset_kept ..)
  | coldReset => exact absurd hc (by simp [resetsGuards])
  | resetRelease => exact .of_kept (State.release_kept ..)
  | aonPowerUp bootCount bodLatch lmRegion => exact absurd hc (by simp [resetsGuards])
  | brownOut bootCount => exact absurd hc (by simp [resetsGuards])
  | wake => exact .of_kept (kept_ite (State.wake_kept ..) ⟨rfl, rfl⟩)
  | domainRestoreStep => exact .of_kept (State.restoreStep_kept ..)
  | domainEntry => exact .of_kept (State.entryCycle_kept ..)
  | railGood d => exact .of_kept (kept_ite ⟨rfl, rfl⟩ (kept_trans (State.setDom_kept ..) (State.railEnds_kept ..)))
  | capEvaluation => exact .of_kept (State.capEvaluate_kept ..)
  | powerMeasurement => exact .of_kept (State.measure_kept ..)
  | measurementStale => exact .of_kept ⟨rfl, rfl⟩
  | capInput v => exact .of_kept ⟨rfl, rfl⟩
  | hintExpire n => exact hintExpire_keeps s n
  | monVer => exact .of_monitor (State.sayVer_kept _)
  | monBaud rate => exact .of_monitor (State.setBaud_kept ..)
  | monPeek addr n => exact .of_monitor (kept_ite (State.say_kept ..) (peekWords_kept ..))
  | monPoke addr v m => exact .of_monitor (State.poke_kept ..)
  | monExec op ins => exact .next (State.monCommand_stays _ _ _ (State.monExec_stays ..))
  | monJournal n => exact .next (State.monCommand_stays _ _ _ (.of_kept (kept_ite (State.say_kept ..)
      (kept_trans (State.forEach_kept _ _ _ State.sayEntry_kept) (State.say_kept ..)))))
  | monMcheck => exact .of_monitor (State.sayMcheck_kept _)
  | monLane l eye => exact .of_monitor (State.sayLane_kept ..)
  | monUnlockErase dbgEn readBackFails => exact monUnlockErase_keeps s dbgEn readBackFails
  | tapUnlock dbgEn readBackFails => exact .of_kept (kept_trans (kept_trans (State.setDbg_kept ..) (State.tapShift_kept _))
    (State.tapUnlock_kept ..))
  | dbgEnFall => exact .of_kept (State.setDbg_kept ..)
  | fecCodewordDecode => exact .of_kept (State.codeword_kept ..)
  | dmaWaitTimeEnd => exact .of_kept (kept_ite (State.chanNext_kept ..) ⟨rfl, rfl⟩)
  | corePllLock => exact .of_kept (State.pllLocks_kept ..)
  | selfTestEnd aFails bFails => exact .of_kept (kept_trans (State.selfTestEnd_kept ..) (State.takeDue_kept _))
  | heldBankHigh => exact .of_kept (State.setHeld_kept ..)
  | sentPauseExpire => exact .of_kept (State.sentExpires_kept ..)
  | monUnknownCommand line => exact monUnknownCommand_keeps s line
  | tapInstruction ir => exact tapInstruction_keeps s ir

/-- What the three resets leave of the commands and the guards. -/
theorem exec_resets {c : Instr} (hc : resetsGuards c = true) (s : State) :
    ∃ t, exec c s = .next t ∧ t.pending = s.pending ∧ t.guards = {} := by
  unfold resetsGuards at hc
  split at hc
  · exact ⟨s.coldReset, rfl, s.coldReset_pending, rfl⟩
  next b l r => exact ⟨_, rfl, s.powerUp_pending b l r, rfl⟩
  next b => exact ⟨_, rfl, s.powerUp_pending b true s.reg.region, rfl⟩
  · exact absurd hc Bool.false_ne_true

/-- A step is one TIME cycle or the front command on the rest of the queue. -/
theorem step_cases {s t : State} (h : step s = .next t) :
    (s.pending = [] ∧ t = s.idle) ∨ ∃ c rest, s.pending = c :: rest ∧ exec c { s with pending := rest } = .next t := by
  unfold step at h
  split at h
  next hp => exact .inl ⟨hp, (Host.Outcome.next.inj h).symm⟩
  next c rest hp => exact .inr ⟨c, rest, hp, h⟩

/-- Settles O4: a command is run on the state with the rest of the queue, which it keeps. -/
theorem everyStepTakesOneCommand : Obligations.EveryStepTakesOneCommand := by
  intro s t h
  obtain ⟨hp, ht⟩ | ⟨c, rest, hp, hc⟩ := step_cases h
  · rw [ht, s.idle_kept.1, hp]; rfl
  · rw [hp]
    cases hr : resetsGuards c with
    | false => exact (exec_keeps hr _ t hc).1
    | true =>
      obtain ⟨u, hu, hpend, -⟩ := exec_resets hr { s with pending := rest }
      obtain rfl := Host.Outcome.next.inj (hc.symm.trans hu)
      exact hpend

/-- Settles O5: the lock guards the settings against every command but the three resets, and against the TIME cycle. -/
theorem lockedGuardsOutlastEveryStep : Obligations.LockedGuardsOutlastEveryStep := by
  intro s t hlocked h hnot
  obtain ⟨-, ht⟩ | ⟨c, rest, hp, hc⟩ := step_cases h
  · rw [ht]; exact s.idle_kept.2
  · have hr : resetsGuards c = false := by
      obtain ⟨hcold, haon, hbrown⟩ := hnot c (by simp [hp])
      unfold resetsGuards
      split
      · exact absurd rfl hcold
      · exact absurd rfl (haon _ _ _)
      · exact absurd rfl (hbrown _)
      · rfl
    exact (exec_keeps hr _ t hc).2.1 hlocked

/-- Settles O7: the canonical form outlasts every command, and the empty table that a reset leaves has it. -/
theorem guardTableStaysCanonical : Obligations.GuardTableStaysCanonical := by
  intro s t hwf h
  obtain ⟨-, ht⟩ | ⟨c, rest, -, hc⟩ := step_cases h
  · rw [ht, s.idle_kept.2]; exact hwf
  · cases hr : resetsGuards c with
    | false => exact (exec_keeps hr _ t hc).2.2 hwf
    | true =>
      obtain ⟨u, hu, -, hguards⟩ := exec_resets hr { s with pending := rest }
      obtain rfl := Host.Outcome.next.inj (hc.symm.trans hu)
      rw [hguards]; rfl

/-! ### What can be refused -/

/-- The internal scan of an open test access port is refused; every other instruction of the port takes its register. -/
theorem exec_tapInstruction (ir : Byte) (s : State) : exec (.tapInstruction ir) s =
    if s.mon.tapOpen && ir != 0xFF && ir != 0x7C && Config.tapInternal ir then .refused .internalScan else .next (s.tapLoad ir) := rfl

/-- Settles O3: every arm but that of the test access port is a next state as it stands. -/
theorem onlyAnInternalScanStops : Obligations.OnlyAnInternalScanStops := by
  intro c s
  cases c
  case tapInstruction ir =>
    rw [exec_tapInstruction]
    split
    next h =>
      simp only [Bool.and_eq_true, bne_iff_ne] at h
      obtain ⟨⟨⟨hopen, hbypass⟩, hunlock⟩, hscan⟩ := h
      exact .inr ⟨ir, rfl, hopen, hbypass, hunlock, hscan, rfl⟩
    next => exact .inl ⟨_, rfl⟩
  all_goals exact .inl ⟨_, rfl⟩

/-! ### The step itself -/

/-- Settles O1: the step looks at the queue alone. -/
theorem queueStepRunsFrontCommand : Obligations.QueueStepRunsFrontCommand := fun _ _ => rfl

end Machine
end Sys2Proof
end

section
/-! What a state is besides some of its units, so that a frame is one equation: an operation that changes only units of `u` leaves `off u`. -/

namespace Sys2Proof
namespace Machine

/-- A choice of the units of `State`; of the Postmaster, the list of background activity (R57) apart from the rest. -/
structure Parts where
  out : Bool := false
  fresh : Bool := false
  nextId : Bool := false
  top : Bool := false
  pm : Bool := false
  background : Bool := false
  cs : Bool := false
  qs : Bool := false
  dma : Bool := false
  sorter : Bool := false
  reg : Bool := false
  stats : Bool := false
  time : Bool := false
  sec : Bool := false
  guards : Bool := false
  ports : Bool := false
  lanes : Bool := false
  frames : Bool := false
  power : Bool := false
  casc : Bool := false
  mon : Bool := false

/-- The state with the units of `u` blanked: what it is besides them. -/
def State.off (u : Parts) (s : State) : State :=
  { s with
    out := if u.out then [] else s.out, fresh := if u.fresh then 0 else s.fresh, nextId := if u.nextId then 0 else s.nextId,
    top := if u.top then {} else s.top,
    pm := { (if u.pm then {} else s.pm) with background := if u.background then [] else s.pm.background },
    cs := if u.cs then {} else s.cs,
    qs := if u.qs then {} else s.qs, dma := if u.dma then {} else s.dma, sorter := if u.sorter then {} else s.sorter,
    reg := if u.reg then {} else s.reg, stats := if u.stats then {} else s.stats, time := if u.time then {} else s.time,
    sec := if u.sec then {} else s.sec, guards := if u.guards then {} else s.guards, ports := if u.ports then [] else s.ports,
    lanes := if u.lanes then [] else s.lanes, frames := if u.frames then {} else s.frames, power := if u.power then {} else s.power,
    casc := if u.casc then {} else s.casc, mon := if u.mon then {} else s.mon }

/-- The state with the units of `u` as `t` has them. -/
def State.patch (u : Parts) (s t : State) : State :=
  { s with
    out := if u.out then t.out else s.out, fresh := if u.fresh then t.fresh else s.fresh,
    nextId := if u.nextId then t.nextId else s.nextId, top := if u.top then t.top else s.top,
    pm := { (if u.pm then t.pm else s.pm) with background := if u.background then t.pm.background else s.pm.background },
    cs := if u.cs then t.cs else s.cs, qs := if u.qs then t.qs else s.qs, dma := if u.dma then t.dma else s.dma,
    sorter := if u.sorter then t.sorter else s.sorter, reg := if u.reg then t.reg else s.reg,
    stats := if u.stats then t.stats else s.stats, time := if u.time then t.time else s.time, sec := if u.sec then t.sec else s.sec,
    guards := if u.guards then t.guards else s.guards, ports := if u.ports then t.ports else s.ports,
    lanes := if u.lanes then t.lanes else s.lanes, frames := if u.frames then t.frames else s.frames,
    power := if u.power then t.power else s.power, casc := if u.casc then t.casc else s.casc, mon := if u.mon then t.mon else s.mon }

/-- A unit that agrees besides a choice is taken from the first or, where it was chosen, from either. -/
theorem eq_ite_of_blank_eq {α : Type} {b : Bool} {d x y : α} (h : (if b then d else x) = if b then d else y) :
    x = if b then x else y := by
  cases b
  · exact h
  · rfl

/-- A state that agrees with `s` besides the units of `u` is `s` with its own units of `u`. -/
theorem State.eq_patch_of_off {u : Parts} {s t : State} (h : t.off u = s.off u) : t = s.patch u t := by
  have hbg : t.pm.background = if u.background then t.pm.background else s.pm.background :=
    eq_ite_of_blank_eq (congrArg (fun r => r.pm.background) h)
  have hpm : t.pm = { (if u.pm then t.pm else s.pm) with background := t.pm.background } := by
    cases hu : u.pm
    · have hrest := congrArg (fun r => ({ r.pm with background := t.pm.background } : Pm)) h
      simp only [State.off, hu, Bool.false_eq_true, if_false] at hrest
      exact hrest
    · rfl
  simp only [State.off, State.mk.injEq] at h
  obtain ⟨pending, out, fresh, clock, nextId, top, -, cs, qs, dma, sorter, reg, stats, time, regimes, sec, guards, guardQueue, ports,
    lanes, frames, power, casc, mon⟩ := h
  rw [State.patch, ← hbg, ← hpm, ← pending, ← clock, ← regimes, ← guardQueue, ← eq_ite_of_blank_eq out, ← eq_ite_of_blank_eq fresh,
    ← eq_ite_of_blank_eq nextId, ← eq_ite_of_blank_eq top, ← eq_ite_of_blank_eq cs, ← eq_ite_of_blank_eq qs, ← eq_ite_of_blank_eq dma,
    ← eq_ite_of_blank_eq sorter, ← eq_ite_of_blank_eq reg, ← eq_ite_of_blank_eq stats, ← eq_ite_of_blank_eq time,
    ← eq_ite_of_blank_eq sec, ← eq_ite_of_blank_eq guards, ← eq_ite_of_blank_eq ports, ← eq_ite_of_blank_eq lanes,
    ← eq_ite_of_blank_eq frames, ← eq_ite_of_blank_eq power, ← eq_ite_of_blank_eq casc, ← eq_ite_of_blank_eq mon]

section
variable {u : Parts}

/-! ### One unit replaced -/

theorem State.off_out (h : u.out) (s : State) (x : List Out) : State.off u { s with out := x } = s.off u := by simp [State.off, h]
theorem State.off_fresh (h : u.fresh) (s : State) (x : Nat) : State.off u { s with fresh := x } = s.off u := by simp [State.off, h]
theorem State.off_nextId (h : u.nextId) (s : State) (x : Nat) : State.off u { s with nextId := x } = s.off u := by simp [State.off, h]
theorem State.off_top (h : u.top) (s : State) (x : Unit00) : State.off u { s with top := x } = s.off u := by simp [State.off, h]
theorem State.off_pm (h : u.pm) (s : State) (x : Pm) (hx : x.background = s.pm.background) :
    State.off u { s with pm := x } = s.off u := by simp [State.off, h, hx]
theorem State.off_background (h : u.background) (s : State) (l : List (BitVec 16 × BitVec 2 × Nat)) :
    State.off u { s with pm := { s.pm with background := l } } = s.off u := by
  unfold State.off
  cases u.pm <;> simp [h]
theorem State.off_cs (h : u.cs) (s : State) (x : Cs) : State.off u { s with cs := x } = s.off u := by simp [State.off, h]
theorem State.off_qs (h : u.qs) (s : State) (x : Queues) : State.off u { s with qs := x } = s.off u := by simp [State.off, h]
theorem State.off_dma (h : u.dma) (s : State) (x : Dma) : State.off u { s with dma := x } = s.off u := by simp [State.off, h]
theorem State.off_sorter (h : u.sorter) (s : State) (x : Sorter) : State.off u { s with sorter := x } = s.off u := by simp [State.off, h]
theorem State.off_reg (h : u.reg) (s : State) (x : Registry) : State.off u { s with reg := x } = s.off u := by simp [State.off, h]
theorem State.off_stats (h : u.stats) (s : State) (x : Stats) : State.off u { s with stats := x } = s.off u := by simp [State.off, h]
theorem State.off_time (h : u.time) (s : State) (x : Time) : State.off u { s with time := x } = s.off u := by simp [State.off, h]
theorem State.off_sec (h : u.sec) (s : State) (x : Sec) : State.off u { s with sec := x } = s.off u := by simp [State.off, h]
theorem State.off_guards (h : u.guards) (s : State) (x : Guards) : State.off u { s with guards := x } = s.off u := by simp [State.off, h]
theorem State.off_ports (h : u.ports) (s : State) (x : Tab Port) : State.off u { s with ports := x } = s.off u := by simp [State.off, h]
theorem State.off_lanes (h : u.lanes) (s : State) (x : Tab Lane) : State.off u { s with lanes := x } = s.off u := by simp [State.off, h]
theorem State.off_frames (h : u.frames) (s : State) (x : Frames) : State.off u { s with frames := x } = s.off u := by simp [State.off, h]
theorem State.off_power (h : u.power) (s : State) (x : Power) : State.off u { s with power := x } = s.off u := by simp [State.off, h]
theorem State.off_casc (h : u.casc) (s : State) (x : Casc) : State.off u { s with casc := x } = s.off u := by simp [State.off, h]
theorem State.off_mon (h : u.mon) (s : State) (x : Mon) : State.off u { s with mon := x } = s.off u := by simp [State.off, h]

/-! ### Folds and choices -/

theorem State.forEach_off {α : Type} (s : State) (l : List α) {f : State → α → State} (h : ∀ s a, (f s a).off u = s.off u) :
    (s.forEach l f).off u = s.off u := by
  unfold State.forEach
  induction l generalizing s with
  | nil => rfl
  | cons a l ih => exact (ih (f s a)).trans (h s a)

theorem foldl_off {α : Type} (l : List α) {f : State → α → State} (h : ∀ s a, (f s a).off u = s.off u) (s : State) :
    (l.foldl f s).off u = s.off u := State.forEach_off s l h

theorem State.off_ite {c : Prop} [Decidable c] {a b s : State} (ha : a.off u = s.off u) (hb : b.off u = s.off u) :
    (if c then a else b).off u = s.off u := by split <;> assumption

end

end Machine
end Sys2Proof
end

section
/-! Frames of the lanes, the fabric, the queues and vectors, and the channels: the units of the state that an operation may change. -/

namespace Sys2Proof
namespace Machine

section
variable {u : Parts}

theorem State.setPort_off (hports : u.ports) (s : State) (p : ℕ) (v : Port) : (s.setPort p v).off u = s.off u := State.off_ports hports _ _

theorem State.emit_off (hout : u.out) (s : State) (o : Out) : (s.emit o).off u = s.off u := State.off_out hout _ _

theorem State.laneBeat_off (hout : u.out) (hports : u.ports) (s : State) (p : ℕ) : (s.laneBeat p).off u = s.off u := by
  grind [State.laneBeat, State.setPort_off, State.emit_off, State.forEach_off]

theorem State.laneCycle_off (hout : u.out) (hports : u.ports) (hframes : u.frames) (s : State) : s.laneCycle.off u = s.off u := by
  grind [State.laneCycle, State.laneBeat_off, State.off_frames, State.forEach_off]

theorem State.laneCycles_off (hout : u.out) (hports : u.ports) (hframes : u.frames) (x1 : ℕ) (x2 : State) :
    (State.laneCycles x1 x2).off u = x2.off u := by
  fun_induction State.laneCycles x1 x2
  all_goals grind [State.laneCycle_off]

theorem State.laneTime_off (hout : u.out) (hports : u.ports) (hframes : u.frames) (s : State) : s.laneTime.off u = s.off u := by
  simp [State.laneTime, State.laneCycles_off, State.off_frames, *]

theorem State.setVector_off (hqs : u.qs) (s : State) (v : ℕ) (x : Vector97) : (s.setVector v x).off u = s.off u := State.off_qs hqs _ _

theorem State.clearPending_off (hqs : u.qs) (s : State) (v : ℕ) : (s.clearPending v).off u = s.off u := by
  simp [State.clearPending, State.setVector_off, *]

theorem State.signalled_off (hqs : u.qs) (s : State) (v : ℕ) : (s.signalled v).off u = s.off u := State.off_qs hqs _ _

theorem State.sendReq_off (hout : u.out) (hdma : u.dma) (s : State) (r : Req) : (s.sendReq r).off u = s.off u := by
  grind [State.sendReq, State.emit_off, State.off_dma]

theorem State.takeFree_off (hfresh : u.fresh) (w : ℕ) (s : State) : (State.takeFree w s).2.off u = s.off u := State.off_fresh hfresh _ _

theorem State.setChan_off (hdma : u.dma) (s : State) (c : ℕ) (v : Chan) : (s.setChan c v).off u = s.off u := State.off_dma hdma _ _

theorem State.internalRuns_off (hfresh : u.fresh) (hdma : u.dma) (s : State) (w : ℕ) : (s.internalRuns w).off u = s.off u := by
  grind [State.internalRuns, State.takeFree_off, State.setChan_off]

theorem State.worksOn_off (hfresh : u.fresh) (hdma : u.dma) (s : State) (chan : Option ℕ) : (s.worksOn chan).off u = s.off u := by
  unfold State.worksOn
  repeat' split
  all_goals grind [State.internalRuns_off]

theorem State.queueWrite_off (hout : u.out) (hfresh : u.fresh) (hdma : u.dma) (s : State) (addr : HostAddr) (data : List Byte)
    (relaxed : Bool) (o : Owner) (chan : Option ℕ) : (s.queueWrite addr data relaxed o chan).off u = s.off u := by
  simp [State.queueWrite, State.sendReq_off, State.worksOn_off, foldl_off, *]

/-- Without an internal channel no free value is taken. -/
theorem State.queueWrite_off_of_chan_none (hout : u.out) (hdma : u.dma) (s : State) (addr : HostAddr) (data : List Byte) (relaxed : Bool)
    (o : Owner) : (s.queueWrite addr data relaxed o none).off u = s.off u := by
  simp [State.queueWrite, State.worksOn, State.sendReq_off, foldl_off, *]

theorem State.sendMessage_off (hout : u.out) (hqs : u.qs) (hdma : u.dma) (s : State) (v : ℕ) : (s.sendMessage v).off u = s.off u := by
  grind [State.sendMessage, State.setVector_off, State.queueWrite_off_of_chan_none]

theorem State.fireVector_off (hout : u.out) (hqs : u.qs) (hdma : u.dma) (s : State) (v : ℕ) : (s.fireVector v).off u = s.off u := by
  grind [State.fireVector, State.signalled_off, State.setVector_off, State.sendMessage_off]

theorem State.unmask_off (hout : u.out) (hqs : u.qs) (hdma : u.dma) (s : State) (v : ℕ) : (s.unmask v).off u = s.off u := by
  grind [State.unmask, State.setVector_off, State.sendMessage_off]

theorem State.setQueueOpt_off (hqs : u.qs) (s : State) (q : ℕ) (v : Option Queue) : (s.setQueueOpt q v).off u = s.off u := State.off_qs hqs _ _

theorem State.setQueue_off (hqs : u.qs) (s : State) (q : ℕ) (v : Queue) : (s.setQueue q v).off u = s.off u := by
  simp [State.setQueue, State.setQueueOpt_off, *]

theorem State.queueRead_off (hout : u.out) (hdma : u.dma) (s : State) (addr : HostAddr) (len : ℕ) (o : Owner) :
    (s.queueRead addr len o).off u = s.off u := by
  simp [State.queueRead, State.sendReq_off, *]

theorem State.issueFetch_off (hout : u.out) (hqs : u.qs) (hdma : u.dma) (s : State) (q : ℕ) (j : RIdx) (second : Bool) :
    (s.issueFetch q j second).off u = s.off u := by
  grind [State.issueFetch, State.queueRead_off, State.setQueue_off]

theorem State.poll_off (hout : u.out) (hqs : u.qs) (hdma : u.dma) (s : State) (q : ℕ) : (s.poll q).off u = s.off u := by
  grind [State.poll, State.setQueue_off, State.issueFetch_off, State.forEach_off]

theorem State.headWrite_off (hout : u.out) (hqs : u.qs) (hdma : u.dma) (s : State) (q : ℕ) : (s.headWrite q).off u = s.off u := by
  grind [State.headWrite, State.setQueue_off, State.queueWrite_off_of_chan_none]

theorem State.modTimeout_off (hout : u.out) (hqs : u.qs) (hdma : u.dma) (s : State) (q : ℕ) : (s.modTimeout q).off u = s.off u := by
  grind [State.modTimeout, State.fireVector_off]

theorem State.fetched_off (hout : u.out) (hqs : u.qs) (hdma : u.dma) (s : State) (q : ℕ) (f : Fetch) (data : BitVec 512) :
    (s.fetched q f data).off u = s.off u := by
  grind [State.fetched, State.issueFetch_off, State.setQueue_off]

theorem State.updChan_off (hdma : u.dma) (s : State) (c : ℕ) (f : Chan → Chan) : (s.updChan c f).off u = s.off u := by
  simp [State.updChan, State.setChan_off, *]

theorem State.orphan_off (hdma : u.dma) (s : State) (c : ℕ) : (s.orphan c).off u = s.off u := State.off_dma hdma _ _

theorem State.endBackground_off (hbackground : u.background) (s : State) (kind : BitVec 2) (unit : ℕ) :
    (s.endBackground kind unit).off u = s.off u := State.off_background hbackground _ _

theorem State.haltChan_off (hout : u.out) (hbackground : u.background) (hqs : u.qs) (hdma : u.dma) (s : State) (c : ℕ)
    (reason : BitVec 4) : (s.haltChan c reason).off u = s.off u := by
  grind [State.haltChan, State.updChan_off, State.orphan_off, State.endBackground_off, State.fireVector_off]

theorem State.readLine_off (hout : u.out) (hdma : u.dma) (s : State) (c : ℕ) : (s.readLine c).off u = s.off u := by
  simp [State.readLine, State.sendReq_off, State.updChan_off, *]

theorem State.chanGoesTo_off (hout : u.out) (hbackground : u.background) (hqs : u.qs) (hdma : u.dma) (s : State) (c : ℕ)
    (a : HostAddr) (jump : Bool) : (s.chanGoesTo c a jump).off u = s.off u := by
  grind [State.chanGoesTo, State.updChan_off, State.haltChan_off, State.readLine_off]

theorem State.chanNext_off (hout : u.out) (hbackground : u.background) (hqs : u.qs) (hdma : u.dma) (s : State) (c : ℕ) :
    (s.chanNext c).off u = s.off u := by
  simp [State.chanNext, State.chanGoesTo_off, *]

theorem State.chanLoop_off (hout : u.out) (hbackground : u.background) (hqs : u.qs) (hdma : u.dma) (s : State) (c : ℕ) (w : ChIns) :
    (s.chanLoop c w).off u = s.off u := by
  grind [State.chanLoop, State.haltChan_off, State.setChan_off, State.chanGoesTo_off, State.chanNext_off]

theorem State.chanWait_off (hout : u.out) (hbackground : u.background) (hqs : u.qs) (hdma : u.dma) (s : State) (c : ℕ) (w : ChIns) :
    (s.chanWait c w).off u = s.off u := by
  grind [State.chanWait, State.chanNext_off, State.updChan_off, State.setChan_off, State.haltChan_off]

theorem State.chanLink_off (hout : u.out) (hbackground : u.background) (hqs : u.qs) (hdma : u.dma) (s : State) (c : ℕ) (w : ChIns) :
    (s.chanLink c w).off u = s.off u := by
  grind [State.chanLink, State.haltChan_off, State.chanGoesTo_off]

theorem State.chanNop_off (hout : u.out) (hbackground : u.background) (hqs : u.qs) (hdma : u.dma) (s : State) (c : ℕ) (op : BitVec 4)
    (w : ChIns) : (s.chanNop c op w).off u = s.off u := by
  grind [State.chanNop, State.chanNext_off, State.haltChan_off]

theorem State.chanWrites_off (hout : u.out) (hdma : u.dma) (s : State) (c : ℕ) (a : ℕ) (off : ℕ) (bs : List Byte) (relaxed : Bool)
    (l : List (ℕ × ℕ)) : (s.chanWrites c a off bs relaxed l).off u = s.off u := by
  simp [State.chanWrites, State.sendReq_off, State.forEach_off, *]

theorem State.chanSignal_off (hout : u.out) (hbackground : u.background) (hqs : u.qs) (hdma : u.dma) (s : State) (c : ℕ) (w : ChIns) :
    (s.chanSignal c w).off u = s.off u := by
  grind [State.chanSignal, State.haltChan_off, State.chanWrites_off, State.updChan_off, State.chanNext_off, State.fireVector_off]

theorem State.pointsReached_off (hout : u.out) (hqs : u.qs) (hdma : u.dma) (s : State) (c : ℕ) (x : Span) :
    (s.pointsReached c x).2.off u = s.off u := by
  grind [State.pointsReached, State.fireVector_off, State.updChan_off]

theorem State.moveWrites_off (hout : u.out) (hdma : u.dma) {t : State} (s : State) (c : ℕ) (x : Span)
    (ht : State.moveWrites s c x = some t) : t.off u = s.off u := by
  grind [State.moveWrites, State.chanWrites_off, State.updChan_off]

theorem State.chanReads_off (hout : u.out) (hdma : u.dma) (s : State) (c : ℕ) (a : ℕ) (key : ℕ) (l : List (ℕ × ℕ)) :
    (s.chanReads c a key l).off u = s.off u := by
  simp [State.chanReads, State.sendReq_off, State.forEach_off, *]

theorem State.moveReads_off (hout : u.out) (hdma : u.dma) (s : State) (c : ℕ) (x : Span) : (s.moveReads c x).off u = s.off u := by
  simp [State.moveReads, State.chanReads_off, State.updChan_off, *]

theorem State.fillWrites_off (hout : u.out) (hdma : u.dma) (s : State) (c : ℕ) (v : Word) (x : Span) :
    (s.fillWrites c v x).off u = s.off u := by
  simp [State.fillWrites, State.chanWrites_off, State.updChan_off, *]

theorem State.advanceCursors_off (hdma : u.dma) (s : State) (c : ℕ) (n : ℕ) : (s.advanceCursors c n).off u = s.off u := by
  simp [State.advanceCursors, State.updChan_off, *]

theorem State.compareReads_off (hout : u.out) (hdma : u.dma) (s : State) (c : ℕ) (v : Option Word) (cont : Bool) (x : Span)
    (seen : Bool) : (s.compareReads c v cont x seen).off u = s.off u := by
  simp [State.compareReads, State.chanReads_off, State.updChan_off, *]

theorem State.compareOn_off (hout : u.out) (hfresh : u.fresh) (hbackground : u.background) (hqs : u.qs) (hdma : u.dma) (s : State)
    (c : ℕ) (v : Option Word) (cont : Bool) (x : Span) (seen : Bool) : (s.compareOn c v cont x seen).off u = s.off u := by
  unfold State.compareOn
  repeat' split
  all_goals grind [State.updChan_off, State.takeFree_off, State.haltChan_off, State.advanceCursors_off, State.chanNext_off,
    State.compareReads_off]

theorem State.chanProgress_off (hout : u.out) (hfresh : u.fresh) (hbackground : u.background) (hqs : u.qs) (hdma : u.dma) (s : State)
    (c : ℕ) : (s.chanProgress c).off u = s.off u := by
  grind [State.chanProgress, State.haltChan_off, State.moveWrites_off, State.chanNext_off, State.moveReads_off, State.fillWrites_off,
    State.compareOn_off, State.fireVector_off]

theorem State.beginXfer_off (hout : u.out) (hfresh : u.fresh) (hbackground : u.background) (hqs : u.qs) (hdma : u.dma) (s : State)
    (c : ℕ) (w : ChIns) (allowed : Bool) (h : Bool) (f : Bool) (x : Span → Xfer) : (s.beginXfer c w allowed h f x).off u = s.off u := by
  grind [State.beginXfer, State.pointsReached_off, State.setChan_off, State.chanProgress_off, State.updChan_off, State.haltChan_off]

theorem State.chanMove_off (hout : u.out) (hfresh : u.fresh) (hbackground : u.background) (hqs : u.qs) (hdma : u.dma) (s : State)
    (c : ℕ) (w : ChIns) : (s.chanMove c w).off u = s.off u := by
  grind [State.chanMove, State.beginXfer_off]

theorem State.chanFill_off (hout : u.out) (hfresh : u.fresh) (hbackground : u.background) (hqs : u.qs) (hdma : u.dma) (s : State)
    (c : ℕ) (w : ChIns) : (s.chanFill c w).off u = s.off u := by
  grind [State.chanFill, State.beginXfer_off]

theorem State.chanCompare_off (hout : u.out) (hfresh : u.fresh) (hbackground : u.background) (hqs : u.qs) (hdma : u.dma) (s : State)
    (c : ℕ) (w : ChIns) : (s.chanCompare c w).off u = s.off u := by
  grind [State.chanCompare, State.beginXfer_off]

theorem State.rereadEnd_off (hout : u.out) (hdma : u.dma) (s : State) (c : ℕ) : (s.rereadEnd c).off u = s.off u := by
  simp [State.rereadEnd, State.sendReq_off, State.updChan_off, *]

theorem State.shadowRuns_off (hbackground : u.background) (s : State) (c : ℕ) : (s.shadowRuns c).off u = s.off u := by
  simp [State.shadowRuns, State.endBackground_off, State.off_background, *]

theorem State.startProgram_off (hout : u.out) (hfresh : u.fresh) (hdma : u.dma) (s : State) (c : ℕ) (a : HostAddr) (prio : BitVec 2) :
    (s.startProgram c a prio).off u = s.off u := by
  simp [State.startProgram, State.takeFree_off, State.updChan_off, State.orphan_off, State.readLine_off, *]

theorem State.takeShadow_off (hout : u.out) (hfresh : u.fresh) (hbackground : u.background) (hdma : u.dma) (s : State) (c : ℕ) :
    (s.takeShadow c).off u = s.off u := by
  simp [State.takeShadow, State.shadowRuns_off, State.startProgram_off, State.updChan_off, *]

theorem State.programEnds_off (hout : u.out) (hfresh : u.fresh) (hbackground : u.background) (hqs : u.qs) (hdma : u.dma) (s : State)
    (c : ℕ) : (s.programEnds c).off u = s.off u := by
  grind [State.programEnds, State.fireVector_off, State.takeShadow_off, State.updChan_off, State.endBackground_off]

theorem State.chanEnd_off (hout : u.out) (hfresh : u.fresh) (hbackground : u.background) (hqs : u.qs) (hdma : u.dma) (s : State)
    (c : ℕ) (w : ChIns) : (s.chanEnd c w).off u = s.off u := by
  grind [State.chanEnd, State.updChan_off, State.rereadEnd_off, State.programEnds_off]

theorem State.rereadDone_off (hout : u.out) (hfresh : u.fresh) (hbackground : u.background) (hqs : u.qs) (hdma : u.dma) (s : State)
    (c : ℕ) (isLink : Bool) (target : HostAddr) : (s.rereadDone c isLink target).off u = s.off u := by
  grind [State.rereadDone, State.haltChan_off, State.updChan_off, State.chanGoesTo_off, State.rereadEnd_off, State.programEnds_off]

theorem State.setDma_off (hdma : u.dma) (s : State) (d : Dma) : (s.setDma d).off u = s.off u := State.off_dma hdma _ _

theorem State.idleCheck_off (hout : u.out) (hfresh : u.fresh) (hbackground : u.background) (hdma : u.dma) (s : State) (c : ℕ) :
    (s.idleCheck c).off u = s.off u := by
  grind [State.idleCheck, State.takeShadow_off, State.updChan_off]

end

end Machine
end Sys2Proof
end

section
/-! Frames of the domains, the ports and guards, the registry, the sorter's tables and the cascade's links. -/

namespace Sys2Proof
namespace Machine

section
variable {u : Parts}

theorem State.setDom_off (hpower : u.power) (s : State) (d : ℕ) (v : Domain) : (s.setDom d v).off u = s.off u := State.off_power hpower _ _

theorem State.startRail_off (hpower : u.power) (s : State) (d : ℕ) : (s.startRail d).off u = s.off u := by
  simp [State.startRail, State.setDom_off, *]

theorem State.startRails_off (hpower : u.power) (s : State) : s.startRails.off u = s.off u :=
  s.forEach_off _ fun _ _ => State.off_ite (State.startRail_off hpower _ _) rfl

theorem State.setVotes_off (hpower : u.power) (s : State) (c : ℕ) (v : BitVec 25) : (s.setVotes c v).off u = s.off u :=
  State.off_power hpower _ _

theorem State.placeVotes_off (hpower : u.power) (s : State) (c : ℕ) (ds : List ℕ) : (s.placeVotes c ds).off u = s.off u := by
  simp [State.placeVotes, State.setVotes_off, *]

theorem State.wake_off (hpower : u.power) (s : State) (source : BitVec 4) (detail : BitVec 16) :
    (s.wake source detail).off u = s.off u := by
  grind [State.wake, State.startRails_off, State.placeVotes_off, State.off_power]

theorem State.railEnds_off (hpower : u.power) (s : State) (d : ℕ) : (s.railEnds d).off u = s.off u := by
  grind [State.railEnds, State.setDom_off]

theorem State.pllLocks_off (hpower : u.power) (s : State) : s.pllLocks.off u = s.off u := by
  grind [State.pllLocks, State.railEnds_off, State.off_power, State.forEach_off]

theorem State.setPower_off (hpower : u.power) (s : State) (p : Power) : (s.setPower p).off u = s.off u := State.off_power hpower _ _

theorem State.setHints_off (hpower : u.power) (s : State) (l : List Hint) : (s.setHints l).off u = s.off u := by
  simp [State.setHints, State.setPower_off, *]

theorem State.setTimeUnit_off (htime : u.time) (s : State) (t : Time) : (s.setTimeUnit t).off u = s.off u := State.off_time htime _ _

theorem State.todIn_off (htime : u.time) (s : State) (b : List Byte) (inTime : Bool) : (s.todIn b inTime).off u = s.off u := by
  grind [State.todIn, State.setTimeUnit_off]

theorem State.pauseExpires_off (hports : u.ports) (s : State) (p : ℕ) (i : ℕ) : (s.pauseExpires p i).off u = s.off u := by
  grind [State.pauseExpires, State.setPort_off]

theorem State.sentExpires_off (hports : u.ports) (s : State) (p : ℕ) (i : ℕ) : (s.sentExpires p i).off u = s.off u := by
  grind [State.sentExpires, State.setPort_off]

theorem State.setSliceL_off (hsorter : u.sorter) (s : State) (k : ℕ) (v : SliceL) : (s.setSliceL k v).off u = s.off u :=
  State.off_sorter hsorter _ _

theorem State.setHeld_off (hsorter : u.sorter) (s : State) (k : ℕ) (bank : BitVec 1) (v : Bool) :
    (s.setHeld k bank v).off u = s.off u := by
  simp [State.setHeld, State.setSliceL_off, *]

theorem State.setLane_off (hlanes : u.lanes) (s : State) (l : ℕ) (v : Lane) : (s.setLane l v).off u = s.off u := State.off_lanes hlanes _ _

theorem State.calibrate_off (hlanes : u.lanes) (s : State) (l : ℕ) (rx : BitVec 15) (tx : BitVec 15) :
    (s.calibrate l rx tx).off u = s.off u := by
  grind [State.calibrate, State.setLane_off]

theorem State.setReg_off (hreg : u.reg) (s : State) (r : Registry) : (s.setReg r).off u = s.off u := State.off_reg hreg _ _

theorem State.clearTable_off (hreg : u.reg) (s : State) : s.clearTable.off u = s.off u := by
  grind [State.clearTable, State.setReg_off]

theorem State.setLinkSt_off (hcasc : u.casc) (s : State) (l : Link) (x : LinkSt) : (s.setLinkSt l x).off u = s.off u := by
  unfold State.setLinkSt
  repeat' split
  all_goals grind [State.off_casc]

theorem State.setCs_off (hcs : u.cs) (s : State) (c : Cs) : (s.setCs c).off u = s.off u := State.off_cs hcs _ _

theorem State.scrubReplica_off (hcs : u.cs) (hsorter : u.sorter) (s : State) (n : ℕ) (k : ℕ) : (s.scrubReplica n k).off u = s.off u := by
  grind [State.scrubReplica, State.setCs_off, State.setSliceL_off]

theorem State.scrubWord_off (hcs : u.cs) (hsorter : u.sorter) (s : State) : s.scrubWord.off u = s.off u := by
  grind [State.scrubWord, State.scrubReplica_off, State.setCs_off, State.forEach_off]

theorem State.reloadReplica_off (hcs : u.cs) (hsorter : u.sorter) (s : State) (k : ℕ) (w : ℕ) : (s.reloadReplica k w).off u = s.off u := by
  simp [State.reloadReplica, State.setCs_off, State.setSliceL_off, *]

theorem State.setProbes_off (hreg : u.reg) (s : State) (ps : List Probe) : (s.setProbes ps).off u = s.off u := by
  simp [State.setProbes, State.setReg_off, *]

theorem State.updRx_off (hframes : u.frames) (s : State) (fid : ℕ) (g : RxFr → RxFr) : (s.updRx fid g).off u = s.off u :=
  State.off_frames hframes _ _

theorem State.asUnsorted_off (hframes : u.frames) (s : State) (fid : ℕ) (r : BitVec 3) : (s.asUnsorted fid r).off u = s.off u := by
  simp [State.asUnsorted, State.updRx_off, *]

theorem State.probeFails_off (hframes : u.frames) (s : State) (p : Probe) (r : BitVec 3) : (s.probeFails p r).off u = s.off u := by
  simp [State.probeFails, State.asUnsorted_off, State.forEach_off, *]

theorem State.probeTimeout_off (hreg : u.reg) (hframes : u.frames) (s : State) (tag : BitVec 11) :
    (s.probeTimeout tag).off u = s.off u := by
  grind [State.probeTimeout, State.setProbes_off, State.probeFails_off]

theorem State.setTop_off (htop : u.top) (s : State) (y : Unit00) : (s.setTop y).off u = s.off u := State.off_top htop _ _

theorem State.pbFault_off (htop : u.top) (s : State) (k : ℕ) (f : Byte × Byte × Byte × Byte → Byte × Byte × Byte × Byte) :
    (s.pbFault k f).off u = s.off u := by
  simp [State.pbFault, State.setTop_off, *]

theorem State.pbCredit_off (htop : u.top) (s : State) (k : ℕ) : (s.pbCredit k).off u = s.off u := by
  simp [State.pbCredit, State.pbFault_off, *]

theorem State.creditReturn_off (htop : u.top) (hframes : u.frames) (s : State) (k : ℕ) (n : ℕ) : (s.creditReturn k n).off u = s.off u := by
  grind [State.creditReturn, State.pbCredit_off, State.off_frames]

theorem State.ledgerPut_off (hout : u.out) (hreg : u.reg) (s : State) (i : ℕ) (e : PairEntry) : (s.ledgerPut i e).off u = s.off u := by
  simp [State.ledgerPut, State.emit_off, State.off_reg, *]

theorem State.writeBack_off (hout : u.out) (hreg : u.reg) (s : State) (i : ℕ) : (s.writeBack i).off u = s.off u := by
  grind [State.writeBack, State.ledgerPut_off, State.off_reg]

theorem State.resend_off (hout : u.out) (hcasc : u.casc) (s : State) (l : Link) : (s.resend l).off u = s.off u := by
  grind [State.resend, State.emit_off, State.setLinkSt_off]

theorem State.setCasc_off (hcasc : u.casc) (s : State) (c : Casc) : (s.setCasc c).off u = s.off u := State.off_casc hcasc _ _

theorem State.setTwin_off (hcasc : u.casc) (s : State) (t : TwinSt) : (s.setTwin t).off u = s.off u := by
  simp [State.setTwin, State.setCasc_off, *]

theorem State.sendOn_off (hout : u.out) (hcasc : u.casc) (s : State) (l : Link) (p : Payload) (source : BitVec 3) (dest : Byte) :
    (s.sendOn l p source dest).off u = s.off u := by
  simp [State.sendOn, State.emit_off, State.setLinkSt_off, *]

theorem State.sendFlit_off (hout : u.out) (hcasc : u.casc) (s : State) (p : Payload) (dest : Byte) :
    (s.sendFlit p dest).off u = s.off u := by
  grind [State.sendFlit, State.sendOn_off]

theorem State.toTwin_off (hout : u.out) (hcasc : u.casc) (s : State) (p : Payload) : (s.toTwin p).off u = s.off u := by
  grind [State.toTwin, State.sendFlit_off]

theorem State.twinAdopt_off (hout : u.out) (hcasc : u.casc) (s : State) : s.twinAdopt.off u = s.off u := by
  grind [State.twinAdopt, State.setTwin_off, State.toTwin_off]

theorem State.ppsDrive_off (hout : u.out) (htime : u.time) (s : State) (rise : Bool) : (s.ppsDrive rise).off u = s.off u := by
  grind [State.ppsDrive, State.emit_off, State.setTimeUnit_off]

theorem State.toLanes_off (hports : u.ports) (s : State) (p : ℕ) (f : Pcs → Pcs) : (s.toLanes p f).off u = s.off u := by
  simp [State.toLanes, State.setPort_off, *]

theorem State.sendControl_off (hout : u.out) (hports : u.ports) (s : State) (p : ℕ) (frame : List Byte) :
    (s.sendControl p frame).off u = s.off u := by
  simp [State.sendControl, State.emit_off, State.toLanes_off, *]

theorem State.countCompat_off (hstats : u.stats) (s : State) (p : ℕ) (n : ℕ) (k : ℕ) : (s.countCompat p n k).off u = s.off u :=
  State.off_stats hstats _ _

theorem State.crossed_off (hout : u.out) (hqs : u.qs) (hdma : u.dma) (hstats : u.stats) (s : State) (p : ℕ) :
    (s.crossed p).off u = s.off u := by
  grind [State.crossed, State.fireVector_off, State.off_stats]

theorem State.count_off (hout : u.out) (hqs : u.qs) (hdma : u.dma) (hstats : u.stats) (s : State) (p : ℕ) (w : ℕ) (k : ℕ) :
    (s.count p w k).off u = s.off u := by
  grind [State.count, State.countCompat_off, State.crossed_off, State.off_stats]

theorem State.event_off (hout : u.out) (hqs : u.qs) (hdma : u.dma) (hstats : u.stats) (s : State) (p : ℕ) (w : ℕ) :
    (s.event p w).off u = s.off u := by
  simp [State.event, State.count_off, *]

theorem State.buildPause_off (hout : u.out) (hqs : u.qs) (hdma : u.dma) (hstats : u.stats) (hports : u.ports) (s : State) (p : ℕ) :
    (s.buildPause p).off u = s.off u := by
  grind [State.buildPause, State.setPort_off, State.sendControl_off, State.event_off, State.forEach_off]

theorem State.sendPause_off (hout : u.out) (hqs : u.qs) (hdma : u.dma) (hstats : u.stats) (hports : u.ports) (s : State) (p : ℕ) :
    (s.sendPause p).off u = s.off u := by
  grind [State.sendPause, State.buildPause_off, State.setPort_off]

theorem State.xoffChange_off (hout : u.out) (hqs : u.qs) (hdma : u.dma) (hstats : u.stats) (hports : u.ports) (s : State) (p : ℕ)
    (i : ℕ) (high : Bool) : (s.xoffChange p i high).off u = s.off u := by
  grind [State.xoffChange, State.setPort_off, State.sendPause_off]

theorem State.pfcRefresh_off (hout : u.out) (hqs : u.qs) (hdma : u.dma) (hstats : u.stats) (hports : u.ports) (s : State) (p : ℕ)
    (i : ℕ) : (s.pfcRefresh p i).off u = s.off u := by
  grind [State.pfcRefresh, State.sendPause_off]

theorem State.sendVerify_off (hout : u.out) (hports : u.ports) (s : State) (p : ℕ) (respond : Bool) :
    (s.sendVerify p respond).off u = s.off u := by
  simp [State.sendVerify, State.emit_off, State.toLanes_off, *]

theorem State.verifyTimer_off (hout : u.out) (hqs : u.qs) (hdma : u.dma) (hstats : u.stats) (hports : u.ports) (s : State) (p : ℕ) :
    (s.verifyTimer p).off u = s.off u := by
  grind [State.verifyTimer, State.sendVerify_off, State.setPort_off, State.event_off]

theorem State.sendFragment_off (hports : u.ports) (s : State) (p : ℕ) (f : TxFr) (b : ℕ) : (s.sendFragment p f b).off u = s.off u := by
  simp [State.sendFragment, State.toLanes_off, *]

theorem State.pauseDue_off (hout : u.out) (hqs : u.qs) (hdma : u.dma) (hstats : u.stats) (hports : u.ports) (s : State) (p : ℕ) :
    (s.pauseDue p).off u = s.off u := by
  grind [State.pauseDue, State.buildPause_off]

theorem State.preemptAt_off (hout : u.out) (hqs : u.qs) (hdma : u.dma) (hstats : u.stats) (hports : u.ports) (s : State) (p : ℕ)
    (b : ℕ) : (s.preemptAt p b).off u = s.off u := by
  grind [State.preemptAt, State.sendFragment_off, State.pauseDue_off, State.emit_off, State.event_off, State.setPort_off]

theorem State.degradeInterval_off (hout : u.out) (hqs : u.qs) (hdma : u.dma) (hstats : u.stats) (hports : u.ports) (s : State) (p : ℕ) :
    (s.degradeInterval p).off u = s.off u := by
  grind [State.degradeInterval, State.setPort_off, State.event_off]

theorem State.mirrorQueue_off (hout : u.out) (hcasc : u.casc) (s : State) (q : ℕ) : (s.mirrorQueue q).off u = s.off u := by
  simp [State.mirrorQueue, State.toTwin_off, *]

theorem State.writeEntry_off (hout : u.out) (hfresh : u.fresh) (hqs : u.qs) (hdma : u.dma) (hcasc : u.casc) (s : State) (q : ℕ)
    (e : RingEntry) : (s.writeEntry q e).off u = s.off u := by
  grind [State.writeEntry, State.setQueue_off, State.mirrorQueue_off, State.queueWrite_off]

theorem State.writeEntry_off_of_chan_none (hout : u.out) (hqs : u.qs) (hdma : u.dma) (hcasc : u.casc) (s : State) (q : ℕ) {e : RingEntry}
    (he : e.chan = none) : (s.writeEntry q e).off u = s.off u := by
  unfold State.writeEntry
  split
  · rfl
  · simp [State.mirrorQueue_off, State.queueWrite_off_of_chan_none, State.setQueue_off, *]

theorem State.putEntry_off (hout : u.out) (hfresh : u.fresh) (hqs : u.qs) (hdma : u.dma) (hcasc : u.casc) (s : State) (q : ℕ)
    (e : RingEntry) : (s.putEntry q e).off u = s.off u := by
  grind [State.putEntry, State.setQueue_off, State.writeEntry_off]

theorem State.putEntry_off_of_chan_none (hout : u.out) (hqs : u.qs) (hdma : u.dma) (hcasc : u.casc) (s : State) (q : ℕ) {e : RingEntry}
    (he : e.chan = none) : (s.putEntry q e).off u = s.off u := by
  unfold State.putEntry
  split
  · rfl
  · exact State.off_ite (State.setQueue_off hqs _ _ _) (State.writeEntry_off_of_chan_none hout hqs hdma hcasc _ _ he)

theorem State.genReserved_off (hout : u.out) (hfresh : u.fresh) (hqs : u.qs) (hdma : u.dma) (hcasc : u.casc) (s : State) (q : ℕ)
    (type : ℕ) (who : BitVec 3) (gen : BitVec 16) (body : List Byte) (chan : Option ℕ) :
    (s.genReserved q type who gen body chan).off u = s.off u := by
  grind [State.genReserved, State.setQueue_off, State.putEntry_off]

theorem State.genReserved_off_of_chan_none (hout : u.out) (hqs : u.qs) (hdma : u.dma) (hcasc : u.casc) (s : State) (q : ℕ) (type : ℕ)
    (who : BitVec 3) (gen : BitVec 16) (body : List Byte) : (s.genReserved q type who gen body none).off u = s.off u := by
  unfold State.genReserved
  split
  · rfl
  · exact (State.putEntry_off_of_chan_none hout hqs hdma hcasc _ _ rfl).trans (State.setQueue_off hqs _ _ _)

theorem State.reserveRecord_off (hqs : u.qs) (s : State) (q : ℕ) : (s.reserveRecord q).off u = s.off u := by
  grind [State.reserveRecord, State.setQueue_off]

theorem State.genRecord_off (hout : u.out) (hfresh : u.fresh) (hqs : u.qs) (hdma : u.dma) (hcasc : u.casc) (s : State) (q : ℕ)
    (type : ℕ) (gen : BitVec 16) (body : List Byte) (chan : Option ℕ) : (s.genRecord q type gen body chan).off u = s.off u := by
  simp [State.genRecord, State.genReserved_off, State.reserveRecord_off, *]

theorem State.genRecord_off_of_chan_none (hout : u.out) (hqs : u.qs) (hdma : u.dma) (hcasc : u.casc) (s : State) (q : ℕ) (type : ℕ)
    (gen : BitVec 16) (body : List Byte) : (s.genRecord q type gen body none).off u = s.off u :=
  (State.genReserved_off_of_chan_none hout hqs hdma hcasc _ _ _ _ _ _).trans (State.reserveRecord_off hqs _ _)

theorem State.flushEvents_off (hout : u.out) (hqs : u.qs) (hdma : u.dma) (hports : u.ports) (hcasc : u.casc) (x1 : ℕ) (x2 : ℕ)
    (x3 : State) : (State.flushEvents x1 x2 x3).off u = x3.off u := by
  fun_induction State.flushEvents x1 x2 x3
  all_goals grind [State.setPort_off, State.genRecord_off_of_chan_none]

theorem State.guardEvent_off (hout : u.out) (hqs : u.qs) (hdma : u.dma) (hports : u.ports) (hcasc : u.casc) (s : State) (p : ℕ)
    (guard : Byte) (prio : Byte) (action : Byte) (count : ℕ) : (s.guardEvent p guard prio action count).off u = s.off u := by
  grind [State.guardEvent, State.flushEvents_off, State.setPort_off]

theorem State.dutyClip_off (hout : u.out) (hqs : u.qs) (hdma : u.dma) (hstats : u.stats) (hports : u.ports) (hcasc : u.casc)
    (s : State) (p : ℕ) (i : ℕ) : (s.dutyClip p i).off u = s.off u := by
  grind [State.dutyClip, State.event_off, State.setPort_off, State.guardEvent_off, State.sendPause_off]

theorem State.honourLine_off (hout : u.out) (hqs : u.qs) (hdma : u.dma) (hstats : u.stats) (hports : u.ports) (s : State) (p : ℕ) :
    (s.honourLine p).off u = s.off u := by
  grind [State.honourLine, State.sendPause_off]

theorem State.dutyRelease_off (hout : u.out) (hqs : u.qs) (hdma : u.dma) (hstats : u.stats) (hports : u.ports) (hcasc : u.casc)
    (s : State) (p : ℕ) (i : ℕ) : (s.dutyRelease p i).off u = s.off u := by
  grind [State.dutyRelease, State.honourLine_off, State.guardEvent_off, State.setPort_off]

theorem State.stormRx_off (hout : u.out) (hqs : u.qs) (hdma : u.dma) (hstats : u.stats) (hports : u.ports) (hcasc : u.casc)
    (s : State) (p : ℕ) (i : ℕ) : (s.stormRx p i).off u = s.off u := by
  grind [State.stormRx, State.guardEvent_off, State.event_off, State.setPort_off]

theorem State.stormTxEngages_off (hout : u.out) (hqs : u.qs) (hdma : u.dma) (hstats : u.stats) (hports : u.ports) (hcasc : u.casc)
    (s : State) (p : ℕ) (i : ℕ) : (s.stormTxEngages p i).off u = s.off u := by
  simp [State.stormTxEngages, State.guardEvent_off, State.event_off, State.setPort_off, *]

theorem State.stormTxFires_off (hout : u.out) (hqs : u.qs) (hdma : u.dma) (hstats : u.stats) (hports : u.ports) (hcasc : u.casc)
    (s : State) (p : ℕ) (i : ℕ) : (s.stormTxFires p i).off u = s.off u := by
  grind [State.stormTxFires, State.sendPause_off, State.stormTxEngages_off, State.forEach_off]

theorem State.stormRelease_off (hout : u.out) (hqs : u.qs) (hdma : u.dma) (hstats : u.stats) (hports : u.ports) (hcasc : u.casc)
    (s : State) (p : ℕ) (i : ℕ) (sent : Bool) : (s.stormRelease p i sent).off u = s.off u := by
  grind [State.stormRelease, State.honourLine_off, State.guardEvent_off, State.setPort_off]

theorem State.setJournal_off (hpm : u.pm) (s : State) (j : List JEntry) : (s.setJournal j).off u = s.off u := State.off_pm hpm _ _ rfl

theorem State.updEntry_off (hpm : u.pm) (s : State) (jid : ℕ) (f : JEntry → JEntry) : (s.updEntry jid f).off u = s.off u := by
  simp [State.updEntry, State.setJournal_off, *]

theorem State.mismatch_off (hpm : u.pm) (s : State) (e : JEntry) : (s.mismatch e).off u = s.off u := by
  grind [State.mismatch, State.updEntry_off, State.off_pm]

theorem State.mirrorNow_off (hout : u.out) (hcasc : u.casc) (s : State) : s.mirrorNow.off u = s.off u := by
  grind [State.mirrorNow, State.toTwin_off, State.setCasc_off, foldl_off]

end

end Machine
end Sys2Proof
end

section
/-! Frames of the Postmaster: the start, the steps and the end of an instruction, and what each instruction runs. -/

namespace Sys2Proof
namespace Machine

section
variable {u : Parts}

theorem State.servedNow_off (hpm : u.pm) (s : State) (e : JEntry) : (s.servedNow e).off u = s.off u := State.off_pm hpm _ _ rfl

theorem State.countEmission_off (hpm : u.pm) (s : State) (jid : ℕ) : (s.countEmission jid).off u = s.off u := by
  simp [State.countEmission, State.updEntry_off, *]

theorem State.yieldPost_off (hout : u.out) (hfresh : u.fresh) (hpm : u.pm) (hqs : u.qs) (hdma : u.dma) (hcasc : u.casc) (s : State)
    (h : JEntry) : (s.yieldPost h).off u = s.off u := by
  grind [State.yieldPost, State.writeEntry_off, State.countEmission_off]

theorem State.takeTurn_off (hout : u.out) (hfresh : u.fresh) (hpm : u.pm) (hqs : u.qs) (hdma : u.dma) (hcasc : u.casc) (s : State)
    (e : JEntry) : (s.takeTurn e).off u = s.off u := by
  grind [State.takeTurn, State.servedNow_off, State.yieldPost_off]

theorem State.releaseDeferred_off (hpower : u.power) (s : State) (jid : ℕ) : (s.releaseDeferred jid).off u = s.off u := by
  simp [State.releaseDeferred, State.setDom_off, State.off_power, State.forEach_off, *]

theorem State.mirrorEntry_off (hout : u.out) (hcasc : u.casc) (s : State) (e : JEntry) (gone : Bool) :
    (s.mirrorEntry e gone).off u = s.off u := by
  grind [State.mirrorEntry, State.toTwin_off]

theorem State.dropEntry_off (hout : u.out) (hpm : u.pm) (hcasc : u.casc) (s : State) (jid : ℕ) : (s.dropEntry jid).off u = s.off u := by
  grind [State.dropEntry, State.mirrorEntry_off, State.setJournal_off]

theorem State.mirrorJid_off (hout : u.out) (hcasc : u.casc) (s : State) (jid : ℕ) : (s.mirrorJid jid).off u = s.off u := by
  grind [State.mirrorJid, State.mirrorEntry_off]

theorem State.finish_off (hout : u.out) (hpm : u.pm) (hpower : u.power) (hcasc : u.casc) (hmon : u.mon) (s : State) (jid : ℕ)
    (st : Status) (a : DWord) (b : DWord) : (s.finish jid st a b).off u = s.off u := by
  grind [State.finish, State.releaseDeferred_off, State.emit_off, State.dropEntry_off, State.mirrorJid_off, State.updEntry_off,
    State.off_pm, State.off_mon]

theorem State.commitStep_off (hout : u.out) (hfresh : u.fresh) (hpm : u.pm) (hcasc : u.casc) (s : State) (jid : ℕ) (r : Routine) :
    (s.commitStep jid r).off u = s.off u := by
  grind [State.commitStep, State.takeFree_off, State.mirrorJid_off, State.updEntry_off, State.off_pm]

theorem State.absorb_off (hout : u.out) (hfresh : u.fresh) (hpm : u.pm) (hpower : u.power) (hcasc : u.casc) (hmon : u.mon) (jid : ℕ)
    (x1 : Ran) : (State.absorb jid x1).off u = x1.state.off u := by
  unfold State.absorb
  repeat' split
  all_goals grind [State.finish_off, State.commitStep_off, State.updEntry_off, State.mirrorJid_off, State.off_pm, Ran.state]

theorem State.launch_off (hout : u.out) (hfresh : u.fresh) (hpm : u.pm) (hqs : u.qs) (hdma : u.dma) (hpower : u.power)
    (hcasc : u.casc) (hmon : u.mon) (s : State) (e : JEntry) (run : ℕ → BitVec 16 → Ins → State → Ran)
    (h : ∀ j q i t, (run j q i t).state.off u = t.off u) : (s.launch e run).off u = s.off u := by
  grind [State.launch, State.updEntry_off, State.takeTurn_off, State.finish_off, State.absorb_off, Ran.state]

theorem State.begin_off (hout : u.out) (hfresh : u.fresh) (hpm : u.pm) (hqs : u.qs) (hdma : u.dma) (hpower : u.power) (hcasc : u.casc)
    (hmon : u.mon) (s : State) (q : QId) (op : Byte) (sel : Bool) (i : Ins) (run : ℕ → BitVec 16 → Ins → State → Ran)
    (h : ∀ j q i t, (run j q i t).state.off u = t.off u) : (s.begin q op sel i run).off u = s.off u := by
  grind [State.begin, State.launch_off, Ran.state]

theorem Ran.ok_off (a : DWord) (b : DWord) (s : State) : (Ran.ok a b s).state.off u = s.off u := rfl

theorem runNop_off (x1 : ℕ) (x2 : BitVec 16) (x3 : Ins) (s : State) : (runNop x1 x2 x3 s).state.off u = s.off u := rfl

theorem State.setInj_off (hqs : u.qs) (s : State) (l : List Inj) : (s.setInj l).off u = s.off u := State.off_qs hqs _ _

theorem State.markHeld_off (hpm : u.pm) (hqs : u.qs) (s : State) (src : HeldSrc) : (s.markHeld src).off u = s.off u := by
  unfold State.markHeld
  repeat' split
  all_goals grind [State.updEntry_off, State.setInj_off]

theorem State.markPosting_off (hpm : u.pm) (hqs : u.qs) (s : State) (src : HeldSrc) : (s.markPosting src).off u = s.off u := by
  unfold State.markPosting
  repeat' split
  all_goals grind [State.updEntry_off, State.setInj_off]

theorem State.writeCompl_off (hout : u.out) (hfresh : u.fresh) (hpm : u.pm) (hqs : u.qs) (hdma : u.dma) (hcasc : u.casc) (s : State)
    (cq : QId) (src : HeldSrc) (c : Machine.Compl) (fire : Bool) : (s.writeCompl cq src c fire).off u = s.off u := by
  simp [State.writeCompl, State.writeEntry_off, State.markPosting_off, *]

theorem State.place_off (hout : u.out) (hfresh : u.fresh) (hpm : u.pm) (hqs : u.qs) (hdma : u.dma) (hcasc : u.casc) (s : State)
    (cq : QId) (src : HeldSrc) : (s.place cq src).off u = s.off u := by
  grind [State.place, State.markHeld_off, State.writeCompl_off, State.off_qs]

theorem State.postNext_off (hout : u.out) (hfresh : u.fresh) (hpm : u.pm) (hqs : u.qs) (hdma : u.dma) (hcasc : u.casc) (s : State)
    (q : ℕ) : (s.postNext q).off u = s.off u := by
  grind [State.postNext, State.place_off]

theorem State.postAll_off (hout : u.out) (hfresh : u.fresh) (hpm : u.pm) (hqs : u.qs) (hdma : u.dma) (hcasc : u.casc) (x1 : ℕ)
    (x2 : ℕ) (x3 : State) : (State.postAll x1 x2 x3).off u = x3.off u := by
  fun_induction State.postAll x1 x2 x3
  all_goals grind [State.postNext_off]

theorem State.signal_off (hout : u.out) (hpm : u.pm) (hqs : u.qs) (hdma : u.dma) (s : State) (jid : ℕ) (i : Ins) :
    (s.signal jid i).off u = s.off u := by
  grind [State.signal, State.countEmission_off, State.fireVector_off, State.queueWrite_off_of_chan_none]

theorem stepSignal_off (hout : u.out) (hfresh : u.fresh) (hpm : u.pm) (hqs : u.qs) (hdma : u.dma) (hcasc : u.casc) (jid : ℕ)
    (queue : BitVec 16) (i : Ins) (s : State) : (stepSignal jid queue i s).state.off u = s.off u := by
  grind [stepSignal, State.postAll_off, Ran.ok_off, State.signal_off, Ran.state]

theorem Ran.bad_off (st : Status) (s : State) : (Ran.bad st s).state.off u = s.off u := rfl

theorem runSignal_off (hout : u.out) (hfresh : u.fresh) (hpm : u.pm) (hqs : u.qs) (hdma : u.dma) (hcasc : u.casc) (jid : ℕ)
    (queue : BitVec 16) (i : Ins) (s : State) : (runSignal jid queue i s).state.off u = s.off u := by
  grind [runSignal, stepSignal_off, Ran.bad_off, Ran.state]

theorem runHint_off (hpower : u.power) (x1 : ℕ) (x2 : BitVec 16) (i : Ins) (s : State) : (runHint x1 x2 i s).state.off u = s.off u := by
  grind [runHint, Ran.ok_off, State.setHints_off, Ran.bad_off, Ran.state]

theorem runHintCancel_off (hpower : u.power) (x1 : ℕ) (x2 : BitVec 16) (x3 : Ins) (s : State) :
    (runHintCancel x1 x2 x3 s).state.off u = s.off u := by
  grind [runHintCancel, Ran.ok_off, State.setHints_off, Ran.state]

theorem runCapset_off (hpower : u.power) (x1 : ℕ) (x2 : BitVec 16) (i : Ins) (s : State) :
    (runCapset x1 x2 i s).state.off u = s.off u := by
  grind [runCapset, Ran.bad_off, State.setPower_off, Ran.ok_off, Ran.state]

theorem State.microPasses_off (hpm : u.pm) (s : State) : s.microPasses.off u = s.off u := State.off_pm hpm _ _ rfl

theorem stepVote_off (hpm : u.pm) (ds : BitVec 25) (s : State) : (stepVote ds s).state.off u = s.off u := by
  grind [stepVote, Ran.ok_off, State.microPasses_off, Ran.state]

theorem runVote_off (hpm : u.pm) (hpower : u.power) (x1 : ℕ) (x2 : BitVec 16) (i : Ins) (s : State) :
    (runVote x1 x2 i s).state.off u = s.off u := by
  grind [runVote, Ran.bad_off, State.setDom_off, stepVote_off, State.startRails_off, State.placeVotes_off, Ran.state]

theorem runUnvote_off (hpower : u.power) (x1 : ℕ) (x2 : BitVec 16) (i : Ins) (s : State) :
    (runUnvote x1 x2 i s).state.off u = s.off u := by
  grind [runUnvote, Ran.bad_off, State.off_power, Ran.state]

theorem runQcreate_off (hout : u.out) (hqs : u.qs) (hcasc : u.casc) (x1 : ℕ) (x2 : BitVec 16) (i : Ins) (s : State) :
    (runQcreate x1 x2 i s).state.off u = s.off u := by
  grind [runQcreate, Ran.bad_off, Ran.ok_off, State.mirrorQueue_off, State.setQueue_off, Ran.state]

theorem stepQdestroy_off (hout : u.out) (hfresh : u.fresh) (hpm : u.pm) (hqs : u.qs) (hdma : u.dma) (hcasc : u.casc) (i : Ins)
    (head0 : ℕ) (posted : Option ℕ) (s : State) : (stepQdestroy i head0 posted s).state.off u = s.off u := by
  grind [stepQdestroy, Ran.bad_off, State.microPasses_off, Ran.ok_off, State.mirrorQueue_off, State.setQueueOpt_off,
    State.takeFree_off, State.setQueue_off, State.place_off, Ran.state]

theorem State.fetchBelow_off (hout : u.out) (hqs : u.qs) (hdma : u.dma) (s : State) (q : ℕ) : (s.fetchBelow q).off u = s.off u := by
  grind [State.fetchBelow, State.issueFetch_off, State.forEach_off]

theorem runQdestroy_off (hout : u.out) (hfresh : u.fresh) (hpm : u.pm) (hqs : u.qs) (hdma : u.dma) (hcasc : u.casc) (x1 : ℕ)
    (x2 : BitVec 16) (i : Ins) (s : State) : (runQdestroy x1 x2 i s).state.off u = s.off u := by
  grind [runQdestroy, Ran.bad_off, State.setQueue_off, stepQdestroy_off, State.fetchBelow_off, Ran.state]

theorem runQmodify_off (hout : u.out) (hqs : u.qs) (hcasc : u.casc) (x1 : ℕ) (x2 : BitVec 16) (i : Ins) (s : State) :
    (runQmodify x1 x2 i s).state.off u = s.off u := by
  grind [runQmodify, Ran.bad_off, Ran.ok_off, State.mirrorQueue_off, State.setQueue_off, Ran.state]

theorem State.beginBackground_off (hbackground : u.background) (s : State) (queue : BitVec 16) (kind : BitVec 2) (unit : ℕ) :
    (s.beginBackground queue kind unit).off u = s.off u := State.off_background hbackground _ _

theorem runDmarun_off (hout : u.out) (hfresh : u.fresh) (hbackground : u.background) (hdma : u.dma) (x1 : ℕ) (queue : BitVec 16)
    (i : Ins) (s : State) : (runDmarun x1 queue i s).state.off u = s.off u := by
  grind [runDmarun, Ran.bad_off, Ran.ok_off, State.beginBackground_off, State.startProgram_off, Ran.state]

theorem runDmarunArm_off (hbackground : u.background) (hdma : u.dma) (x1 : ℕ) (queue : BitVec 16) (i : Ins) (s : State) :
    (runDmarunArm x1 queue i s).state.off u = s.off u := by
  grind [runDmarunArm, Ran.bad_off, Ran.ok_off, State.beginBackground_off, State.updChan_off, Ran.state]

theorem stepDmastop_off (i : Ins) (s : State) : (stepDmastop i s).state.off u = s.off u := by
  grind [stepDmastop, Ran.ok_off, Ran.state]

theorem State.spanWritten_off (hout : u.out) (hqs : u.qs) (hdma : u.dma) (s : State) (c : ℕ) (x : Span) (mk : Span → Xfer) :
    (s.spanWritten c x mk).off u = s.off u := by
  simp [State.spanWritten, State.pointsReached_off, State.advanceCursors_off, State.updChan_off, *]

theorem State.chanWritten_off (hout : u.out) (hfresh : u.fresh) (hbackground : u.background) (hqs : u.qs) (hdma : u.dma) (s : State)
    (c : ℕ) : (s.chanWritten c).off u = s.off u := by
  grind [State.chanWritten, State.chanProgress_off, State.spanWritten_off]

theorem State.stopNow_off (hout : u.out) (hfresh : u.fresh) (hbackground : u.background) (hqs : u.qs) (hdma : u.dma) (s : State)
    (c : ℕ) : (s.stopNow c).off u = s.off u := by
  simp [State.stopNow, State.setDma_off, State.chanWritten_off, State.updChan_off, *]

theorem runDmastop_off (hout : u.out) (hfresh : u.fresh) (hbackground : u.background) (hqs : u.qs) (hdma : u.dma) (x1 : ℕ)
    (x2 : BitVec 16) (i : Ins) (s : State) : (runDmastop x1 x2 i s).state.off u = s.off u := by
  grind [runDmastop, Ran.bad_off, State.endBackground_off, State.updChan_off, stepDmastop_off, State.stopNow_off, State.haltChan_off,
    Ran.state]

theorem runTwinbind_off (hout : u.out) (hcasc : u.casc) (x1 : ℕ) (x2 : BitVec 16) (i : Ins) (s : State) :
    (runTwinbind x1 x2 i s).state.off u = s.off u := by
  grind [runTwinbind, Ran.bad_off, State.sendFlit_off, State.setCasc_off, Ran.state]

theorem State.bumpQueues_off (hout : u.out) (hqs : u.qs) (hcasc : u.casc) (s : State) : s.bumpQueues.off u = s.off u := by
  grind [State.bumpQueues, State.mirrorQueue_off, State.setQueue_off, State.forEach_off]

theorem State.fetchNext_off (hout : u.out) (hqs : u.qs) (hdma : u.dma) (s : State) (q : ℕ) : (s.fetchNext q).off u = s.off u := by
  grind [State.fetchNext, State.issueFetch_off]

theorem State.retain_off (hout : u.out) (hpm : u.pm) (hqs : u.qs) (hdma : u.dma) (hcasc : u.casc) (s : State) (e : JEntry) :
    (s.retain e).off u = s.off u := by
  unfold State.retain
  dsimp only
  have hdrop (t : State) : (if e.st = .skipped then t.dropEntry e.id else t).off u = t.off u :=
    State.off_ite (State.dropEntry_off hout hpm hcasc _ _) rfl
  split
  · simp [State.fetchNext_off, State.mirrorQueue_off, State.setQueue_off, State.updEntry_off, *]
  · rw [hdrop, State.updEntry_off hpm]

theorem State.retainHeld_off (hout : u.out) (hpm : u.pm) (hqs : u.qs) (hdma : u.dma) (hcasc : u.casc) (s : State) :
    s.retainHeld.off u = s.off u := by
  grind [State.retainHeld, State.retain_off, State.forEach_off]

theorem State.unbind_off (hout : u.out) (hpm : u.pm) (hqs : u.qs) (hdma : u.dma) (hcasc : u.casc) (s : State) :
    s.unbind.off u = s.off u := by
  simp [State.unbind, State.retainHeld_off, State.setCasc_off, *]

theorem runTwinrelease_off (hout : u.out) (hpm : u.pm) (hqs : u.qs) (hdma : u.dma) (hcasc : u.casc) (x1 : ℕ) (x2 : BitVec 16)
    (x3 : Ins) (s : State) : (runTwinrelease x1 x2 x3 s).state.off u = s.off u := by
  grind [runTwinrelease, Ran.bad_off, Ran.ok_off, State.bumpQueues_off, State.unbind_off, State.toTwin_off, Ran.state]

theorem State.setGuardPort_off (hguards : u.guards) (s : State) (p : ℕ) (v : GuardPort) : (s.setGuardPort p v).off u = s.off u :=
  State.off_guards hguards _ _

theorem State.guardWrite_off (hguards : u.guards) (hports : u.ports) (s : State) (i : Ins) (p : ℕ) :
    (s.guardWrite i p).off u = s.off u := by
  grind [State.guardWrite, State.setGuardPort_off, State.setPort_off]

theorem State.guardResult_off (hfresh : u.fresh) (s : State) (g : GuardPort) (i : Ins) : (s.guardResult g i).2.off u = s.off u := by
  grind [State.guardResult, State.takeFree_off]

theorem runGuardset_off (hfresh : u.fresh) (hguards : u.guards) (hports : u.ports) (x1 : ℕ) (x2 : BitVec 16) (i : Ins) (s : State) :
    (runGuardset x1 x2 i s).state.off u = s.off u := by
  grind [runGuardset, Ran.bad_off, State.guardWrite_off, State.guardResult_off, Ran.ok_off, State.forEach_off, Ran.state]

theorem runGuardlock_off (hguards : u.guards) (x1 : ℕ) (x2 : BitVec 16) (x3 : Ins) (s : State) :
    (runGuardlock x1 x2 x3 s).state.off u = s.off u := by
  grind [runGuardlock, Ran.bad_off, Ran.ok_off, State.off_guards, Ran.state]

theorem State.acceptOffset_off (htime : u.time) (s : State) (theta : ℤ) : (s.acceptOffset theta).off u = s.off u := State.off_time htime _ _

theorem runTimeadj_off (htime : u.time) (x1 : ℕ) (x2 : BitVec 16) (i : Ins) (s : State) :
    (runTimeadj x1 x2 i s).state.off u = s.off u := by
  grind [runTimeadj, Ran.bad_off, State.acceptOffset_off, Ran.ok_off, Ran.state]

theorem State.zeroBuffer_off (hout : u.out) (hpm : u.pm) (hdma : u.dma) (s : State) (jid : ℕ) (buf : HostAddr) :
    (s.zeroBuffer jid buf).off u = s.off u := by
  simp [State.zeroBuffer, State.updEntry_off, State.queueWrite_off_of_chan_none, *]

theorem State.routineRead_off (hout : u.out) (hfresh : u.fresh) (hdma : u.dma) (s : State) (jid : ℕ) (base : HostAddr) (n : ℕ)
    (chan : Option ℕ) : (s.routineRead jid base n chan).off u = s.off u := by
  simp [State.routineRead, State.sendReq_off, State.worksOn_off, foldl_off, *]

theorem State.fetchHost_off (hout : u.out) (hfresh : u.fresh) (hpm : u.pm) (hdma : u.dma) (s : State) (jid : ℕ) (base : HostAddr) (n : ℕ)
    (chan : Option ℕ) : (s.fetchHost jid base n chan).state.off u = s.off u := by
  unfold State.fetchHost
  repeat' split
  all_goals simp [Fetched.state, State.routineRead_off, State.updEntry_off, *]

/-- Whatever has become of the bytes, the state that goes on is the same besides these units. -/
theorem State.off_of_fetchHost (hout : u.out) (hfresh : u.fresh) (hpm : u.pm) (hdma : u.dma) {s : State} {jid : ℕ} {base : HostAddr} {n : ℕ}
    {chan : Option ℕ} {r : Fetched} (h : s.fetchHost jid base n chan = r) : r.state.off u = s.off u :=
  h ▸ s.fetchHost_off hout hfresh hpm hdma jid base n chan

theorem State.setSec_off (hsec : u.sec) (s : State) (x : Sec) : (s.setSec x).off u = s.off u := State.off_sec hsec _ _

theorem State.clearScratch_off (hsec : u.sec) (s : State) (queue : BitVec 16) (jid : ℕ) : (s.clearScratch queue jid).off u = s.off u := by
  grind [State.clearScratch, State.setSec_off]

theorem State.setKeySlot_off (hsec : u.sec) (s : State) (n : ℕ) (v : KeySlot) : (s.setKeySlot n v).off u = s.off u := State.off_sec hsec _ _

theorem State.raiseMark_off (hfresh : u.fresh) (hsec : u.sec) (s : State) (n : ℕ) : (s.raiseMark n).off u = s.off u := by
  grind [State.raiseMark, State.takeFree_off, State.setKeySlot_off]

theorem installKey_off (hfresh : u.fresh) (hsec : u.sec) (jid : ℕ) (queue : BitVec 16) (i : Ins) (s : State) :
    (installKey jid queue i s).state.off u = s.off u := by
  grind [installKey, State.clearScratch_off, Ran.bad_off, Ran.ok_off, State.raiseMark_off, State.setKeySlot_off, Ran.state]

theorem stepKeyload_off (hout : u.out) (hfresh : u.fresh) (hpm : u.pm) (hdma : u.dma) (hsec : u.sec) (jid : ℕ) (queue : BitVec 16) (i : Ins)
    (phase : ℕ) (s : State) : (stepKeyload jid queue i phase s).state.off u = s.off u := by
  unfold stepKeyload
  dsimp only
  split
  · split
    · exact State.zeroBuffer_off hout hpm hdma ..
    · split
      next h => exact State.off_of_fetchHost hout hfresh hpm hdma h
      next h => exact State.off_of_fetchHost hout hfresh hpm hdma h
      next h =>
        rw [← State.off_of_fetchHost hout hfresh hpm hdma h]
        exact (State.zeroBuffer_off hout hpm hdma ..).trans (State.setSec_off hsec ..)
  · repeat' split
    all_goals simp [Ran.state, State.clearScratch_off, State.updEntry_off, *]
  · exact installKey_off hfresh hsec ..

theorem runKeyload_off (hout : u.out) (hfresh : u.fresh) (hpm : u.pm) (hdma : u.dma) (hsec : u.sec) (jid : ℕ) (queue : BitVec 16)
    (i : Ins) (s : State) : (runKeyload jid queue i s).state.off u = s.off u := by
  grind [runKeyload, Ran.bad_off, stepKeyload_off, Ran.state]

theorem State.setSecPort_off (hsec : u.sec) (s : State) (p : ℕ) (v : SecPort) : (s.setSecPort p v).off u = s.off u := State.off_sec hsec _ _

theorem stepKeyretire_off (hpm : u.pm) (hsec : u.sec) (n : ℕ) (s : State) : (stepKeyretire n s).state.off u = s.off u := by
  grind [stepKeyretire, State.microPasses_off, Ran.ok_off, State.setKeySlot_off, Ran.state]

theorem runKeyretire_off (hpm : u.pm) (hsec : u.sec) (x1 : ℕ) (x2 : BitVec 16) (i : Ins) (s : State) :
    (runKeyretire x1 x2 i s).state.off u = s.off u := by
  grind [runKeyretire, Ran.bad_off, Ran.ok_off, State.setKeySlot_off, State.setSecPort_off, stepKeyretire_off, Ran.state]

theorem TableKind.write_off (hsorter : u.sorter) (t : TableKind) (ks : List ℕ) (n : ℕ) (m : ℕ) (bs : List Byte) (s : State) :
    (TableKind.write t ks n m bs s).off u = s.off u := by
  simp [TableKind.write, State.setSliceL_off, State.forEach_off, *]

theorem TableKind.step_off (hout : u.out) (hfresh : u.fresh) (hpm : u.pm) (hdma : u.dma) (hsorter : u.sorter) (t : TableKind) (jid : ℕ)
    (i : Ins) (ks : List ℕ) (done : ℕ) (s : State) : (t.step jid i ks done s).state.off u = s.off u := by
  unfold TableKind.step
  dsimp only
  split
  · rfl
  · split
    next h => exact State.off_of_fetchHost hout hfresh hpm hdma h
    next h => exact State.off_of_fetchHost hout hfresh hpm hdma h
    next h =>
      rw [← State.off_of_fetchHost hout hfresh hpm hdma h]
      split
      · exact TableKind.write_off hsorter ..
      · exact TableKind.write_off hsorter ..

theorem runBindwr_off (hout : u.out) (hfresh : u.fresh) (hpm : u.pm) (hdma : u.dma) (hsorter : u.sorter) (jid : ℕ) (x1 : BitVec 16)
    (i : Ins) (s : State) : (runBindwr jid x1 i s).state.off u = s.off u := by
  grind [runBindwr, Ran.bad_off, TableKind.step_off, Ran.state]

theorem runPattwr_off (hout : u.out) (hfresh : u.fresh) (hpm : u.pm) (hdma : u.dma) (hsorter : u.sorter) (jid : ℕ) (x1 : BitVec 16)
    (i : Ins) (s : State) : (runPattwr jid x1 i s).state.off u = s.off u := by
  grind [runPattwr, Ran.bad_off, TableKind.step_off, Ran.state]

theorem State.setSliceP_off (hsorter : u.sorter) (s : State) (n : ℕ) (v : SliceP) : (s.setSliceP n v).off u = s.off u :=
  State.off_sorter hsorter _ _

theorem stepSlicetest_off (hfresh : u.fresh) (hsorter : u.sorter) (i : Ins) (steps : ℕ) (s : State) :
    (stepSlicetest i steps s).state.off u = s.off u := by
  grind [stepSlicetest, State.takeFree_off, Ran.ok_off, State.setSliceP_off, Ran.state]

theorem runSlicetest_off (hfresh : u.fresh) (hsorter : u.sorter) (x1 : ℕ) (x2 : BitVec 16) (i : Ins) (s : State) :
    (runSlicetest x1 x2 i s).state.off u = s.off u := by
  grind [runSlicetest, Ran.bad_off, stepSlicetest_off, State.setSliceP_off, Ran.state]

theorem stepCsverify_off (hcs : u.cs) (done : ℕ) (crc : Word) (s : State) :
    (stepCsverify done crc s).state.off u = s.off u := by
  unfold stepCsverify
  dsimp only
  split
  · rfl
  · split
    · rfl
    · exact State.setCs_off hcs _ _

theorem runCsverify_off (x1 : ℕ) (x2 : BitVec 16) (x3 : Ins) (s : State) : (runCsverify x1 x2 x3 s).state.off u = s.off u := rfl

theorem State.statWrite_off (hout : u.out) (hfresh : u.fresh) (hpm : u.pm) (hdma : u.dma) (s : State) (jid : ℕ) (base : HostAddr)
    (b : List Byte) : (s.statWrite jid base b).off u = s.off u := by
  simp [State.statWrite, State.updEntry_off, State.queueWrite_off, *]

theorem State.setStats_off (hstats : u.stats) (s : State) (x : Stats) : (s.setStats x).off u = s.off u := State.off_stats hstats _ _

theorem State.statClear_off (hstats : u.stats) (s : State) (set : ℕ) (unit : ℕ) : (s.statClear set unit).off u = s.off u := by
  grind [State.statClear, State.setStats_off, State.forEach_off]

theorem stepStatread_off (hout : u.out) (hfresh : u.fresh) (hpm : u.pm) (hdma : u.dma) (hstats : u.stats) (jid : ℕ) (i : Ins)
    (unit : ℕ) (bytes : ℕ) (s : State) : (stepStatread jid i unit bytes s).state.off u = s.off u := by
  grind [stepStatread, State.statWrite_off, State.statClear_off, State.updEntry_off, Ran.ok_off, Ran.state]

theorem runStatread_off (hout : u.out) (hfresh : u.fresh) (hpm : u.pm) (hdma : u.dma) (hstats : u.stats) (jid : ℕ) (x1 : BitVec 16)
    (i : Ins) (s : State) : (runStatread jid x1 i s).state.off u = s.off u := by
  grind [runStatread, Ran.bad_off, stepStatread_off, Ran.state]

theorem spareBegins_off (htop : u.top) (k : ℕ) (s : State) : (spareBegins k s).state.off u = s.off u := by
  simp [spareBegins, State.setTop_off, Ran.state, *]

theorem runSpareMove_off (htop : u.top) (x1 : ℕ) (x2 : BitVec 16) (i : Ins) (s : State) :
    (runSpareMove x1 x2 i s).state.off u = s.off u := by
  grind [runSpareMove, Ran.bad_off, spareBegins_off, Ran.state]

theorem runSpareReturn_off (htop : u.top) (x1 : ℕ) (x2 : BitVec 16) (i : Ins) (s : State) :
    (runSpareReturn x1 x2 i s).state.off u = s.off u := by
  grind [runSpareReturn, Ran.bad_off, spareBegins_off, Ran.state]

theorem State.resetLanes_off (hlanes : u.lanes) (s : State) (p : ℕ) : (s.resetLanes p).off u = s.off u := by
  simp [State.resetLanes, State.setLane_off, State.forEach_off, *]

theorem runPortcfg_off (hports : u.ports) (hlanes : u.lanes) (x1 : ℕ) (x2 : BitVec 16) (i : Ins) (s : State) :
    (runPortcfg x1 x2 i s).state.off u = s.off u := by
  grind [runPortcfg, Ran.bad_off, State.resetLanes_off, Ran.ok_off, State.setPort_off, Ran.state]

theorem State.updInj_off (hqs : u.qs) (s : State) (iid : ℕ) (f : Inj → Inj) : (s.updInj iid f).off u = s.off u := by
  simp [State.updInj, State.setInj_off, *]

theorem State.injRecord_off (hout : u.out) (hqs : u.qs) (hdma : u.dma) (hcasc : u.casc) (s : State) (e : Inj) (flags : Byte)
    (t : Stamp) (status : Byte) (len : ℕ) : (s.injRecord e flags t status len).off u = s.off u := by
  grind [State.injRecord, State.genReserved_off_of_chan_none]

theorem State.notSent_off (hout : u.out) (hqs : u.qs) (hdma : u.dma) (hcasc : u.casc) (s : State) (iid : ℕ) (reason : Byte) :
    (s.notSent iid reason).off u = s.off u := by
  grind [State.notSent, State.updInj_off, State.injRecord_off]

theorem State.pipeRecord_off (hout : u.out) (hqs : u.qs) (hdma : u.dma) (hcasc : u.casc) (s : State) (p : ℕ) (src : TxSrc)
    (flags : Byte) (t : Stamp) (status : Byte) (len : ℕ) : (s.pipeRecord p src flags t status len).off u = s.off u := by
  unfold State.pipeRecord
  repeat' split
  all_goals grind [State.genReserved_off_of_chan_none]

theorem State.unsent_off (hout : u.out) (hqs : u.qs) (hdma : u.dma) (hstats : u.stats) (hcasc : u.casc) (s : State) (p : ℕ)
    (src : TxSrc) (reason : Byte) (word : ℕ) : (s.unsent p src reason word).off u = s.off u := by
  unfold State.unsent
  repeat' split
  all_goals grind [State.event_off, State.notSent_off, State.pipeRecord_off]

theorem State.stopIntake_off (hout : u.out) (hqs : u.qs) (hdma : u.dma) (hstats : u.stats) (hports : u.ports) (hcasc : u.casc)
    (s : State) (p : ℕ) : (s.stopIntake p).off u = s.off u := by
  simp [State.stopIntake, State.setPort_off, State.unsent_off, State.forEach_off, *]

theorem runPortdown_off (hout : u.out) (hqs : u.qs) (hdma : u.dma) (hstats : u.stats) (hports : u.ports) (hcasc : u.casc) (x1 : ℕ)
    (x2 : BitVec 16) (i : Ins) (s : State) : (runPortdown x1 x2 i s).state.off u = s.off u := by
  grind [runPortdown, Ran.bad_off, Ran.ok_off, State.stopIntake_off, Ran.state]

theorem State.postEverything_off (hout : u.out) (hfresh : u.fresh) (hpm : u.pm) (hqs : u.qs) (hdma : u.dma) (hcasc : u.casc)
    (s : State) : s.postEverything.off u = s.off u := by
  simp [State.postEverything, State.postAll_off, State.forEach_off, *]

theorem State.enterMode_off (htop : u.top) (hcasc : u.casc) (s : State) (m : Mode) (cause : Byte) : (s.enterMode m cause).off u = s.off u := by
  simp [State.enterMode, State.off, *]

theorem State.fillReplica_off (hsorter : u.sorter) (s : State) (k : ℕ) : (s.fillReplica k).off u = s.off u := by
  simp [State.fillReplica, State.setSliceL_off, *]

theorem State.refreshReplicas_off (hsorter : u.sorter) (s : State) : s.refreshReplicas.off u = s.off u := by
  simp [State.refreshReplicas, State.fillReplica_off, State.forEach_off, *]

/-- A permitted transition changes the mode and what follows it. -/
theorem modeTarget_off (hout : u.out) (hfresh : u.fresh) (htop : u.top) (hpm : u.pm) (hqs : u.qs) (hdma : u.dma) (hsorter : u.sorter)
    (hcasc : u.casc) {t : State} (s : State) (queue : BitVec 16) (tgt : Mode) (ht : modeTarget s queue tgt = some t) :
    t.off u = s.off u := by
  unfold modeTarget at ht
  split at ht
  all_goals
    try split at ht
    all_goals cases ht
  · exact (State.postEverything_off hout hfresh hpm hqs hdma hcasc _).trans (State.enterMode_off htop hcasc ..)
  · exact (State.refreshReplicas_off hsorter _).trans ((State.off_pm hpm (s.enterMode .service 0x01) { s.pm with fromStore :=
      true } rfl).trans (State.enterMode_off htop hcasc ..))
  · exact (State.off_pm hpm (s.enterMode .provision 0x01) { s.pm with fromStore := false } rfl).trans (State.enterMode_off htop hcasc ..)
  · simp [State.enterMode_off, State.bumpQueues_off, State.off_casc, *]

theorem runMode_off (hout : u.out) (hfresh : u.fresh) (htop : u.top) (hpm : u.pm) (hqs : u.qs) (hdma : u.dma) (hsorter : u.sorter)
    (hcasc : u.casc) (x1 : ℕ) (queue : BitVec 16) (i : Ins) (s : State) : (runMode x1 queue i s).state.off u = s.off u := by
  grind [runMode, Ran.bad_off, modeTarget_off, Ran.ok_off, Ran.state]

theorem State.stampCs_off (hcs : u.cs) (s : State) : s.stampCs.off u = s.off u := by
  simp [State.stampCs, State.setCs_off, *]

theorem State.changeCs_off (hcs : u.cs) (hsorter : u.sorter) (s : State) (c : Cs) : (s.changeCs c).off u = s.off u := by
  grind [State.changeCs, State.setCs_off, State.refreshReplicas_off]

theorem stepCsload_off (hout : u.out) (hfresh : u.fresh) (hpm : u.pm) (hcs : u.cs) (hdma : u.dma) (hsorter : u.sorter) (jid : ℕ) (i : Ins)
    (done : ℕ) (s : State) : (stepCsload jid i done s).state.off u = s.off u := by
  unfold stepCsload
  dsimp only
  split
  next h => exact State.off_of_fetchHost hout hfresh hpm hdma h
  next h => exact (State.stampCs_off hcs _).trans (State.off_of_fetchHost hout hfresh hpm hdma h)
  next h =>
    rw [← State.off_of_fetchHost hout hfresh hpm hdma h]
    split
    all_goals simp [Ran.ok, Ran.state, Fetched.state, State.stampCs_off, State.changeCs_off, *]

theorem runCsload_off (hout : u.out) (hfresh : u.fresh) (hpm : u.pm) (hcs : u.cs) (hdma : u.dma) (hsorter : u.sorter) (jid : ℕ)
    (x1 : BitVec 16) (i : Ins) (s : State) : (runCsload jid x1 i s).state.off u = s.off u := by
  grind [runCsload, Ran.bad_off, stepCsload_off, State.setCs_off, Ran.state]

theorem swapTo_off (hcs : u.cs) (hsorter : u.sorter) (mapped : Bool) (page : BitVec 3) (s : State) :
    (swapTo mapped page s).state.off u = s.off u := by
  grind [swapTo, State.stampCs_off, State.changeCs_off, Ran.ok_off, Ran.state]

theorem runCsswapMap_off (hcs : u.cs) (hsorter : u.sorter) (x1 : ℕ) (x2 : BitVec 16) (i : Ins) (s : State) :
    (runCsswapMap x1 x2 i s).state.off u = s.off u := by
  grind [runCsswapMap, swapTo_off, Ran.state]

theorem runCsswapUnmap_off (hcs : u.cs) (hsorter : u.sorter) (x1 : ℕ) (x2 : BitVec 16) (x3 : Ins) (s : State) :
    (runCsswapUnmap x1 x2 x3 s).state.off u = s.off u := by
  grind [runCsswapUnmap, swapTo_off, Ran.state]

theorem State.setArmedEpoch_off (htime : u.time) (s : State) (a : Option Armed) : (s.setArmedEpoch a).off u = s.off u := by
  simp [State.setArmedEpoch, State.setTimeUnit_off, *]

theorem State.setArmedSnap_off (hreg : u.reg) (htime : u.time) (s : State) (a : Option Armed) : (s.setArmedSnap a).off u = s.off u := by
  simp [State.setArmedSnap, State.setReg_off, State.setTimeUnit_off, *]

theorem State.releaseLocal_off (hreg : u.reg) (htime : u.time) (s : State) : s.releaseLocal.off u = s.off u := by
  grind [State.releaseLocal, State.setArmedEpoch_off, State.setArmedSnap_off]

theorem State.setColls_off (hcasc : u.casc) (s : State) (l : List Coll) : (s.setColls l).off u = s.off u := by
  simp [State.setColls, State.setCasc_off, *]

theorem State.updColl_off (hcasc : u.casc) (s : State) (issuer : BitVec 3) (cid : ℕ) (f : Coll → Coll) :
    (s.updColl issuer cid f).off u = s.off u := by
  simp [State.updColl, State.setColls_off, *]

theorem State.noteReport_off (hcasc : u.casc) (s : State) (src : BitVec 3) (issuer : BitVec 3) (cid : ℕ) :
    (s.noteReport src issuer cid).off u = s.off u := by
  grind [State.noteReport, State.setCasc_off]

theorem State.noteCollEnd_off (hcasc : u.casc) (s : State) (op : Option Byte) : (s.noteCollEnd op).off u = s.off u := by
  unfold State.noteCollEnd
  split
  · exact State.setCasc_off hcasc _ _
  · exact State.setCasc_off hcasc _ _
  · rfl

theorem State.disarmColl_off (hreg : u.reg) (htime : u.time) (s : State) (issuer : BitVec 3) (cid : ℕ) :
    (s.disarmColl issuer cid).off u = s.off u := by
  grind [State.disarmColl, State.setArmedEpoch_off, State.setArmedSnap_off]

theorem State.memberEnded_off (hreg : u.reg) (htime : u.time) (hcasc : u.casc) (s : State) (issuer : BitVec 3) (cid : ℕ)
    (status : Byte) (t : DWord) (map : Byte) : (s.memberEnded issuer cid status t map).off u = s.off u := by
  grind [State.memberEnded, State.noteCollEnd_off, State.disarmColl_off, State.setColls_off, State.setCasc_off]

theorem State.toMembers_off (hout : u.out) (hcasc : u.casc) (s : State) (mask : Byte) (m : CollMsg) :
    (s.toMembers mask m).off u = s.off u := by
  simp [State.toMembers, State.sendFlit_off, *]

theorem State.headEnd_off (hout : u.out) (hreg : u.reg) (htime : u.time) (hcasc : u.casc) (s : State) (c : Coll) (status : Byte)
    (t : DWord) : (s.headEnd c status t).off u = s.off u := by
  simp [State.headEnd, State.memberEnded_off, State.toMembers_off, *]

theorem State.memberArm_off (hreg : u.reg) (htime : u.time) (hcasc : u.casc) (s : State) (c : Coll) : (s.memberArm c).off u = s.off u := by
  grind [State.memberArm, State.setColls_off, State.updColl_off, State.setArmedEpoch_off, State.setArmedSnap_off]

theorem State.headArm_off (hout : u.out) (hreg : u.reg) (htime : u.time) (hcasc : u.casc) (s : State) (c : Coll) :
    (s.headArm c).off u = s.off u := by
  grind [State.headArm, State.toMembers_off, State.memberArm_off]

theorem State.headStart_off (hout : u.out) (hreg : u.reg) (htime : u.time) (hcasc : u.casc) (s : State) (c : Coll) :
    (s.headStart c).off u = s.off u := by
  unfold State.headStart
  dsimp only
  repeat' split
  all_goals simp [State.headEnd_off, State.headArm_off, State.setColls_off, *]

theorem State.headNext_off (hout : u.out) (hreg : u.reg) (htime : u.time) (hcasc : u.casc) (s : State) (op : Byte) :
    (s.headNext op).off u = s.off u := by
  grind [State.headNext, State.headStart_off, State.setCasc_off]

theorem State.headCheck_off (hout : u.out) (hreg : u.reg) (htime : u.time) (hcasc : u.casc) (s : State) (issuer : BitVec 3) (cid : ℕ) :
    (s.headCheck issuer cid).off u = s.off u := by
  grind [State.headCheck, State.headNext_off, State.headEnd_off]

theorem State.memberHold_off (hreg : u.reg) (htime : u.time) (s : State) (issuer : BitVec 3) (cid : ℕ) :
    (s.memberHold issuer cid).off u = s.off u := by
  grind [State.memberHold, State.setArmedEpoch_off, State.setArmedSnap_off]

theorem State.headRelease_off (hout : u.out) (hreg : u.reg) (htime : u.time) (hcasc : u.casc) (s : State) (c : Coll) :
    (s.headRelease c).off u = s.off u := by
  unfold State.headRelease
  repeat' split
  all_goals grind [State.headArm_off, State.updColl_off]

theorem State.headTake_off (hout : u.out) (hreg : u.reg) (htime : u.time) (hcasc : u.casc) (s : State) (src : BitVec 3) (x1 : CollMsg) :
    (s.headTake src x1).off u = s.off u := by
  unfold State.headTake
  repeat' split
  all_goals grind [State.setCasc_off, State.headStart_off, State.headCheck_off, State.updColl_off, State.noteReport_off,
    State.memberHold_off, State.toMembers_off, State.headRelease_off]

theorem State.toHead_off (hout : u.out) (hreg : u.reg) (htime : u.time) (hcasc : u.casc) (s : State) (m : CollMsg) :
    (s.toHead m).off u = s.off u := by
  grind [State.toHead, State.headTake_off, State.sendFlit_off]

theorem State.report_off (hout : u.out) (hreg : u.reg) (htime : u.time) (hcasc : u.casc) (s : State) (issuer : BitVec 3) (cid : ℕ) :
    (s.report issuer cid).off u = s.off u := by
  grind [State.report, State.updColl_off, State.noteReport_off, State.sendFlit_off, State.toHead_off]

theorem State.armMember_off (hreg : u.reg) (htime : u.time) (s : State) (c : Coll) : (s.armMember c).off u = s.off u := by
  grind [State.armMember, State.setArmedEpoch_off, State.setArmedSnap_off]

theorem State.serveColl_off (hout : u.out) (hreg : u.reg) (htime : u.time) (hcasc : u.casc) (s : State) (c : Coll) :
    (s.serveColl c).off u = s.off u := by
  grind [State.serveColl, State.report_off, State.armMember_off, State.setArmedSnap_off, State.setArmedEpoch_off, State.toHead_off,
    State.updColl_off]

theorem State.readiness_off (hout : u.out) (hreg : u.reg) (htime : u.time) (hcasc : u.casc) (s : State) : s.readiness.off u = s.off u := by
  grind [State.readiness, State.releaseLocal_off, State.serveColl_off, State.forEach_off]

theorem State.issueColl_off (hout : u.out) (hreg : u.reg) (htime : u.time) (hcasc : u.casc) (s : State) (jid : ℕ) (queue : BitVec 16)
    (op : Byte) (a : Word) (target : BitVec 16) (b : DWord) (waited : Bool) :
    (s.issueColl jid queue op a target b waited).off u = s.off u := by
  simp [State.issueColl, State.setCasc_off, State.readiness_off, State.toHead_off, *]

theorem State.dropIssued_off (hcasc : u.casc) (s : State) (jid : ℕ) : (s.dropIssued jid).off u = s.off u := by
  simp [State.dropIssued, State.setCasc_off, *]

theorem snapEnds_off (hout : u.out) (hpm : u.pm) (hreg : u.reg) (htime : u.time) (hcasc : u.casc) (jid : ℕ) (i : Ins) (lead : ℕ)
    (s : State) : (snapEnds jid i lead s).state.off u = s.off u := by
  grind [snapEnds, State.microPasses_off, State.dropIssued_off, State.readiness_off, State.setCasc_off, State.setArmedSnap_off,
    Ran.state]

theorem State.beginShadow_off (hcasc : u.casc) (s : State) : s.beginShadow.off u = s.off u := by
  grind [State.beginShadow, State.setCasc_off]

theorem State.switchEpoch_off (hreg : u.reg) (hcasc : u.casc) (s : State) (t : DWord) : (s.switchEpoch t).off u = s.off u := by
  simp [State.switchEpoch, State.beginShadow_off, State.setReg_off, *]

theorem State.fireSnap_off (hreg : u.reg) (htime : u.time) (hcasc : u.casc) (s : State) : s.fireSnap.off u = s.off u := by
  grind [State.fireSnap, State.setArmedSnap_off, State.switchEpoch_off]

theorem snapBegins_off (hout : u.out) (hpm : u.pm) (hreg : u.reg) (htime : u.time) (hcasc : u.casc) (jid : ℕ) (queue : BitVec 16)
    (i : Ins) (lead : ℕ) (waited : Bool) (s : State) : (snapBegins jid queue i lead waited s).state.off u = s.off u := by
  unfold snapBegins
  repeat' split
  all_goals grind [State.issueColl_off, snapEnds_off, State.fireSnap_off, State.setArmedSnap_off, Ran.bad_off, Ran.state]

theorem runSnap_off (hout : u.out) (hpm : u.pm) (hreg : u.reg) (htime : u.time) (hcasc : u.casc) (jid : ℕ) (queue : BitVec 16)
    (i : Ins) (s : State) : (runSnap jid queue i s).state.off u = s.off u := by
  grind [runSnap, Ran.bad_off, snapBegins_off, Ran.state]

theorem stepFence_off (hout : u.out) (hpm : u.pm) (hreg : u.reg) (htime : u.time) (hcasc : u.casc) (jid : ℕ) (i : Ins) (since : ℕ)
    (dirty : List ℕ) (recs : List (ℕ × ℕ)) (before : ℕ) (s : State) :
    (stepFence jid i since dirty recs before s).state.off u = s.off u := by
  grind [stepFence, State.readiness_off, State.dropIssued_off, State.microPasses_off, Ran.ok_off, Ran.state]

theorem runFence_off (hout : u.out) (hpm : u.pm) (hreg : u.reg) (htime : u.time) (hcasc : u.casc) (jid : ℕ) (queue : BitVec 16)
    (i : Ins) (s : State) : (runFence jid queue i s).state.off u = s.off u := by
  grind [runFence, Ran.bad_off, State.issueColl_off, stepFence_off, Ran.state]

theorem State.timeHeadLost_off (htime : u.time) (s : State) : s.timeHeadLost.off u = s.off u := by
  grind [State.timeHeadLost, State.setTimeUnit_off]

theorem State.rebuildColls_off (hcasc : u.casc) (s : State) : s.rebuildColls.off u = s.off u := by
  simp [State.rebuildColls, State.setColls_off, *]

theorem State.reReport_off (hout : u.out) (hreg : u.reg) (htime : u.time) (hcasc : u.casc) (s : State) : s.reReport.off u = s.off u := by
  grind [State.reReport, State.rebuildColls_off, State.toHead_off, State.headCheck_off, State.forEach_off]

theorem State.newHead_off (hout : u.out) (hreg : u.reg) (htime : u.time) (hcasc : u.casc) (s : State) (h : BitVec 3) :
    (s.newHead h).off u = s.off u := by
  grind [State.newHead, State.timeHeadLost_off, State.setCasc_off, State.setTimeUnit_off, State.reReport_off]

theorem State.elect_off (hout : u.out) (hreg : u.reg) (htime : u.time) (hcasc : u.casc) (s : State) : s.elect.off u = s.off u := by
  grind [State.elect, State.setCasc_off, State.newHead_off]

theorem runHeadyield_off (hout : u.out) (hreg : u.reg) (htime : u.time) (hcasc : u.casc) (x1 : ℕ) (x2 : BitVec 16) (x3 : Ins)
    (s : State) : (runHeadyield x1 x2 x3 s).state.off u = s.off u := by
  grind [runHeadyield, State.elect_off, State.setCasc_off, Ran.ok_off, Ran.state]

theorem State.rulewrEnds_off (hout : u.out) (hsorter : u.sorter) (hreg : u.reg) (htime : u.time) (hcasc : u.casc) (s : State)
    (jid : ℕ) (ks : List ℕ) : (s.rulewrEnds jid ks).off u = s.off u := by
  simp [State.rulewrEnds, State.readiness_off, State.setSliceL_off, State.forEach_off, *]

theorem rulewrTail_off (hout : u.out) (hsorter : u.sorter) (hreg : u.reg) (htime : u.time) (hcasc : u.casc) (jid : ℕ) (ks : List ℕ)
    (x1 : Ran) : (rulewrTail jid ks x1).state.off u = x1.state.off u := by
  unfold rulewrTail
  repeat' split
  all_goals grind [State.rulewrEnds_off, Ran.state]

theorem stepRulewr_off (hout : u.out) (hfresh : u.fresh) (hpm : u.pm) (hdma : u.dma) (hsorter : u.sorter) (hreg : u.reg)
    (htime : u.time) (hcasc : u.casc) (jid : ℕ) (i : Ins) (ks : List ℕ) (done : ℕ) (s : State) :
    (stepRulewr jid i ks done s).state.off u = s.off u := by
  grind [stepRulewr, State.microPasses_off, rulewrTail_off, TableKind.step_off, Ran.state]

theorem runRulewr_off (hout : u.out) (hfresh : u.fresh) (hpm : u.pm) (hdma : u.dma) (hsorter : u.sorter) (hreg : u.reg)
    (htime : u.time) (hcasc : u.casc) (jid : ℕ) (x1 : BitVec 16) (i : Ins) (s : State) : (runRulewr jid x1 i s).state.off u = s.off u := by
  grind [runRulewr, Ran.bad_off, stepRulewr_off, State.setSliceL_off, State.forEach_off, Ran.state]

theorem epochEnds_off (hout : u.out) (hpm : u.pm) (hreg : u.reg) (htime : u.time) (hcasc : u.casc) (jid : ℕ) (i : Ins) (lead : ℕ)
    (s : State) : (epochEnds jid i lead s).state.off u = s.off u := by
  grind [epochEnds, State.microPasses_off, State.dropIssued_off, State.readiness_off, State.setCasc_off, State.setArmedEpoch_off,
    Ran.state]

theorem State.noteSwap_off (hcasc : u.casc) (s : State) (a : Armed) : (s.noteSwap a).off u = s.off u := by
  simp [State.noteSwap, State.setCasc_off, *]

theorem State.inReception_off (hfresh : u.fresh) (s : State) (k : ℕ) : (s.inReception k).2.off u = s.off u := by
  grind [State.inReception, State.takeFree_off]

theorem State.drainCheck_off (hbackground : u.background) (hsorter : u.sorter) (s : State) (k : ℕ) : (s.drainCheck k).off u = s.off u := by
  grind [State.drainCheck, State.endBackground_off, State.setSliceL_off]

theorem State.swapOne_off (hfresh : u.fresh) (hbackground : u.background) (hsorter : u.sorter) (s : State) (t : DWord)
    (queue : Option (BitVec 16)) (k : ℕ) : (s.swapOne t queue k).off u = s.off u := by
  grind [State.swapOne, State.inReception_off, State.setSliceL_off, State.drainCheck_off, State.beginBackground_off]

theorem State.fireEpoch_off (hfresh : u.fresh) (hbackground : u.background) (hsorter : u.sorter) (htime : u.time) (hcasc : u.casc)
    (s : State) : s.fireEpoch.off u = s.off u := by
  grind [State.fireEpoch, State.noteSwap_off, State.swapOne_off, State.setArmedEpoch_off, State.forEach_off]

theorem epochBegins_off (hout : u.out) (hfresh : u.fresh) (hpm : u.pm) (hbackground : u.background) (hsorter : u.sorter)
    (hreg : u.reg) (htime : u.time) (hcasc : u.casc) (jid : ℕ) (queue : BitVec 16) (i : Ins) (lead : ℕ) (waited : Bool) (s : State) :
    (epochBegins jid queue i lead waited s).state.off u = s.off u := by
  unfold epochBegins
  repeat' split
  all_goals grind [State.issueColl_off, epochEnds_off, State.fireEpoch_off, State.setArmedEpoch_off, Ran.bad_off, Ran.state]

theorem runEpoch_off (hout : u.out) (hfresh : u.fresh) (hpm : u.pm) (hbackground : u.background) (hsorter : u.sorter) (hreg : u.reg)
    (htime : u.time) (hcasc : u.casc) (jid : ℕ) (queue : BitVec 16) (i : Ins) (s : State) :
    (runEpoch jid queue i s).state.off u = s.off u := by
  grind [runEpoch, Ran.bad_off, epochBegins_off, Ran.state]

theorem State.freshTau_off (htime : u.time) (s : State) : s.freshTau.off u = s.off u := State.off_time htime _ _

theorem State.stepTo_off (htime : u.time) (s : State) (t : ℕ) : (s.stepTo t).off u = s.off u := by
  simp [State.stepTo, State.off_time, *]

theorem State.alarmDue_off (hout : u.out) (hqs : u.qs) (hdma : u.dma) (htime : u.time) (hpower : u.power) (s : State) (n : BitVec 1) :
    (s.alarmDue n).off u = s.off u := by
  grind [State.alarmDue, State.wake_off, State.fireVector_off, State.setTimeUnit_off]

theorem State.fireDue_off (hout : u.out) (hfresh : u.fresh) (hbackground : u.background) (hsorter : u.sorter) (hreg : u.reg)
    (htime : u.time) (hcasc : u.casc) (s : State) (snap : Bool) : (s.fireDue snap).off u = s.off u := by
  grind [State.fireDue, State.readiness_off, State.fireSnap_off, State.fireEpoch_off]

theorem State.afterStep_off (hout : u.out) (hfresh : u.fresh) (hbackground : u.background) (hqs : u.qs) (hdma : u.dma)
    (hsorter : u.sorter) (hreg : u.reg) (htime : u.time) (hpower : u.power) (hcasc : u.casc) (s : State) :
    s.afterStep.off u = s.off u := by
  simp [State.afterStep, State.alarmDue_off, State.fireDue_off, *]

theorem State.tellTime_off (hout : u.out) (hcasc : u.casc) (s : State) (step : Bool) : (s.tellTime step).off u = s.off u := by
  grind [State.tellTime, State.sendFlit_off]

theorem runTimeset_off (hout : u.out) (hfresh : u.fresh) (hbackground : u.background) (hqs : u.qs) (hdma : u.dma) (hsorter : u.sorter)
    (hreg : u.reg) (htime : u.time) (hpower : u.power) (hcasc : u.casc) (x1 : ℕ) (x2 : BitVec 16) (i : Ins) (s : State) :
    (runTimeset x1 x2 i s).state.off u = s.off u := by
  grind [runTimeset, Ran.bad_off, State.freshTau_off, State.stepTo_off, State.setTimeUnit_off, Ran.ok_off, State.afterStep_off,
    State.tellTime_off, Ran.state]

theorem runTimestep_off (hout : u.out) (hfresh : u.fresh) (hbackground : u.background) (hqs : u.qs) (hdma : u.dma)
    (hsorter : u.sorter) (hreg : u.reg) (htime : u.time) (hpower : u.power) (hcasc : u.casc) (x1 : ℕ) (x2 : BitVec 16) (i : Ins)
    (s : State) : (runTimestep x1 x2 i s).state.off u = s.off u := by
  grind [runTimestep, Ran.bad_off, State.freshTau_off, State.stepTo_off, State.setTimeUnit_off, Ran.ok_off, State.afterStep_off,
    State.tellTime_off, Ran.state]

theorem State.recount_off (hreg : u.reg) (s : State) (old : PairEntry) (new : PairEntry) : (s.recount old new).off u = s.off u := by
  grind [State.recount, State.off_reg]

theorem State.takeId_off (hnextId : u.nextId) (s : State) : s.takeId.2.off u = s.off u := State.off_nextId hnextId _ _

theorem State.setPairEntry_off (hout : u.out) (hnextId : u.nextId) (hreg : u.reg) (s : State) (i : ℕ) (e : PairEntry) :
    (s.setPairEntry i e).off u = s.off u := by
  grind [State.setPairEntry, State.recount_off, State.takeId_off, State.ledgerPut_off, State.off_reg]

theorem State.flushGaps_off (hout : u.out) (hqs : u.qs) (hdma : u.dma) (hreg : u.reg) (hcasc : u.casc) (x1 : ℕ) (x2 : State) :
    (State.flushGaps x1 x2).off u = x2.off u := by
  fun_induction State.flushGaps x1 x2
  all_goals grind [State.off_reg, State.genRecord_off_of_chan_none]

theorem State.emitGap_off (hout : u.out) (hqs : u.qs) (hdma : u.dma) (hreg : u.reg) (hcasc : u.casc) (s : State) (g : Gap) :
    (s.emitGap g).off u = s.off u := by
  simp [State.emitGap, State.flushGaps_off, State.off_reg, *]

theorem State.oweDelta_off (hcasc : u.casc) (s : State) (index : ℕ) (n : ℕ) (len : ℕ) (key : Option DWord) :
    (s.oweDelta index n len key).off u = s.off u := by
  grind [State.oweDelta, State.off_casc]

theorem State.uncorrectable_off (hout : u.out) (hfresh : u.fresh) (hnextId : u.nextId) (hqs : u.qs) (hdma : u.dma) (hreg : u.reg)
    (hcasc : u.casc) (s : State) (i : ℕ) : (s.uncorrectable i).off u = s.off u := by
  grind [State.uncorrectable, State.setReg_off, State.setPairEntry_off, State.takeFree_off, State.emitGap_off, State.oweDelta_off]

theorem State.readForWrite_off (hout : u.out) (hfresh : u.fresh) (hnextId : u.nextId) (hqs : u.qs) (hdma : u.dma) (hreg : u.reg)
    (hcasc : u.casc) (s : State) (n : ℕ) : (s.readForWrite n).off u = s.off u := by
  grind [State.readForWrite, State.takeFree_off, State.uncorrectable_off]

theorem State.pairwrOne_off (hout : u.out) (hfresh : u.fresh) (hnextId : u.nextId) (hqs : u.qs) (hdma : u.dma) (hreg : u.reg)
    (hcasc : u.casc) (s : State) (i : Ins) (n : ℕ) : (s.pairwrOne i n).2.off u = s.off u := by
  grind [State.pairwrOne, State.readForWrite_off, State.oweDelta_off, State.setPairEntry_off]

theorem pairwrList_off (hout : u.out) (hfresh : u.fresh) (hnextId : u.nextId) (hqs : u.qs) (hdma : u.dma) (hreg : u.reg)
    (hcasc : u.casc) (i : Ins) (x1 : List ℕ) (x2 : ℕ) (x3 : ℕ) (x4 : State) : (pairwrList i x1 x2 x3 x4).2.2.off u = x4.off u := by
  fun_induction pairwrList i x1 x2 x3 x4
  all_goals grind [State.pairwrOne_off]

theorem stepPairwr_off (hout : u.out) (hfresh : u.fresh) (hnextId : u.nextId) (hpm : u.pm) (hqs : u.qs) (hdma : u.dma) (hreg : u.reg)
    (hcasc : u.casc) (i : Ins) (done : ℕ) (written : ℕ) (skipped : ℕ) (s : State) :
    (stepPairwr i done written skipped s).state.off u = s.off u := by
  grind [stepPairwr, State.microPasses_off, pairwrList_off, Ran.ok_off, Ran.state]

theorem runPairwr_off (hout : u.out) (hfresh : u.fresh) (hnextId : u.nextId) (hpm : u.pm) (hqs : u.qs) (hdma : u.dma) (hreg : u.reg)
    (hcasc : u.casc) (x1 : ℕ) (x2 : BitVec 16) (i : Ins) (s : State) : (runPairwr x1 x2 i s).state.off u = s.off u := by
  grind [runPairwr, Ran.bad_off, stepPairwr_off, Ran.state]

theorem State.dropArriving_off (hsorter : u.sorter) (s : State) (p : ℕ) : (s.dropArriving p).off u = s.off u := by
  grind [State.dropArriving, State.setSliceL_off, State.forEach_off]

theorem State.sendCut_off (hfresh : u.fresh) (hports : u.ports) (s : State) (p : ℕ) (f : TxFr) : (s.sendCut p f).off u = s.off u := by
  simp [State.sendCut, State.takeFree_off, State.toLanes_off, *]

theorem State.zeroRetired_off (hsec : u.sec) (s : State) (p : ℕ) : (s.zeroRetired p).off u = s.off u := by
  grind [State.zeroRetired, State.setKeySlot_off, State.forEach_off]

theorem State.cutWire_off (hout : u.out) (hfresh : u.fresh) (hqs : u.qs) (hdma : u.dma) (hstats : u.stats) (hsec : u.sec) (hports : u.ports)
    (hcasc : u.casc) (s : State) (p : ℕ) : (s.cutWire p).off u = s.off u := by
  unfold State.cutWire
  dsimp only
  repeat' split
  all_goals simp [State.emit_off, State.unsent_off, State.sendCut_off, State.zeroRetired_off, State.setPort_off, *]

theorem State.leaveUp_off (hout : u.out) (hfresh : u.fresh) (hqs : u.qs) (hdma : u.dma) (hstats : u.stats) (hsec : u.sec)
    (hports : u.ports) (hcasc : u.casc) (s : State) (p : ℕ) : (s.leaveUp p).off u = s.off u := by
  simp [State.leaveUp, State.cutWire_off, State.event_off, State.setPort_off, *]

theorem State.startVerify_off (hout : u.out) (hports : u.ports) (s : State) (p : ℕ) : (s.startVerify p).off u = s.off u := by
  grind [State.startVerify, State.setPort_off, State.sendVerify_off]

theorem State.enterUp_off (hout : u.out) (hqs : u.qs) (hdma : u.dma) (hstats : u.stats) (hports : u.ports) (s : State) (p : ℕ) :
    (s.enterUp p).off u = s.off u := by
  grind [State.enterUp, State.setPort_off, State.startVerify_off, State.sendPause_off]

theorem State.readBuffer_off (hout : u.out) (hqs : u.qs) (hdma : u.dma) (s : State) (e : Inj) (cells : ℕ) :
    (s.readBuffer e cells).off u = s.off u := by
  simp [State.readBuffer, State.updInj_off, State.queueRead_off, foldl_off, *]

theorem State.readWhile_off (hout : u.out) (hqs : u.qs) (hdma : u.dma) (p : ℕ) (x1 : List Inj) (x2 : State) :
    (State.readWhile p x1 x2).off u = x2.off u := by
  fun_induction State.readWhile p x1 x2
  all_goals grind [State.readBuffer_off]

theorem State.startReads_off (hout : u.out) (hqs : u.qs) (hdma : u.dma) (s : State) (p : ℕ) : (s.startReads p).off u = s.off u := by
  grind [State.startReads, State.readWhile_off]

theorem State.noteRefusal_off (hports : u.ports) (s : State) (p : ℕ) (reason : Byte) : (s.noteRefusal p reason).off u = s.off u := by
  grind [State.noteRefusal, State.setPort_off]

theorem State.dropTx_off (hports : u.ports) (s : State) (p : ℕ) (fid : ℕ) : (s.dropTx p fid).off u = s.off u := by
  simp [State.dropTx, State.setPort_off, *]

theorem State.refuseTx_off (hout : u.out) (hqs : u.qs) (hdma : u.dma) (hstats : u.stats) (hports : u.ports) (hcasc : u.casc)
    (s : State) (p : ℕ) (f : TxFr) (reason : Byte) (word : ℕ) : (s.refuseTx p f reason word).off u = s.off u := by
  simp [State.refuseTx, State.startReads_off, State.unsent_off, State.noteRefusal_off, State.dropTx_off, *]

theorem State.flushTx_off (hout : u.out) (hqs : u.qs) (hdma : u.dma) (hstats : u.stats) (hports : u.ports) (hcasc : u.casc)
    (s : State) (p : ℕ) : (s.flushTx p).off u = s.off u := by
  simp [State.flushTx, State.refuseTx_off, State.forEach_off, *]

theorem State.setLink_off (hout : u.out) (hfresh : u.fresh) (hbackground : u.background) (hqs : u.qs) (hdma : u.dma)
    (hsorter : u.sorter) (hstats : u.stats) (hsec : u.sec) (hports : u.ports) (hcasc : u.casc) (s : State) (p : ℕ) (st : PortSt) :
    (s.setLink p st).off u = s.off u := by
  grind [State.setLink, State.dropArriving_off, State.leaveUp_off, State.setPort_off, State.endBackground_off, State.enterUp_off,
    State.flushTx_off, State.event_off]

theorem State.startPcs_off (hfresh : u.fresh) (hports : u.ports) (s : State) (p : ℕ) : (s.startPcs p).off u = s.off u := by
  simp [State.startPcs, State.takeFree_off, State.setPort_off, *]

/-- A port that does not leave UP keeps MACsec's buffers and what the slices hold of a frame in reception. -/
theorem State.setLink_off_of_not_up (hout : u.out) (hbackground : u.background) (hqs : u.qs) (hdma : u.dma) (hstats : u.stats)
    (hports : u.ports) (hcasc : u.casc)
    (s : State) (p : ℕ) (hst : (s.port p).st ≠ .up) (st : PortSt) : (s.setLink p st).off u = s.off u := by
  unfold State.setLink
  simp only [hst, if_false]
  split
  · rfl
  · repeat' split
    all_goals simp [State.setPort_off, State.endBackground_off, State.enterUp_off, State.flushTx_off, State.event_off, *]

theorem Port.ne_reset_of_configured {x : Port} (h : x.configured = true) : x ≠ {} := by
  rintro rfl
  exact absurd h (by decide)

/-- The bits of a configured port start anew; its state stays. -/
theorem State.port_startPcs_st {s : State} {p : ℕ} (h : (s.port p).configured = true) :
    ((s.startPcs p).port p).st = (s.port p).st := by
  unfold State.startPcs State.takeFree
  dsimp only
  rw [State.port_setPort _ _ _ (Port.ne_reset_of_configured (by exact h))]
  rfl

theorem State.enablePort_off (hout : u.out) (hfresh : u.fresh) (hbackground : u.background) (hqs : u.qs) (hdma : u.dma) (hstats : u.stats)
    (hports : u.ports) (hcasc : u.casc) (s : State) (p : ℕ) (hc : (s.port p).configured = true) :
    (s.enablePort p).off u = s.off u := by
  unfold State.enablePort
  dsimp only
  split
  next h =>
    generalize hx : ({ s.port p with turnE := false, turnP := false } : Port) = x
    have hxc : x.configured = true := hx ▸ hc
    have hport : (s.setPort p x).port p = x := State.port_setPort _ _ _ (Port.ne_reset_of_configured hxc)
    have hdown : x.st = .down := by rw [← hx]; simp at h; exact h.1
    have hst : (((s.setPort p x).startPcs p).port p).st ≠ .up := by
      rw [State.port_startPcs_st (by rw [hport]; exact hxc), hport, hdown]
      decide
    rw [State.setLink_off_of_not_up hout hbackground hqs hdma hstats hports hcasc _ _ hst, State.startPcs_off hfresh hports,
      State.setPort_off hports]
  next => rfl

theorem runPortup_off (hout : u.out) (hfresh : u.fresh) (hbackground : u.background) (hqs : u.qs) (hdma : u.dma) (hstats : u.stats)
    (hports : u.ports) (hcasc : u.casc) (jid : ℕ) (queue : BitVec 16) (i : Ins) (s : State) :
    (runPortup jid queue i s).state.off u = s.off u := by
  unfold runPortup
  dsimp only
  split
  next => rfl
  next h =>
    have hc : (s.port i.target.toNat).configured = true := by
      unfold State.portCheck at h
      dsimp only at h
      split at h
      · exact absurd h (by simp)
      next hb => exact (show i.target.toNat < 64 ∧ _ by simpa using hb).2
    repeat' split
    all_goals simp [Ran.bad, Ran.ok, Ran.state, State.beginBackground_off, State.enablePort_off, *]

end

end Machine
end Sys2Proof
end

section
/-! What an instruction, an event of a channel and an event of a unit leaves as it was (O31, O45, O60): one equation each, read off
the frames of the operations it is made of. -/

namespace Sys2Proof
namespace Machine

/-! ### Frames of outcomes -/

/-- Every next state of the outcome is `s` besides the units of `u`. -/
def NextOff (u : Parts) (s : State) (o : Host.Outcome State Fault Refusal) : Prop := ∀ t, o = .next t → t.off u = s.off u

theorem NextOff.next {u : Parts} {s t : State} (h : t.off u = s.off u) : NextOff u s (.next t) :=
  fun _ ht => Host.Outcome.next.inj ht ▸ h

/-- A frame of the outcome, as the statements write it. -/
theorem NextOff.eq_patch {u : Parts} {s t : State} {o : Host.Outcome State Fault Refusal} (h : NextOff u s o) (ht : o = .next t) :
    t = s.patch u t := State.eq_patch_of_off (h t ht)

/-- The units that the start and the end of every instruction may change: the Postmaster and its queues, the fabric, the mirror of them on the
cascade, the monitor's answer, the votes that a completion releases, and the free values. -/
structure Parts.HasPostmaster (u : Parts) : Prop where
  out : u.out
  fresh : u.fresh
  pm : u.pm
  background : u.background
  qs : u.qs
  dma : u.dma
  power : u.power
  casc : u.casc
  mon : u.mon

/-- Those units alone. -/
def Parts.postmaster : Parts :=
  { out := true, fresh := true, pm := true, background := true, qs := true, dma := true, power := true, casc := true, mon := true }

theorem NextOff.of_begins {u : Parts} {run : Nat → BitVec 16 → Ins → State → Ran}
    (h : ∀ j q i t, (run j q i t).state.off u = t.off u) {q : QId} {op : Byte} {sel : Bool} {i : Ins} {s : State}
    (hu : u.HasPostmaster := by exact ⟨rfl, rfl, rfl, rfl, rfl, rfl, rfl, rfl, rfl⟩) : NextOff u s (begins q op sel i run s) :=
  .next (State.begin_off hu.out hu.fresh hu.pm hu.qs hu.dma hu.power hu.casc hu.mon s q op sel i run h)

/-! ### Channels, queues and vectors -/

/-- The units of the queues and the vectors, with what crosses the boundary. -/
def Parts.queues : Parts := { out := true, qs := true, dma := true }

/-- The units of a channel's instruction. -/
def Parts.channel : Parts := { Parts.queues with background := true }

theorem entryFetch_off (s : State) (q : QId) (idx : RIdx) (data : BitVec 512) : NextOff .queues s (exec (.entryFetch q idx data) s) := by
  refine .next ?_
  split
  · split
    · exact (State.fetched_off rfl rfl rfl ..).trans (State.off_dma rfl s _)
    · exact State.off_ite (State.fetched_off rfl rfl rfl ..) rfl
  · rfl

theorem queueEvent_off {s : State} {c : Instr} {v : BitVec 11} {q : QId} {idx : RIdx} {data : BitVec 512} {b : Bool}
    (hc : c ∈ [.vectorPendingClear v b, .vectorUnmask v, .queuePoll q, .headWriteback q, .moderationTimeout q, .entryFetch q idx data]) :
    NextOff .queues s (exec c s) := by
  simp only [List.mem_cons, List.not_mem_nil, or_false] at hc
  rcases hc with rfl | rfl | rfl | rfl | rfl | rfl
  · exact .next ((State.off_ite (State.fireVector_off rfl rfl rfl ..) rfl).trans (State.clearPending_off rfl ..))
  · exact .next (State.unmask_off rfl rfl rfl ..)
  · exact .next (State.poll_off rfl rfl rfl ..)
  · exact .next (State.headWrite_off rfl rfl rfl ..)
  · exact .next (State.modTimeout_off rfl rfl rfl ..)
  · exact entryFetch_off s q idx data

theorem channelStep_off {s : State} {c : Instr} {n : BitVec 5} {w : ChIns} {op : BitVec 4}
    (hc : c ∈ [.loop n w, .wait n w, .link n w, .dmaNop n op w, .dmaSignal n w, .dmaWaitTimeEnd n, .dmaWaitTimeout n]) :
    NextOff .channel s (exec c s) := by
  simp only [List.mem_cons, List.not_mem_nil, or_false] at hc
  rcases hc with rfl | rfl | rfl | rfl | rfl | rfl | rfl
  · exact .next (State.chanLoop_off rfl rfl rfl rfl ..)
  · exact .next (State.chanWait_off rfl rfl rfl rfl ..)
  · exact .next (State.chanLink_off rfl rfl rfl rfl ..)
  · exact .next (State.chanNop_off rfl rfl rfl rfl ..)
  · exact .next (State.chanSignal_off rfl rfl rfl rfl ..)
  · exact .next (State.off_ite (State.chanNext_off rfl rfl rfl rfl ..) rfl)
  · exact .next (State.off_ite (State.haltChan_off rfl rfl rfl rfl ..) rfl)

theorem channelTransfer_off {s : State} {c : Instr} {n : BitVec 5} {w : ChIns} {b : Bool} {l : BitVec 57}
    (hc : c ∈ [.move n w, .fill n w, .compare n w, .endProg n w, .endReread n b l]) :
    NextOff { Parts.channel with fresh := true } s (exec c s) := by
  simp only [List.mem_cons, List.not_mem_nil, or_false] at hc
  rcases hc with rfl | rfl | rfl | rfl | rfl
  · exact .next (State.chanMove_off rfl rfl rfl rfl rfl ..)
  · exact .next (State.chanFill_off rfl rfl rfl rfl rfl ..)
  · exact .next (State.chanCompare_off rfl rfl rfl rfl rfl ..)
  · exact .next (State.chanEnd_off rfl rfl rfl rfl rfl ..)
  · exact .next (State.off_ite ((State.rereadDone_off rfl rfl rfl rfl rfl ..).trans (State.setDma_off rfl ..)) rfl)

theorem dmaIdleCheck_off (s : State) (n : BitVec 5) :
    NextOff { out := true, fresh := true, dma := true, background := true } s (exec (.dmaIdleCheck n) s) :=
  .next (State.idleCheck_off rfl rfl rfl rfl ..)

theorem internalChannelFault_off (s : State) (m : BitVec 2) :
    NextOff { fresh := true, dma := true } s (exec (.internalChannelFault m) s) :=
  .next ((State.forEach_off _ _ fun _ _ => State.internalRuns_off rfl rfl ..).trans
    ((State.setChan_off rfl ..).trans (State.setDma_off rfl ..)))

/-- Settles O45: the frames of the events and of the channel's instructions, by group. -/
theorem frameOfChannelsAndQueues : Obligations.FrameOfChannelsAndQueues := by
  intro s t n w op c v q idx data b m l ht pm
  refine ⟨fun h => (queueEvent_off h).eq_patch ht, fun h => (channelStep_off h).eq_patch ht, fun h => (channelTransfer_off h).eq_patch ht,
    ?_, ?_⟩
  · rintro rfl
    exact (dmaIdleCheck_off s n).eq_patch ht
  · rintro rfl
    exact (internalChannelFault_off s m).eq_patch ht

/-! ### Events of the units -/

/-- The units of an event of a port. -/
def Parts.portEvents : Parts := { Parts.queues with stats := true, ports := true }

theorem mirrorInterval_off {s : State} (h : s.casc.twin ≠ .partnerLost) :
    NextOff { out := true, casc := true } s (exec .mirrorInterval s) := by
  refine .next ?_
  rw [if_neg h]
  exact State.mirrorNow_off rfl rfl s

theorem hintExpire_off (s : State) (i : Nat) : NextOff { power := true } s (exec (.hintExpire i) s) := by
  refine .next ?_
  split
  · exact State.off_ite (State.setHints_off rfl ..) rfl
  · rfl

/-- With nothing waiting for a commit point, none is taken. -/
theorem State.takeAll_of_no_due {s : State} (h : s.top.due = []) : s.takeAll = s := by
  unfold State.takeAll
  rw [h]
  change s.setTop { s.top with due := [] } = s
  rw [← h]
  rfl

theorem powerEvent_off {s : State} {c : Instr} {src : BitVec 4} {det v : BitVec 16} {d : BitVec 5} {i : Nat}
    (hc : c ∈ [.wake src det, .railGood d, .corePllLock, .capInput v, .hintExpire i, .measurementStale]) :
    NextOff { power := true } s (exec c s) := by
  simp only [List.mem_cons, List.not_mem_nil, or_false] at hc
  rcases hc with rfl | rfl | rfl | rfl | rfl | rfl
  · exact .next (State.off_ite (State.wake_off rfl ..) rfl)
  · exact .next (State.off_ite rfl ((State.railEnds_off rfl ..).trans (State.setDom_off rfl ..)))
  · exact .next (State.pllLocks_off rfl _)
  · exact .next (State.setPower_off rfl ..)
  · exact hintExpire_off s i
  · exact .next (State.setPower_off rfl ..)

theorem timeEvent_off {s : State} {c : Instr} {b : List Byte} {f : Bool}
    (hc : c ∈ [.todMessage b f, .holdoverTimeout]) : NextOff { time := true } s (exec c s) := by
  simp only [List.mem_cons, List.not_mem_nil, or_false] at hc
  rcases hc with rfl | rfl
  · exact .next (State.todIn_off rfl ..)
  · exact .next (State.off_ite (State.setTimeUnit_off rfl ..) rfl)

theorem pauseEvent_off {s : State} {c : Instr} {p : PortId} {pr : Prio}
    (hc : c ∈ [.pauseExpire p pr, .respondReceive p, .sentPauseExpire p pr]) : NextOff { ports := true } s (exec c s) := by
  simp only [List.mem_cons, List.not_mem_nil, or_false] at hc
  rcases hc with rfl | rfl | rfl
  · exact .next (State.pauseExpires_off rfl ..)
  · exact .next (State.off_ite (State.setPort_off rfl ..) rfl)
  · exact .next (State.sentExpires_off rfl ..)

theorem storeEvent_off {s : State} {c : Instr} {sl : BitVec 4} {word : BitVec 16}
    (hc : c ∈ [.scrub, .replicaReload sl word]) : NextOff { cs := true, sorter := true } s (exec c s) := by
  simp only [List.mem_cons, List.not_mem_nil, or_false] at hc
  rcases hc with rfl | rfl
  · exact .next (State.off_ite (State.forEach_off _ _ fun _ _ => State.scrubWord_off rfl rfl _) rfl)
  · exact .next (State.off_ite (State.reloadReplica_off rfl rfl ..) rfl)

theorem linkEvent_off {s : State} {c : Instr} {l : Link}
    (hc : c ∈ [.cascadeResend l, .twinAdopt]) : NextOff { out := true, casc := true } s (exec c s) := by
  simp only [List.mem_cons, List.not_mem_nil, or_false] at hc
  rcases hc with rfl | rfl
  · exact .next (State.resend_off rfl rfl ..)
  · exact .next (State.twinAdopt_off rfl rfl _)

theorem portEvent_off {s : State} {c : Instr} {p : PortId} {pr : Prio} {f : Bool} {k : Nat}
    (hc : c ∈ [.xoffChange p pr f, .pfcRefresh p pr, .verifyTimer p, .preempt p k, .fecDegradeInterval p]) :
    NextOff .portEvents s (exec c s) := by
  simp only [List.mem_cons, List.not_mem_nil, or_false] at hc
  rcases hc with rfl | rfl | rfl | rfl | rfl
  · exact .next (State.xoffChange_off rfl rfl rfl rfl rfl ..)
  · exact .next (State.pfcRefresh_off rfl rfl rfl rfl rfl ..)
  · exact .next (State.verifyTimer_off rfl rfl rfl rfl rfl ..)
  · exact .next (State.preemptAt_off rfl rfl rfl rfl rfl ..)
  · exact .next (State.degradeInterval_off rfl rfl rfl rfl rfl ..)

theorem guardEvent_off {s : State} {c : Instr} {p : PortId} {pr : Prio} {f : Bool}
    (hc : c ∈ [.dutyClip p pr, .dutyRelease p pr, .stormWatchdogRx p pr, .stormWatchdogTx p pr, .stormHoldExpire p pr f]) :
    NextOff { Parts.portEvents with casc := true } s (exec c s) := by
  simp only [List.mem_cons, List.not_mem_nil, or_false] at hc
  rcases hc with rfl | rfl | rfl | rfl | rfl
  · exact .next (State.dutyClip_off rfl rfl rfl rfl rfl rfl ..)
  · exact .next (State.dutyRelease_off rfl rfl rfl rfl rfl rfl ..)
  · exact .next (State.stormRx_off rfl rfl rfl rfl rfl rfl ..)
  · exact .next (State.stormTxFires_off rfl rfl rfl rfl rfl rfl ..)
  · exact .next (State.stormRelease_off rfl rfl rfl rfl rfl rfl ..)

/-- A mismatch of the pair, where no change of mode waits (R30, R56). -/
theorem mismatch_off {s : State} (hdue : s.top.due = []) (q : QId) :
    NextOff { pm := true, background := true } s (exec (.machineCheck (.mismatch q)) s) := by
  refine .next ?_
  dsimp only
  split
  next e _ =>
    have htop : (s.mismatch e).top.due = [] := by
      rw [State.eq_patch_of_off (State.mismatch_off (u := { pm := true }) rfl s e)]
      exact hdue
    rw [State.takeAll_of_no_due htop]
    exact State.off_ite (State.mismatch_off rfl ..) rfl
  next => rfl

/-! ### Instructions -/

theorem postmasterInstr_off {s : State} {c : Instr} {q : QId} {i : Ins}
    (hc : c ∈ [.nop q i, .signal q i, .hint q i, .hintCancel q i, .capset q i, .vote q i, .unvote q i, .qcreate q i, .qdestroy q i,
      .qmodify q i, .dmarun q i, .dmarunArm q i, .dmastop q i, .twinbind q i, .twinrelease q i]) :
    NextOff .postmaster s (exec c s) := by
  simp only [List.mem_cons, List.not_mem_nil, or_false] at hc
  rcases hc with rfl | rfl | rfl | rfl | rfl | rfl | rfl | rfl | rfl | rfl | rfl | rfl | rfl | rfl | rfl
  · exact .of_begins (fun _ _ _ _ => runNop_off ..)
  · exact .of_begins (fun _ _ _ _ => runSignal_off rfl rfl rfl rfl rfl rfl ..)
  · exact .of_begins (fun _ _ _ _ => runHint_off rfl ..)
  · exact .of_begins (fun _ _ _ _ => runHintCancel_off rfl ..)
  · exact .of_begins (fun _ _ _ _ => runCapset_off rfl ..)
  · exact .of_begins (fun _ _ _ _ => runVote_off rfl rfl ..)
  · exact .of_begins (fun _ _ _ _ => runUnvote_off rfl ..)
  · exact .of_begins (fun _ _ _ _ => runQcreate_off rfl rfl rfl ..)
  · exact .of_begins (fun _ _ _ _ => runQdestroy_off rfl rfl rfl rfl rfl rfl ..)
  · exact .of_begins (fun _ _ _ _ => runQmodify_off rfl rfl rfl ..)
  · exact .of_begins (fun _ _ _ _ => runDmarun_off rfl rfl rfl rfl ..)
  · exact .of_begins (fun _ _ _ _ => runDmarunArm_off rfl rfl ..)
  · exact .of_begins (fun _ _ _ _ => runDmastop_off rfl rfl rfl rfl rfl ..)
  · exact .of_begins (fun _ _ _ _ => runTwinbind_off rfl rfl ..)
  · exact .of_begins (fun _ _ _ _ => runTwinrelease_off rfl rfl rfl rfl rfl ..)

theorem keyInstr_off {s : State} {c : Instr} {q : QId} {i : Ins}
    (hc : c ∈ [.keyload q i, .keyretire q i]) :
    NextOff { Parts.postmaster with sec := true } s (exec c s) := by
  simp only [List.mem_cons, List.not_mem_nil, or_false] at hc
  rcases hc with rfl | rfl
  · exact .of_begins (fun _ _ _ _ => runKeyload_off rfl rfl rfl rfl rfl ..)
  · exact .of_begins (fun _ _ _ _ => runKeyretire_off rfl rfl ..)

theorem tableInstr_off {s : State} {c : Instr} {q : QId} {i : Ins}
    (hc : c ∈ [.bindwr q i, .pattwr q i, .slicetest q i]) :
    NextOff { Parts.postmaster with sorter := true } s (exec c s) := by
  simp only [List.mem_cons, List.not_mem_nil, or_false] at hc
  rcases hc with rfl | rfl | rfl
  · exact .of_begins (fun _ _ _ _ => runBindwr_off rfl rfl rfl rfl rfl ..)
  · exact .of_begins (fun _ _ _ _ => runPattwr_off rfl rfl rfl rfl rfl ..)
  · exact .of_begins (fun _ _ _ _ => runSlicetest_off rfl rfl ..)

theorem spareInstr_off {s : State} {c : Instr} {q : QId} {i : Ins}
    (hc : c ∈ [.spareMove q i, .spareReturn q i]) :
    NextOff { Parts.postmaster with top := true } s (exec c s) := by
  simp only [List.mem_cons, List.not_mem_nil, or_false] at hc
  rcases hc with rfl | rfl
  · exact .of_begins (fun _ _ _ _ => runSpareMove_off rfl ..)
  · exact .of_begins (fun _ _ _ _ => runSpareReturn_off rfl ..)

theorem storeInstr_off {s : State} {c : Instr} {q : QId} {i : Ins}
    (hc : c ∈ [.csload q i, .csswapMap q i, .csswapUnmap q i]) :
    NextOff { Parts.postmaster with cs := true, sorter := true } s (exec c s) := by
  simp only [List.mem_cons, List.not_mem_nil, or_false] at hc
  rcases hc with rfl | rfl | rfl
  · exact .of_begins (fun _ _ _ _ => runCsload_off rfl rfl rfl rfl rfl rfl ..)
  · exact .of_begins (fun _ _ _ _ => runCsswapMap_off rfl rfl ..)
  · exact .of_begins (fun _ _ _ _ => runCsswapUnmap_off rfl rfl ..)

theorem stopInstr_off {s : State} {c : Instr} {q : QId} {i : Ins}
    (hc : c ∈ [.snap q i, .fence q i, .headyield q i]) :
    NextOff { Parts.postmaster with reg := true, time := true } s (exec c s) := by
  simp only [List.mem_cons, List.not_mem_nil, or_false] at hc
  rcases hc with rfl | rfl | rfl
  · exact .of_begins (fun _ _ _ _ => runSnap_off rfl rfl rfl rfl rfl ..)
  · exact .of_begins (fun _ _ _ _ => runFence_off rfl rfl rfl rfl rfl ..)
  · exact .of_begins (fun _ _ _ _ => runHeadyield_off rfl rfl rfl rfl ..)

theorem switchInstr_off {s : State} {c : Instr} {q : QId} {i : Ins}
    (hc : c ∈ [.rulewr q i, .epoch q i, .timeset q i, .timestep q i]) :
    NextOff { Parts.postmaster with sorter := true, reg := true, time := true } s (exec c s) := by
  simp only [List.mem_cons, List.not_mem_nil, or_false] at hc
  rcases hc with rfl | rfl | rfl | rfl
  · exact .of_begins (fun _ _ _ _ => runRulewr_off rfl rfl rfl rfl rfl rfl rfl rfl ..)
  · exact .of_begins (fun _ _ _ _ => runEpoch_off rfl rfl rfl rfl rfl rfl rfl rfl ..)
  · exact .of_begins (fun _ _ _ _ => runTimeset_off rfl rfl rfl rfl rfl rfl rfl rfl rfl rfl ..)
  · exact .of_begins (fun _ _ _ _ => runTimestep_off rfl rfl rfl rfl rfl rfl rfl rfl rfl rfl ..)

theorem pairInstr_off {s : State} {c : Instr} {q : QId} {i : Ins}
    (hc : c ∈ [.pairwrWrite q i, .pairwrFill q i, .pairwrInvalidate q i]) :
    NextOff { Parts.postmaster with nextId := true, reg := true } s (exec c s) := by
  simp only [List.mem_cons, List.not_mem_nil, or_false] at hc
  rcases hc with rfl | rfl | rfl
  · exact .of_begins (fun _ _ _ _ => runPairwr_off rfl rfl rfl rfl rfl rfl rfl rfl ..)
  · exact .of_begins (fun _ _ _ _ => runPairwr_off rfl rfl rfl rfl rfl rfl rfl rfl ..)
  · exact .of_begins (fun _ _ _ _ => runPairwr_off rfl rfl rfl rfl rfl rfl rfl rfl ..)

theorem guardset_off (s : State) (q : QId) (i : Ins) :
    NextOff { Parts.postmaster with guards := true, ports := true } s (exec (.guardset q i) s) :=
  .of_begins (fun _ _ _ _ => runGuardset_off rfl rfl rfl ..)

theorem guardlock_off (s : State) (q : QId) (i : Ins) :
    NextOff { Parts.postmaster with guards := true } s (exec (.guardlock q i) s) :=
  .of_begins (fun _ _ _ _ => runGuardlock_off rfl ..)

theorem timeadj_off (s : State) (q : QId) (i : Ins) :
    NextOff { Parts.postmaster with time := true } s (exec (.timeadj q i) s) :=
  .of_begins (fun _ _ _ _ => runTimeadj_off rfl ..)

theorem csverify_off (s : State) (q : QId) (i : Ins) :
    NextOff { Parts.postmaster with cs := true } s (exec (.csverify q i) s) :=
  .of_begins (fun _ _ _ _ => runCsverify_off ..)

theorem statread_off (s : State) (q : QId) (i : Ins) :
    NextOff { Parts.postmaster with stats := true } s (exec (.statread q i) s) :=
  .of_begins (fun _ _ _ _ => runStatread_off rfl rfl rfl rfl rfl ..)

theorem portcfg_off (s : State) (q : QId) (i : Ins) :
    NextOff { Parts.postmaster with ports := true, lanes := true } s (exec (.portcfg q i) s) :=
  .of_begins (fun _ _ _ _ => runPortcfg_off rfl rfl ..)

theorem portdown_off (s : State) (q : QId) (i : Ins) :
    NextOff { Parts.postmaster with stats := true, ports := true } s (exec (.portdown q i) s) :=
  .of_begins (fun _ _ _ _ => runPortdown_off rfl rfl rfl rfl rfl rfl ..)

theorem mode_off (s : State) (q : QId) (i : Ins) :
    NextOff { Parts.postmaster with top := true, sorter := true } s (exec (.mode q i) s) :=
  .of_begins (fun _ _ _ _ => runMode_off rfl rfl rfl rfl rfl rfl rfl rfl ..)

theorem portup_off (s : State) (q : QId) (i : Ins) :
    NextOff { Parts.postmaster with stats := true, sec := true, ports := true } s (exec (.portup q i) s) :=
  .of_begins (fun _ _ _ _ => runPortup_off rfl rfl rfl rfl rfl rfl rfl rfl ..)

/-- A guard setting but the duty's leaves the ports: the spent duty alone is kept there. -/
theorem State.guardWrite_off_of_code {u : Parts} (hguards : u.guards) (s : State) {i : Ins} (hcode : (fld i.a 0 8).toNat ≠ 6) (p : ℕ) :
    (s.guardWrite i p).off u = s.off u := by
  unfold State.guardWrite
  simp only [hcode, if_false]
  exact State.setGuardPort_off hguards ..

theorem runGuardset_off_of_code {u : Parts} (hfresh : u.fresh) (hguards : u.guards) {i : Ins} (hcode : (fld i.a 0 8).toNat ≠ 6) (jid : Nat)
    (queue : BitVec 16) (s : State) : (runGuardset jid queue i s).state.off u = s.off u := by
  unfold runGuardset
  repeat' split
  all_goals simp [Ran.state, Ran.bad, Ran.ok, State.forEach_off, State.guardWrite_off_of_code, State.guardResult_off, *]

/-- An instruction row runs its step with its own operands alone. -/
theorem begins_ins (q : QId) (op : Byte) (sel : Bool) (i : Ins) (run : Nat → BitVec 16 → Ins → State → Ran) (s : State) :
    begins q op sel i run s = begins q op sel i (fun j queue _ t => run j queue i t) s := by
  unfold begins State.begin
  split
  · split
    next h =>
      simp only [Bool.and_eq_true, decide_eq_true_eq] at h
      obtain ⟨⟨-, hi⟩, -⟩ := h
      simp only [State.launch, hi]
    · rfl
  · rfl

theorem guardset_off_of_code (s : State) (q : QId) {i : Ins} (hcode : (fld i.a 0 8).toNat ≠ 6) :
    NextOff { Parts.postmaster with guards := true } s (exec (.guardset q i) s) := by
  change NextOff _ s (begins q 0x62 true i runGuardset s)
  rw [begins_ins]
  exact .of_begins (fun _ _ _ _ => runGuardset_off_of_code rfl rfl hcode _ _ _)

/-- Settles O31: each instruction is its start, its run and its end; the start and the end change the Postmaster's units alone. -/
theorem frameOfInstructions : Obligations.FrameOfInstructions := by
  intro s t c q i ht u
  refine ⟨fun h => (postmasterInstr_off (s := s) h).eq_patch ht, ?_, ?_, ?_, fun h => (keyInstr_off (s := s) h).eq_patch ht,
    fun h => (tableInstr_off (s := s) h).eq_patch ht, ?_, ?_, fun h => (spareInstr_off (s := s) h).eq_patch ht, ?_, ?_, ?_,
    fun h => (storeInstr_off (s := s) h).eq_patch ht, fun h => (stopInstr_off (s := s) h).eq_patch ht,
      fun h => (switchInstr_off (s := s) h).eq_patch ht,
    fun h => (pairInstr_off (s := s) h).eq_patch ht, ?_⟩
  all_goals rintro rfl
  · exact ⟨(guardset_off s q i).eq_patch ht, fun hcode => by rw [(guardset_off_of_code s q hcode).eq_patch ht]; rfl⟩
  · exact (guardlock_off s q i).eq_patch ht
  · exact (timeadj_off s q i).eq_patch ht
  · exact (csverify_off s q i).eq_patch ht
  · exact (statread_off s q i).eq_patch ht
  · exact (portcfg_off s q i).eq_patch ht
  · exact (portdown_off s q i).eq_patch ht
  · exact (mode_off s q i).eq_patch ht
  · exact (portup_off s q i).eq_patch ht

/-- Settles O60: the frames of the events, by the unit they are about. -/
theorem frameOfUnitEvents : Obligations.FrameOfUnitEvents := by
  intro s t c src det v d i k p pr b f l q sl bank rx tx word n idx tag ht
  refine ⟨fun h => (powerEvent_off h).eq_patch ht, fun h => (timeEvent_off h).eq_patch ht, ?_, fun h => (pauseEvent_off h).eq_patch ht,
    ?_, ?_, ?_, ?_, fun h => (storeEvent_off h).eq_patch ht, ?_, ?_, ?_, fun h => (linkEvent_off h).eq_patch ht, ?_, ?_,
    fun h => (portEvent_off h).eq_patch ht, fun h => (guardEvent_off h).eq_patch ht⟩
  all_goals rintro rfl
  · exact fun hdue => (mismatch_off hdue q).eq_patch ht
  · exact (NextOff.next (State.setHeld_off (u := { sorter := true }) rfl ..)).eq_patch ht
  · exact (NextOff.next (State.calibrate_off (u := { lanes := true }) rfl ..)).eq_patch ht
  · exact (NextOff.next (State.clearTable_off (u := { reg := true }) rfl ..)).eq_patch ht
  · exact (NextOff.next (State.setLinkSt_off (u := { casc := true }) rfl ..)).eq_patch ht
  · exact (NextOff.next (State.probeTimeout_off (u := { reg := true, frames := true }) rfl rfl ..)).eq_patch ht
  · exact (NextOff.next (State.creditReturn_off (u := { top := true, frames := true }) rfl rfl ..)).eq_patch ht
  · exact (NextOff.next (State.off_ite (State.writeBack_off (u := { out := true, reg := true }) rfl rfl ..) rfl)).eq_patch ht
  · exact fun htwin => (mirrorInterval_off htwin).eq_patch ht
  · exact (NextOff.next (State.ppsDrive_off (u := { out := true, time := true }) rfl rfl ..)).eq_patch ht
end Machine
end Sys2Proof
end

section
/-! The idle cycle and the state after reset (R245, R263, log entry 1). -/

namespace Sys2Proof
namespace Machine

/-! ### The idle cycle -/

/-- A cycle of the lanes leaves the block's clock. -/
theorem State.laneTime_clock (s : State) : s.laneTime.clock = s.clock := by
  rw [State.eq_patch_of_off (State.laneTime_off (u := { out := true, frames := true, ports := true }) rfl rfl rfl s)]
  rfl

theorem State.periods_clock (k : Nat) (s : State) : (State.periods k s).clock = s.clock + k := by
  induction k generalizing s with
  | zero => rfl
  | succ k ih =>
    rw [State.periods, ih, State.laneTime_clock]
    exact Nat.add_right_comm _ _ _

/-- The timebase advances by less than a second, so at most one second is carried. -/
theorem State.tick_now30 {s : State} (hruns : s.timeRuns = true) (hsub : s.time.sub < 1073741824000000000) :
    s.tick.now30 = (s.now30 + s.time.inc.toNat * if s.time.lowPower then 16 else 1) % (2 ^ 48 * 1073741824000000000) := by
  have hinc := s.time.inc.isLt
  have hsec := s.time.seconds.isLt
  have hstep : (if s.time.lowPower then 16 * s.time.inc.toNat else s.time.inc.toNat)
      = s.time.inc.toNat * if s.time.lowPower then 16 else 1 := by
    split <;> omega
  have hsmall : (s.time.inc.toNat * if s.time.lowPower then 16 else 1) < 1073741824000000000 := by
    split <;> omega
  unfold State.tick State.now30
  simp only [hruns, if_true, hstep]
  generalize (s.time.inc.toNat * if s.time.lowPower then 16 else 1) = n at hsmall
  split
  · rw [Nat.mod_eq_of_lt (by omega)]
    exact (Nat.add_assoc ..).symm
  · simp only [BitVec.toNat_add]
    have hone : BitVec.toNat (1 : BitVec 48) = 1 := rfl
    omega

/-- Settles O2: the idle cycle is the step's other branch; its parts are those of the timebase and of the lanes. -/
theorem emptyQueueLetsTimePass : Obligations.EmptyQueueLetsTimePass := by
  intro s hempty n
  refine ⟨?_, fun k t => t.periods_clock k, State.tick_now30⟩
  rw [step, hempty]
  rfl

/-! ### The state after reset -/

/-- Settles O8: the reset state is the default of every unit, and an empty table reads its default everywhere. -/
theorem resetState : Obligations.ResetState :=
  ⟨rfl, rfl, rfl, rfl, rfl, fun _ => ⟨rfl, rfl, rfl⟩, fun d hd => by simp [State.isOn, hd, State.dom, State.reset, Tab.get], rfl, rfl,
    rfl, fun _ => ⟨rfl, rfl⟩,
    fun _ => rfl, rfl, rfl, rfl⟩

end Machine
end Sys2Proof
end

section
/-! The start and the end of an instruction (R45, R47, R93), and the instructions that end in their start (R57 to R60, R68). -/

namespace Sys2Proof
namespace Machine

/-! ### What the start answers -/

section
variable {s t : State} {q : QId} {op : Byte} {sel : Bool} {i : Ins} {e : JEntry} {run : Nat → BitVec 16 → Ins → State → Ran}
  {r : Routine}

/-- An instruction whose step 0 is its last ends with what that step answers. -/
theorem begins_done {st : Status} {a b : DWord} (h : s.starts q op i e) (hs : sel = true)
    (hrun : run e.id e.queue i (s.begun e) = .done st a b t) : begins q op sel i run s = .next (t.finish e.id st a b) := by
  rw [begins_starts h hs, hrun]; rfl

/-- An instruction whose step 0 is not its last commits it. -/
theorem begins_more (h : s.starts q op i e) (hs : sel = true) (hrun : run e.id e.queue i (s.begun e) = .more r t) :
    begins q op sel i run s = .next (t.commitStep e.id r) := by
  rw [begins_starts h hs, hrun]; rfl

/-- An instruction whose step 0 waits within itself. -/
theorem begins_absorbs {x : Ran} (h : s.starts q op i e) (hs : sel = true) (hrun : run e.id e.queue i (s.begun e) = x) :
    begins q op sel i run s = .next (State.absorb e.id x) := by
  rw [begins_starts h hs, hrun]

end

/-! ### The checks, in their order -/

/-- Settles O9: a failed check ends the start, and each check is looked at only when those before it have passed. -/
theorem failedChecksEndTheStart : Obligations.FailedChecksEndTheStart := by
  intro s q op i e st run hstart hop hins b from'
  subst hop
  exact ⟨fun hcheck => begins_fails hstart hins hcheck run, fun hdispatch => by simp [preCheck, hdispatch],
    fun hdispatch hext => by simp [preCheck, hdispatch, hext], fun hdispatch hext hmode => by simp [preCheck, hdispatch, hext, hmode]⟩

/-! ### The end -/

@[simp] theorem State.endBurst_journal (s : State) (jid : Nat) : (s.endBurst jid).pm.journal = s.pm.journal := by
  unfold State.endBurst; split <;> rfl

@[simp] theorem State.releaseDeferred_pm (s : State) (jid : Nat) : (s.releaseDeferred jid).pm = s.pm := by
  rw [State.eq_patch_of_off (State.releaseDeferred_off (u := { power := true }) rfl s jid)]; rfl

theorem State.dropEntry_journal {s : State} (hm : s.mirrors = false) (jid : Nat) :
    (s.dropEntry jid).pm.journal = dropFirst (fun x => x.id == jid) s.pm.journal := by
  unfold State.dropEntry
  cases s.entry jid with
  | none => rfl
  | some e => simp only [State.mirrorEntry_of_not_mirrors hm]; rfl

/-- An end that reports nothing: the entry leaves the journal. -/
theorem State.finish_ok_of_not_c {s : State} {e : JEntry} (he : s.entry e.id = some e) (hq : e.queue ≠ 0xFFFF) (hr : e.rolled = false)
    (hc : e.ins.c = false) (a b : DWord) :
    s.finish e.id .ok a b = ((s.endBurst e.id).dropEntry e.id).releaseDeferred e.id := by
  unfold State.finish
  rw [he]
  exact (if_neg hq).trans (if_pos (by simp [hr, hc]))

/-- Settles O10: an end reports unless it is OK without C. -/
theorem endOfAnInstruction : Obligations.EndOfAnInstruction := by
  intro s e st a b he hq hm hr
  have hst := JEntry.reported_of_not_rolled hr st
  refine ⟨?_, fun hreports => ?_⟩
  · rintro rfl hc
    rw [State.finish_ok_of_not_c he hq hr hc, State.releaseDeferred_pm, State.dropEntry_journal (by simp [hm]), State.endBurst_journal]
  · have hslot := State.entry_finish_of_reports (st := st) he hq (by rwa [hst]) hm a b
    rwa [hst] at hslot

/-! ### NOP, HINT and CAPSET -/

/-- A hint is kept where its kind is one of the listed and its duration is in range, up to eight of them (R386). -/
theorem runHint_of_room {i : Ins} {s : State} (hkind : fld i.a 0 8 ≠ 0#8) (hle : (fld i.a 0 8).toNat ≤ 5) (hne : i.b ≠ 0)
    (hdur : i.b.toNat ≤ 10000000) (hroom : s.power.hints.length < 8) (jid : Nat) (queue : BitVec 16) :
    runHint jid queue i s = .ok 0 0 (s.setHints (s.power.hints ++
      [{ kind := fld i.a 0 8, expected := fld i.a 16 16, duration := i.b.toNat, since := s.clock }])) := by
  unfold runHint
  exact (if_neg hkind).trans (if_neg (by simp [show i.b ≠ 0#64 from hne]; omega))

theorem runHint_cancel {i : Ins} (hkind : fld i.a 0 8 = 0#8) (jid : Nat) (queue : BitVec 16) (s : State) :
    runHint jid queue i s = .ok 0 0 (s.setHints []) := if_pos hkind

theorem runCapset_of_range {i : Ins} (hmin : 12000 ≤ i.a.toNat) (hmax : i.a.toNat ≤ 46000) (jid : Nat) (queue : BitVec 16) (s : State) :
    runCapset jid queue i s = .ok (BitVec.ofNat 64 (min i.a.toNat (max 12000 s.power.capIn.toNat))) 0
      (s.setPower { s.power with soft := i.a.setWidth 16 }) := by
  have hsoft : (i.a.setWidth 16).toNat = i.a.toNat := by rw [BitVec.toNat_setWidth, Nat.mod_eq_of_lt (by omega)]
  have hrange : ¬ (i.a.toNat < 12000 || 46000 < i.a.toNat) = true := by simp only [Bool.or_eq_true, decide_eq_true_eq]; omega
  rw [← hsoft]
  exact if_neg hrange

/-- Settles O12: none of the three meets a check of its own under these operands. -/
theorem nopHintAndCap : Obligations.NopHintAndCap := by
  intro s q i e b
  refine ⟨fun h => begins_done h rfl rfl, fun h hkind hle hne hdur hroom => ?_, fun h hkind => begins_done h (by simp [hkind]) rfl,
    fun h hmin hmax => begins_done h rfl (runCapset_of_range hmin hmax ..)⟩
  exact begins_done h (by simp [hkind]) (runHint_of_room hkind hle hne hdur hroom ..)

/-! ### WAITFOR and SKIPIF -/

section
variable {s : State} {i : Ins} {d : PDesc}

/-- A wait that reads a mapped word of a region that is on tests it (R58). -/
theorem stepWaitfor_of_mapped (hd : describe s i.a.toNat = some d) (hon : s.regionOn i.a.toNat = true) (since : Nat) (last : Word) :
    let v := (s.readMapped .postmaster d i.a.toNat).1
    let t := (s.readMapped .postmaster d i.a.toNat).2
    stepWaitfor i since last s =
      if testHolds i v then .ok (z64 v) 0 t
      else if 64 * (fld i.target 0 14).toNat ≤ t.pm.micros - since then .done .timeout (z64 v) 0 t
      else .more (.waitfor since v) t.microPasses := by
  simp [stepWaitfor, hd, hon]

/-- A skip that reads a mapped word of a region that is on tests it (R59). -/
theorem runSkipif_of_mapped (hd : describe s i.a.toNat = some d) (hon : s.regionOn i.a.toNat = true)
    (hn : (fld i.target 0 8).toNat ≠ 0) (jid : Nat) (queue : BitVec 16) :
    let v := (s.readMapped .postmaster d i.a.toNat).1
    let t := (s.readMapped .postmaster d i.a.toNat).2
    runSkipif jid queue i s = if testHolds i v then
      .ok (BitVec.ofNat 64 (fld i.target 0 8).toNat) 0 (t.skipNext queue.toNat jid (fld i.target 0 8).toNat) else .ok 0 0 t := by
  simp [runSkipif, hd, hon, hn]

end

/-- Settles O14: the word is read once, and its test says which way the instruction ends. -/
theorem testsOfAWord : Obligations.TestsOfAWord := by
  intro s q i e d b v t hd hon
  have hwait := stepWaitfor_of_mapped hd hon b.pm.micros 0
  refine ⟨fun h htest => begins_done h rfl (hwait.trans (if_pos htest)), fun h htest htime => begins_done h rfl (hwait.trans ?_),
    fun h hn htest => begins_done h rfl ((runSkipif_of_mapped hd hon hn ..).trans (if_pos htest)),
    fun h hn htest => begins_done h rfl ((runSkipif_of_mapped hd hon hn ..).trans (if_neg (by rw [htest]; decide)))⟩
  rw [if_neg (by rw [htest]; decide), if_pos (by simp [htime])]

/-! ### FENCE and SIGNAL -/

section
variable {s : State} {i : Ins}

/-- A fence on slices names one that is on, or all of them. -/
theorem runFence_of_slices (hslices : bitOf i.a 2 = false ∨ i.target = 0xFFFF ∨ (i.target.toNat < 16 ∧ s.sliceOn i.target.toNat = true))
    (jid : Nat) (queue : BitVec 16) : runFence jid queue i s =
      let t := if i.s then s.issueColl jid queue 0x04 i.a i.target i.b false else s
      stepFence jid i t.pm.micros (s.fenceMarks i.a).1 (s.fenceMarks i.a).2 jid t := by
  have hlow : ¬ (bitOf i.a 2 && i.target != 0xFFFF && 16 ≤ i.target.toNat) = true := by
    rcases hslices with h | h | ⟨h, -⟩
    · simp [h]
    · simp [h]
    · simp only [Bool.and_eq_true, decide_eq_true_eq]; omega
  have hon : ¬ (bitOf i.a 2 && i.target != 0xFFFF && !s.sliceOn i.target.toNat) = true := by
    rcases hslices with h | h | ⟨-, h⟩ <;> simp [h]
  exact (if_neg hlow).trans (if_neg hon)

/-- A fence of the block alone, before any time has passed, ends where its conditions hold and waits otherwise. -/
theorem runFence_alone (hs : i.s = false)
    (hslices : bitOf i.a 2 = false ∨ i.target = 0xFFFF ∨ (i.target.toNat < 16 ∧ s.sliceOn i.target.toNat = true)) (jid : Nat)
    (queue : BitVec 16) : runFence jid queue i s =
      if s.fenceConditions i.a i.b i.target (s.fenceMarks i.a).1 (s.fenceMarks i.a).2 jid then .ok 0 0 s
      else .more (.fence s.pm.micros (s.fenceMarks i.a).1 (s.fenceMarks i.a).2 jid) s.microPasses := by
  rw [runFence_of_slices hslices]
  simp only [stepFence, hs, Nat.sub_self]
  simp

/-- A fence of the cascade without a limit waits while no end of it has been collected. -/
theorem runFence_cascade (hs : i.s = true)
    (hslices : bitOf i.a 2 = false ∨ i.target = 0xFFFF ∨ (i.target.toNat < 16 ∧ s.sliceOn i.target.toNat = true))
    (hlimit : fld i.a 16 16 = 0#16) (jid : Nat) (queue : BitVec 16)
    (hend : (s.issueColl jid queue 0x04 i.a i.target i.b false).readiness.issuedEnd jid = none) :
    runFence jid queue i s = .more (.fence (s.issueColl jid queue 0x04 i.a i.target i.b false).pm.micros (s.fenceMarks i.a).1
      (s.fenceMarks i.a).2 jid) (s.issueColl jid queue 0x04 i.a i.target i.b false).readiness.microPasses := by
  rw [runFence_of_slices hslices]
  simp only [stepFence, hs, if_true, hend, hlimit]
  rfl

end

/-- Settles O15: a fence looks at its conditions before any time has passed; SIGNAL posts, then waits or writes and fires. -/
theorem fenceAndSignal : Obligations.FenceAndSignal := by
  intro s q i e b m p
  refine ⟨fun h hs hslices => ?_, fun h hs hslice hlimit => ?_, fun h hok => ?_, fun hext htarget => ?_,
    fun hext htarget => ?_, fun hext htarget => ?_⟩
  · have hrun := runFence_alone hs hslices e.id e.queue
    exact ⟨fun hholds => begins_done h rfl (hrun.trans (if_pos hholds)),
      fun hholds => begins_more h rfl (hrun.trans (if_neg (ne_true_of_eq_false hholds)))⟩
  · intro c hend
    exact begins_more h rfl (runFence_cascade hs (.inl hslice) hlimit e.id e.queue hend)
  · have hrun : runSignal e.id e.queue i b = if p.postingNow e.queue.toNat then .release .signal p else .ok 0 0 (p.signal e.id i) :=
      if_pos hok
    exact ⟨fun hposting => begins_absorbs h rfl (hrun.trans (if_pos hposting)),
      fun hposting => begins_done h rfl (hrun.trans (if_neg (by simp [hposting])))⟩
  · exact (if_pos htarget).trans (if_pos hext)
  · exact (if_neg htarget).trans (by rw [if_pos hext])
  · exact (if_pos htarget).trans (if_neg hext)

end Machine
end Sys2Proof
end

section
/-! SET and GET of a parameter (R10, R68, R493, R495). -/

namespace Sys2Proof
namespace Machine

/-! ### SET -/

section
variable {s : State} {a : Nat} {d : PDesc} {m v : Word}

theorem setCheck_of_none (h : describe s a = none) (m v : Word) : setCheck s a m v = some .badOperand := by
  simp only [setCheck, h]

/-- The checks of a write to a mapped word, in their order. -/
theorem setCheck_of_described (hd : describe s a = some d) (m v : Word) : setCheck s a m v =
    if d.barred then some .badOperand
    else if m &&& ~~~ (wordBits d.rw (a - d.base) ||| wordBits d.w1c (a - d.base)) ≠ 0 then some .badOperand
    else if (m &&& wordBits d.rw (a - d.base) ≠ 0) && !d.valid (d.candidate s (a - d.base) m v) then some .badOperand
    else if !s.regionOn a then some .targetAsleep else none := by
  simp only [setCheck, hd]

theorem setCheck_barred (hd : describe s a = some d) (h : d.barred = true) (m v : Word) : setCheck s a m v = some .badOperand := by
  rw [setCheck_of_described hd, if_pos h]

theorem setCheck_unwritable (hd : describe s a = some d)
    (h : m &&& ~~~ (wordBits d.rw (a - d.base) ||| wordBits d.w1c (a - d.base)) ≠ 0) (v : Word) :
    setCheck s a m v = some .badOperand := by
  rw [setCheck_of_described hd, if_pos h, ite_self]

/-- What remains is whether the region is on. -/
theorem setCheck_of_writable (hd : describe s a = some d) (hbarred : d.barred = false)
    (hbits : m &&& ~~~ (wordBits d.rw (a - d.base) ||| wordBits d.w1c (a - d.base)) = 0)
    (hvalid : m &&& wordBits d.rw (a - d.base) ≠ 0 → d.valid (d.candidate s (a - d.base) m v) = true) :
    setCheck s a m v = if !s.regionOn a then some .targetAsleep else none := by
  rw [setCheck_of_described hd, if_neg (by simp [hbarred]), if_neg (not_not_intro hbits), if_neg]
  simp only [Bool.and_eq_true, decide_eq_true_eq, Bool.not_eq_true']
  exact fun h => by simp [hvalid h.1] at h

/-- A mask of 0 changes nothing. -/
theorem State.applySet_zero (hd : describe s a = some d) (v : Word) : s.applySet a 0 v = s := by
  simp [State.applySet, hd, z64]

theorem and_eq_self_of_and_not_eq_zero {m r : Word} (h : m &&& ~~~ r = 0) : m &&& r = m := by
  have hsplit : m = (m &&& r) ||| (m &&& ~~~ r) := by
    ext i
    simp only [BitVec.getElem_or, BitVec.getElem_and, BitVec.getElem_not]
    cases m[i] <;> simp
  rw [h] at hsplit
  simpa using hsplit.symm

theorem wordBits_zero (k : Nat) : wordBits 0 k = 0 := by simp [wordBits, fld]

/-- Without bits that a 1 clears, the write of a mask within the writable bits replaces the masked bits. -/
theorem State.applySet_of_rw (hd : describe s a = some d) (hw1c : d.w1c = 0) (hm : m ≠ 0)
    (hbits : m &&& ~~~ (wordBits d.rw (a - d.base) ||| wordBits d.w1c (a - d.base)) = 0) (v : Word) : s.applySet a m v =
    if d.words = 1 then d.write (d.candidate s (a - d.base) m v) s
    else if a - d.base = 0 then { s with dma := { s.dma with staged :=
      (d.base, wordBits (d.candidate s (a - d.base) m v) 0) :: s.dma.staged.filter fun kv => kv.1 != d.base } }
    else d.write (d.candidate s (a - d.base) m v)
      { s with dma := { s.dma with staged := s.dma.staged.filter fun kv => kv.1 != d.base } } := by
  have hzero : wordBits d.w1c (a - d.base) = 0 := hw1c ▸ wordBits_zero _
  have hmask := and_eq_self_of_and_not_eq_zero (by simpa [hzero] using hbits)
  unfold State.applySet
  rw [hd]
  simp only [hzero, hmask]
  simp [z64, show m ≠ 0#32 from hm]

/-- The value that a mask of writable bits makes of a word. -/
def PDesc.merged (d : PDesc) (k : Nat) (m v : Word) : Word := (wordBits (d.val.setWidth 64) k &&& ~~~ m) ||| (v &&& m)

theorem PDesc.candidate_of_one_word {k : Nat} (hwords : d.words = 1) (hmask : m &&& wordBits d.rw k = m) (s : State) (v : Word) :
    d.candidate s k m v = z64 (d.merged k m v) := by
  simp only [PDesc.candidate, hwords, hmask, if_true]; rfl

theorem PDesc.low_candidate {k : Nat} (hwords : d.words ≠ 1) (hk : k = 0) (hmask : m &&& wordBits d.rw k = m) (s : State) (v : Word) :
    wordBits (d.candidate s k m v) 0 = d.merged k m v := by
  subst hk
  simp only [PDesc.candidate, hwords, hmask, if_true, if_false]
  exact BitVec.extractLsb'_append_eq_right

theorem PDesc.high_candidate {k : Nat} {lo : Word} (hwords : d.words ≠ 1) (hk : k ≠ 0) (hmask : m &&& wordBits d.rw k = m)
    (hlo : s.dma.staged.find? (fun kv => kv.1 == d.base) = some (d.base, lo)) (v : Word) :
    d.candidate s k m v = (d.merged k m v ++ lo : BitVec 64) := by
  simp only [PDesc.candidate, hwords, hmask, hk, hlo, if_false]; rfl

/-- SET ends with the first check that fails. -/
theorem runSet_of_check {i : Ins} {st : Status} (h : setCheck s i.a.toNat (fld i.b 32 32) (fld i.b 0 32) = some st) (jid : Nat)
    (queue : BitVec 16) : runSet jid queue i s = .bad st s := by
  simp only [runSet, h]

/-- Where none fails it puts the word in force and answers what is then in force. -/
theorem runSet_of_no_check {i : Ins} (h : setCheck s i.a.toNat (fld i.b 32 32) (fld i.b 0 32) = none) (jid : Nat) (queue : BitVec 16) :
    runSet jid queue i s = .ok (z64 ((s.applySet i.a.toNat (fld i.b 32 32) (fld i.b 0 32)).peek i.a.toNat)) 0
      (s.applySet i.a.toNat (fld i.b 32 32) (fld i.b 0 32)) := by
  simp only [runSet, h]

end

/-! ### GET -/

section
variable {s : State} {i : Ins} {d : PDesc}

theorem runGet_of_none (h : describe s i.a.toNat = none) (jid : Nat) (queue : BitVec 16) : runGet jid queue i s = .bad .badOperand s := by
  simp only [runGet, h]

/-- The second word of a pair must be mapped. -/
theorem runGet_of_no_second (hd : describe s i.a.toNat = some d) (htwo : bitOf i.target 0 = true)
    (hnone : describe s (i.a.toNat + 1) = none) (jid : Nat) (queue : BitVec 16) : runGet jid queue i s = .bad .badOperand s := by
  simp [runGet, hd, htwo, hnone]

theorem runGet_of_asleep (hd : describe s i.a.toNat = some d)
    (hasleep : s.regionOn i.a.toNat = false ∨ (bitOf i.target 0 = true ∧ s.regionOn (i.a.toNat + 1) = false))
    (hsecond : bitOf i.target 0 = true → (describe s (i.a.toNat + 1)).isSome = true) (jid : Nat) (queue : BitVec 16) :
    runGet jid queue i s = .bad .targetAsleep s := by
  have hmapped : ¬ (bitOf i.target 0 && (describe s (i.a.toNat + 1)).isNone) = true := by
    simp only [Bool.and_eq_true, not_and]
    exact fun htwo => by simp [Option.isSome_iff_ne_none.mp (hsecond htwo)]
  have hoff : (!s.regionOn i.a.toNat || (bitOf i.target 0 && !s.regionOn (i.a.toNat + 1))) = true := by
    rcases hasleep with h | ⟨htwo, h⟩
    · simp [h]
    · simp [htwo, h]
  simp only [runGet, hd]
  exact (if_neg hmapped).trans (if_pos hoff)

theorem State.readMapped_one (hwords : d.words = 1) (p : Path) (a : Nat) :
    s.readMapped p d a = (d.val.setWidth 32, d.onRead s) := by
  simp [State.readMapped, hwords, wordOf_eq_setWidth_ushiftRight]

/-- GET of one word reads it. -/
theorem runGet_one (hd : describe s i.a.toNat = some d) (hon : s.regionOn i.a.toNat = true) (hone : bitOf i.target 0 = false) (jid : Nat)
    (queue : BitVec 16) : runGet jid queue i s =
      .ok (z64 (s.readMapped .postmaster d i.a.toNat).1) 0 (s.readMapped .postmaster d i.a.toNat).2 := by
  simp [runGet, hd, hon, hone]

/-- GET of two words reads them one after the other. -/
theorem runGet_two {d' : PDesc} (hd : describe s i.a.toNat = some d) (hon : s.regionOn i.a.toNat = true)
    (hon' : s.regionOn (i.a.toNat + 1) = true) (htwo : bitOf i.target 0 = true) (hsecond : (describe s (i.a.toNat + 1)).isSome = true)
    (hd' : describe (s.readMapped .postmaster d i.a.toNat).2 (i.a.toNat + 1) = some d') (jid : Nat) (queue : BitVec 16) :
    let r := s.readMapped .postmaster d i.a.toNat
    runGet jid queue i s = .ok ((r.2.readMapped .postmaster d' (i.a.toNat + 1)).1 ++ r.1 : BitVec 64) 0
      (r.2.readMapped .postmaster d' (i.a.toNat + 1)).2 := by
  have hmapped : (describe s (i.a.toNat + 1)).isNone = false := by simpa using hsecond
  simp [runGet, hd, hon, hon', htwo, hmapped, hd']

end

/-! ### Two words read as one value (R493, R494) -/

/-- The state with other latches of the reads. -/
def State.setLatches (s : State) (l : List (Path × Word × Word × Word)) : State := { s with dma := { s.dma with latches := l } }

section
variable (s : State) (l : List (Path × Word × Word × Word)) (a : Nat)

theorem describe00_setLatches : describe00 (s.setLatches l) a = describe00 s a := rfl
theorem describe01_setLatches : describe01 (s.setLatches l) a = describe01 s a := rfl
theorem describe02_setLatches : describe02 (s.setLatches l) a = describe02 s a := rfl
theorem describe03_setLatches : describe03 (s.setLatches l) a = describe03 s a := rfl
theorem describe04_setLatches : describe04 (s.setLatches l) a = describe04 s a := rfl
theorem describe05_setLatches : describe05 (s.setLatches l) a = describe05 s a := rfl
theorem describe06_setLatches : describe06 (s.setLatches l) a = describe06 s a := rfl
theorem describe07_setLatches : describe07 (s.setLatches l) a = describe07 s a := rfl
theorem describe08_setLatches : describe08 (s.setLatches l) a = describe08 s a := rfl
theorem describe09_setLatches : describe09 (s.setLatches l) a = describe09 s a := rfl
theorem describeSlice_setLatches (k : Nat) : describeSlice (s.setLatches l) k a = describeSlice s k a := rfl

/-- No parameter's value is a latch of the reads. -/
theorem describe_setLatches : describe (s.setLatches l) a = describe s a := by
  simp only [describe, describe00_setLatches, describe01_setLatches, describe02_setLatches, describe03_setLatches, describe04_setLatches,
    describe05_setLatches, describe06_setLatches, describe07_setLatches, describe08_setLatches, describe09_setLatches,
    describeSlice_setLatches]

end

section
variable {d : PDesc}

/-- The read of the first word of several leaves its other words in the latch and changes nothing else. -/
theorem State.readMapped_base {a : Nat} (hd : d.words ≠ 1) (hbase : d.base = a) (s : State) (p : Path) :
    s.readMapped p d a = (wordOf d.val 0, s.setLatches ((p, BitVec.ofNat 32 d.base, wordOf d.val 1, wordOf d.val 2) ::
      s.dma.latches.filter fun l => l.1 != p)) := by
  simp [State.readMapped, hd, hbase, State.setLatches]

/-- Right after it the second word reads as it was then. -/
theorem State.readMapped_second {a : Nat} (hd : d.words ≠ 1) (hbase : d.base = a) (s : State) (p : Path) :
    (s.readMapped p d a).2.readMapped p d (a + 1) = (wordOf d.val 1, (s.readMapped p d a).2) := by
  subst hbase
  have hlatch := State.latchOf_readMapped_base hd s p
  simp [State.readMapped, hd] at hlatch ⊢
  rw [hlatch]
  simp

theorem wordOf_append (v : BitVec 96) : (wordOf v 1 ++ wordOf v 0 : BitVec 64) = v.setWidth 64 := by
  apply BitVec.eq_of_getLsbD_eq
  intro i hi
  rw [BitVec.getLsbD_append]
  by_cases h : i < 32
  · simp [wordOf, fld, h, hi]
  · simp [wordOf, fld, h, hi, show i - 32 < 32 by omega, show 32 + (i - 32) = i by omega]

/-- GET of both words of a parameter reads one value. -/
theorem runGet_pair {s : State} {i : Ins} (hwords : d.words ≠ 1) (hbase : d.base = i.a.toNat) (hd : describe s i.a.toNat = some d)
    (hd' : describe s (i.a.toNat + 1) = some d) (hon : s.regionOn i.a.toNat = true) (hon' : s.regionOn (i.a.toNat + 1) = true)
    (htwo : bitOf i.target 0 = true) (jid : Nat) (queue : BitVec 16) :
    runGet jid queue i s = .ok (d.val.setWidth 64) 0 (s.setLatches ((.postmaster, BitVec.ofNat 32 d.base, wordOf d.val 1, wordOf d.val 2) ::
      s.dma.latches.filter fun l => l.1 != .postmaster)) := by
  have hbaseRead := State.readMapped_base hwords hbase s .postmaster
  have hread := runGet_two (d' := d) hd hon hon' htwo (by simp [hd']) (by rw [hbaseRead, describe_setLatches]; exact hd') jid queue
  simp only at hread
  rwa [State.readMapped_second hwords hbase, hbaseRead, wordOf_append] at hread

end

/-- Settles O13: the checks of SET in their order, what its write puts in force, and the reads of GET, one word or two. -/
theorem setAndGetParameters : Obligations.SetAndGetParameters := by
  intro s q i e d b a m v k merged sets gets
  refine ⟨fun h => ⟨fun hd => ?_, fun hd => ⟨fun hbarred => ?_, fun hbits => ?_, fun hbarred hbits hvalid => ?_⟩⟩,
    fun h => ⟨fun hd => ?_, fun hd => ⟨fun hasleep hsecond => ?_, fun hon hone => ⟨?_, fun hwords => ?_⟩, fun htwo hnone => ?_,
      fun hon hon' htwo hsecond => ⟨fun hwords hbase hd' => ?_, fun d' hd' => ?_⟩⟩⟩⟩
  · exact begins_done h rfl (runSet_of_check (setCheck_of_none hd m v) ..)
  · exact begins_done h rfl (runSet_of_check (setCheck_barred hd hbarred m v) ..)
  · exact begins_done h rfl (runSet_of_check (setCheck_unwritable hd hbits v) ..)
  · have hcheck := setCheck_of_writable hd hbarred hbits hvalid
    refine ⟨fun hoff => begins_done h rfl (runSet_of_check (hcheck.trans (by simp [hoff])) ..), fun hon => ?_⟩
    have hset : sets (b.applySet a m v) := begins_done h rfl (runSet_of_no_check (hcheck.trans (by simp [hon])) ..)
    refine ⟨hset, fun hm => ?_, fun hw1c hm => ?_⟩
    · rwa [hm, State.applySet_zero hd] at hset
    · have hval := State.applySet_of_rw hd hw1c hm hbits v
      have hmask : m &&& wordBits d.rw k = m := by
        refine and_eq_self_of_and_not_eq_zero ?_
        rwa [hw1c, show wordBits 0 k = 0 from wordBits_zero k, show wordBits d.rw k ||| 0 = wordBits d.rw k from BitVec.or_zero] at hbits
      refine ⟨fun hwords => ?_, fun hwords hk => ?_, fun hwords hk lo hlo => ?_⟩
      · rwa [hval, if_pos hwords, PDesc.candidate_of_one_word hwords hmask] at hset
      · rwa [hval, if_neg hwords, if_pos hk, PDesc.low_candidate hwords hk hmask] at hset
      · rwa [hval, if_neg hwords, if_neg hk, PDesc.high_candidate hwords hk hmask hlo] at hset
  · exact begins_done h rfl (runGet_of_none hd ..)
  · exact begins_done h rfl (runGet_of_asleep hd hasleep hsecond ..)
  · exact begins_done h rfl (runGet_one hd hon hone ..)
  · have hread := runGet_one hd hon hone e.id e.queue
    rw [State.readMapped_one hwords] at hread
    exact begins_done h rfl hread
  · exact begins_done h rfl (runGet_of_no_second hd htwo hnone ..)
  · exact ⟨_, begins_done h rfl (runGet_pair hwords hbase hd hd' hon hon' htwo ..), rfl⟩
  · exact begins_done h rfl (runGet_two hd hon hon' htwo hsecond hd' ..)

end Machine
end Sys2Proof
end

section
/-! The administration of queues, the modes, the ports and the spare slice (R26, R28, R72 to R75, R115, R410, R412, R507). -/

namespace Sys2Proof
namespace Machine

/-! ### Queues -/

section
variable {s : State} {i : Ins} {x y : Queue}

theorem runQcreate_of_free (hctx : ctxOf i = some x) (hpos : 0 < i.target.toNat) (hlt : i.target.toNat < 4096)
    (hfree : s.queue i.target.toNat = none) (hok : s.ctxOk i.target.toNat x = true) (jid : Nat) (queue : BitVec 16) :
    runQcreate jid queue i s = .ok 0 0 ((s.setQueue i.target.toNat x).mirrorQueue i.target.toNat) := by
  simp only [runQcreate, hctx]
  exact if_neg (by simp [hfree, hok]; omega)

theorem runQcreate_of_taken (hctx : ctxOf i = some x) (h : i.target.toNat = 0 ∨ (s.queue i.target.toNat).isSome = true) (jid : Nat)
    (queue : BitVec 16) : runQcreate jid queue i s = .bad .badOperand s := by
  simp only [runQcreate, hctx]
  exact if_pos (by rcases h with h | h <;> simp [h])

/-- QDESTROY closes its queue and takes its first step (R75). -/
theorem runQdestroy_closes (hq : s.queue i.target.toNat = some x) (hlow : 1 < i.target.toNat) (hclosing : x.closing = false)
    (hnamed : s.named i.target.toNat x = false) (hreport : bitOf i.a 0 = false) (jid : Nat) (queue : BitVec 16) :
    runQdestroy jid queue i s = stepQdestroy i x.head.toNat none
      (s.setQueue i.target.toNat { x with closing := true, skip := 0, stopped := x.stopped && !x.submits }) := by
  simp only [runQdestroy, hq, hreport]
  exact if_neg (by simp [hclosing, hnamed]; omega)

theorem runQdestroy_of_absent (h : s.queue i.target.toNat = none ∨ i.target.toNat ≤ 1) (jid : Nat) (queue : BitVec 16) :
    runQdestroy jid queue i s = .bad .badOperand s := by
  unfold runQdestroy
  dsimp only
  split
  · rfl
  next hq =>
    have hlow := h.resolve_left (by simp [hq])
    exact if_pos (by simp [hlow])

/-- While something is left QDESTROY waits; with nothing left a completion queue disappears, and another places its notice. -/
theorem stepQdestroy_of_closing (hq : s.queue i.target.toNat = some x) (hreport : bitOf i.a 0 = false) (head : Nat) :
    stepQdestroy i head none s =
      if s.unfinished i.target.toNat x false then .more (.qdestroy head none) s.microPasses
      else if x.kind = .completion then .ok (BitVec.ofNat 64 (x.reported head)) 0
        ((s.setQueueOpt i.target.toNat none).mirrorQueue i.target.toNat)
      else .more (.qdestroy head (some (x.reported head))) ((((s.takeFree 64).2.setQueue i.target.toNat
        { x with notice := some (noticeOf i.target.toNat x (x.reported head) (s.takeFree 64).1) }).place x.cq
          (.notice (qid i.target.toNat))).microPasses) := by
  simp only [stepQdestroy, hq, hreport]

/-- Once the notice has been written the queue is gone. -/
theorem stepQdestroy_of_posted (hq : s.queue i.target.toNat = some x) (hnotice : x.notice = none) (head n : Nat) :
    stepQdestroy i head (some n) s = .ok (BitVec.ofNat 64 n) 0 ((s.setQueueOpt i.target.toNat none).mirrorQueue i.target.toNat) := by
  simp [stepQdestroy, hq, hnotice]

theorem runQmodify_of_fixed (hq : s.queue i.target.toNat = some x) (hctx : ctxOf i = some y) (hlow : 1 < i.target.toNat)
    (hclosing : x.closing = false) (hok : s.ctxOk i.target.toNat y = true) (hfixed : sameFixed x y = true) (jid : Nat)
    (queue : BitVec 16) : runQmodify jid queue i s = .ok (z64 x.gen) 0 ((s.setQueue i.target.toNat
      { x with poll := y.poll, vector := y.vector, irqEn := y.irqEn, modCount := y.modCount, modTime := y.modTime, maxOut := y.maxOut,
               ready := if y.poll = 0 then x.ready.filter fun r => decide (x.dist r.1 x.head < x.dist x.tail x.head)
                 else x.ready }).mirrorQueue i.target.toNat) := by
  simp only [runQmodify, hq, hctx]
  exact if_neg (by simp [hclosing, hok, hfixed]; omega)

end

/-- A queue other than a completion queue has nothing to report at the end of a completion queue's closing. -/
theorem Queue.reported_of_completion {x : Queue} (h : x.kind = .completion) (head : Nat) : x.reported head = 0 := by
  simp [Queue.reported, Queue.submits, h]

/-- Settles O16: the checks of each instruction, and the two ends of a closing queue. -/
theorem queueAdministration : Obligations.QueueAdministration := by
  intro s q i e x y h n b t shut c
  refine ⟨fun hs hctx => ⟨fun hpos hlt hfree hok => ?_, fun htaken => ?_⟩, fun hs hq hlow hclosing hnamed hreport => ?_,
    fun hs habsent => ?_, fun hi hq hnotice => ?_, fun hs hq hctx hlow hclosing hok hfixed => ?_⟩
  · exact begins_done hs rfl (runQcreate_of_free hctx hpos hlt hfree hok ..)
  · exact begins_done hs rfl (runQcreate_of_taken hctx htaken ..)
  · have hshut : c.queue t = some shut := State.queue_setQueue ..
    have hrun := (runQdestroy_closes hq hlow hclosing hnamed hreport e.id e.queue).trans
      (stepQdestroy_of_closing hshut hreport x.head.toNat)
    refine ⟨fun hleft => begins_more hs rfl (hrun.trans (if_pos hleft)), fun hnone hkind => ?_, fun hnone hkind => ?_⟩
    · have hend := (hrun.trans (if_neg (ne_true_of_eq_false hnone))).trans (if_pos hkind)
      rw [Queue.reported_of_completion (x := shut) hkind] at hend
      exact begins_done hs rfl hend
    · exact begins_more hs rfl ((hrun.trans (if_neg (ne_true_of_eq_false hnone))).trans (if_neg hkind))
  · exact begins_done hs rfl (runQdestroy_of_absent habsent ..)
  · subst hi
    exact stepQdestroy_of_posted hq hnotice ..
  · have hrun := runQmodify_of_fixed hq hctx hlow hclosing hok hfixed e.id e.queue
    intro w
    refine ⟨fun hpoll => ?_, fun hpoll => ?_⟩
    · rw [if_neg hpoll] at hrun
      exact begins_done hs rfl hrun
    · rw [if_pos hpoll] at hrun
      exact begins_done hs rfl hrun

/-! ### Modes -/

section
variable {s : State}

theorem modeTarget_of_cold (h : s.top.mode = .cold) (queue : BitVec 16) : modeTarget s queue .provision =
    if queue = 0 && s.top.ready && !s.top.coldBar then some (s.enterMode .provision 0x01).postEverything else none := by
  unfold modeTarget; rw [h]

theorem modeTarget_of_provision (h : s.top.mode = .provision) (queue : BitVec 16) : modeTarget s queue .service =
    if s.cs.vendorLoaded && s.cs.verified then
      some ({ s.enterMode .service 0x01 with pm := { s.pm with fromStore := true } }).refreshReplicas
    else none := by
  unfold modeTarget; rw [h]

theorem modeTarget_of_service (h : s.top.mode = .service) (queue : BitVec 16) : modeTarget s queue .provision =
    if s.allDown then some { s.enterMode .provision 0x01 with pm := { s.pm with fromStore := false } } else none := by
  unfold modeTarget; rw [h]

theorem modeTarget_of_adopted (h : s.top.mode = .adopted) (queue : BitVec 16) : modeTarget s queue .service =
    if s.pm.fit then some { (s.enterMode .service 0x06).bumpQueues with casc := { s.casc with twin := .bound } } else none := by
  unfold modeTarget; rw [h]

end

/-- MODE enters the mode its transition leads to (R28). -/
theorem begins_mode {s t : State} {q : QId} {i : Ins} {e : JEntry} {m : Mode} (h : s.starts q 0x18 i e)
    (hm : Mode.ofCode (fld i.a 0 4) = some m) (ht : modeTarget (s.begun e) e.queue m = some t) :
    exec (.mode q i) s = .next (t.finish e.id .ok (z64 (fld (modeWord t.top) 0 16)) 0) :=
  begins_done h rfl (by simp only [runMode, hm, ht]; rfl)

/-- Settles O17: the four transitions of `modeTarget`. -/
theorem modeTransitions : Obligations.ModeTransitions := by
  intro s q i e b ends h
  refine ⟨fun hmode hm hq hready hbar => begins_mode h hm ?_, fun hmode hm hloaded hverified => begins_mode h hm ?_,
    fun hmode hm hdown => begins_mode h hm ?_, fun hmode hm hfit => begins_mode h hm ?_⟩
  · exact (modeTarget_of_cold hmode _).trans (if_pos (by simp [hq, b, hready, hbar]))
  · exact (modeTarget_of_provision hmode _).trans (if_pos (by rw [hloaded, hverified]; rfl))
  · exact (modeTarget_of_service hmode _).trans (if_pos hdown)
  · exact (modeTarget_of_adopted hmode _).trans (if_pos hfit)

/-! ### Ports -/

/-- Lanes that start anew leave the ports. -/
theorem State.resetLanes_port (s : State) (p j : Nat) : (s.resetLanes p).port j = s.port j := by
  rw [State.eq_patch_of_off (State.resetLanes_off (u := { lanes := true }) rfl s p)]; rfl

/-- What PORTCFG makes of a port (R68). -/
def Port.configuredBy (x : Port) (i : Ins) : Port :=
  { x with
    mode := fld i.a 0 8, preemptEn := bitOf i.a 8, protect := bitOf i.a 9, memberGuard := bitOf i.a 10,
    maxfrm := if fld i.b 0 15 = 0 then x.maxfrm else fld i.b 0 15,
    thresholdNow := x.threshold, corrected := 0, degrade := false, remoteDegrade := false, peerPort := 0, peerMode := 0, localIn := false,
    remoteIn := false }

section
variable {s : State} {i : Ins}

theorem runPortcfg_of_ok (hok : s.portcfgOk i = true)
    (hon : (slicesAt i.target.toNat ((modeWidth (fld i.a 0 8)).getD 1)).all s.sliceOn = true) (jid : Nat) (queue : BitVec 16) :
    runPortcfg jid queue i s = .ok (z64 (fld i.a 0 8)) 0 ((s.resetLanes i.target.toNat).setPort i.target.toNat
      ((s.port i.target.toNat).configuredBy i).restVerify) := by
  rw [← State.resetLanes_port s i.target.toNat i.target.toNat]
  exact (if_neg (by simp [hok])).trans (if_neg (by rw [hon]; decide))

theorem runPortup_of_up (hcheck : s.portCheck i = none) (hup : (s.port i.target.toNat).st = .up) (jid : Nat) (queue : BitVec 16) :
    runPortup jid queue i s = .ok 0 0 s := by
  simp [runPortup, hcheck, hup]

/-- A port that is neither UP nor quarantined starts to train (R115). -/
theorem runPortup_of_not_up (hcheck : s.portCheck i = none) (hup : (s.port i.target.toNat).st ≠ .up)
    (hquar : (s.port i.target.toNat).st ≠ .quarantined) (jid : Nat) (queue : BitVec 16) :
    runPortup jid queue i s =
      let t := s.enablePort i.target.toNat
      if i.a = 0 then .ok 0 0 (if (s.port i.target.toNat).st = .down ∧ (t.port i.target.toNat).st = .training then
        t.beginBackground queue 3 i.target.toNat else t)
      else .more (.portup t.pm.micros) t := by
  simp [runPortup, hcheck, hup, hquar]

theorem runPortdown_of_down (hcheck : s.portCheck i = none) (hdown : (s.port i.target.toNat).st = .down) (jid : Nat)
    (queue : BitVec 16) : runPortdown jid queue i s = .ok 0 0 s := by
  simp [runPortdown, hcheck, hdown]

theorem runPortdown_of_not_down (hcheck : s.portCheck i = none) (hdown : (s.port i.target.toNat).st ≠ .down)
    (hquar : (s.port i.target.toNat).st ≠ .quarantined) (jid : Nat) (queue : BitVec 16) :
    runPortdown jid queue i s = .more (.portdown 1 0) (s.stopIntake i.target.toNat) := by
  simp [runPortdown, hcheck, hdown, hquar]

end

/-- Settles O18: by the state of the port. -/
theorem portInstructions : Obligations.PortInstructions := by
  intro s q i e b p
  refine ⟨fun h hok hon => ⟨_, begins_done h rfl (runPortcfg_of_ok hok hon ..), rfl, rfl, rfl, rfl, rfl, rfl⟩,
    fun h hcheck hup => begins_done h rfl (runPortup_of_up hcheck hup ..), fun h hcheck hup hquar ha => ?_,
    fun h hcheck hup hquar ha => ?_, fun h hcheck hdown => begins_done h rfl (runPortdown_of_down hcheck hdown ..),
    fun h hcheck hdown hquar => begins_more h rfl (runPortdown_of_not_down hcheck hdown hquar ..)⟩
  · exact begins_done h rfl ((runPortup_of_not_up hcheck hup hquar ..).trans (if_pos ha))
  · exact begins_more h rfl ((runPortup_of_not_up hcheck hup hquar ..).trans (if_neg ha))

/-! ### The spare slice -/

section
variable {s : State} {i : Ins}

theorem runSpareMove_begins (hk : i.target.toNat < 16) (hcarrying : s.top.spareCarrying = false) (hbusy : s.top.spareBusy = false)
    (htesting : (s.sliceP 16).testing = false) (hspare : s.isOn (dSLICE 16) = true) (hon : s.sliceOn i.target.toNat = true) (jid : Nat)
    (queue : BitVec 16) : runSpareMove jid queue i s = spareBegins i.target.toNat s :=
  (if_neg (by simp [hcarrying, hbusy, htesting]; omega)).trans (if_neg (by simp [hspare, hon]))

theorem runSpareReturn_begins (hk : i.target.toNat < 16) (hcarrying : s.top.spareCarrying = true)
    (hslice : s.top.spareLogical.toNat = i.target.toNat) (hbusy : s.top.spareBusy = false)
    (hpassed : (s.sliceP i.target.toNat).passed = true) (htesting : (s.sliceP i.target.toNat).testing = false)
    (hspare : s.isOn (dSLICE 16) = true) (hon : s.isOn (dSLICE i.target.toNat) = true) (jid : Nat) (queue : BitVec 16) :
    runSpareReturn jid queue i s = spareBegins i.target.toNat s :=
  (if_neg (by simp [hcarrying, hslice, hbusy, hpassed, htesting]; omega)).trans (if_neg (by simp [hspare, hon]))

/-- SLICETEST takes its first step with the slice marked (R412). -/
theorem runSlicetest_begins (hk : i.target.toNat < 17) (hcarried : s.carried i.target.toNat = none) (hbusy : s.top.spareBusy = false)
    (hon : s.isOn (dSLICE i.target.toNat) = true) (jid : Nat) (queue : BitVec 16) :
    runSlicetest jid queue i s = stepSlicetest i (testSteps i.a)
      (s.setSliceP i.target.toNat { s.sliceP i.target.toNat with testing := true }) :=
  (if_neg (by simp [hcarried, hbusy]; omega)).trans (if_neg (by simp [hon]))

theorem bitOf_fld {a : Word} {len k : Nat} (hk : k < len) : bitOf (fld a 0 len) k = bitOf a k := by
  simp [bitOf, fld, hk]

/-- The steps of a slice test are those of the patterns it asks for. -/
theorem testSteps_eq (a : Word) : testSteps a = (if bitOf (fld a 0 3) 0 then 15 else 0) + (if bitOf (fld a 0 3) 1 then 3 else 0) +
    (if bitOf (fld a 0 3) 2 then 3 else 0) := by
  rw [bitOf_fld (by decide), bitOf_fld (by decide), bitOf_fld (by decide)]; rfl

theorem testSteps_of_none {a : Word} (h : fld a 0 3 = 0#3) : testSteps a = 0 := by
  rw [testSteps_eq, h]; rfl

theorem one_lt_testSteps {a : Word} (h : fld a 0 3 ≠ 0#3) : 1 < testSteps a := by
  rw [testSteps_eq]
  revert h
  generalize fld a 0 3 = x
  revert x
  decide

/-- A test that asks for no pattern has no step to take, and the slice does not pass. -/
theorem stepSlicetest_of_none (h : fld i.a 0 3 = 0#3) : stepSlicetest i (testSteps i.a) s =
    .ok 0 0 ({ s with fresh := s.fresh + 1 }.setSliceP i.target.toNat
      { s.sliceP i.target.toNat with testing := false, passed := false }) := by
  rw [testSteps_of_none h]
  simp [stepSlicetest, h, State.takeFree, z64]
  rfl

end

/-- Settles O19: the checks pass, and a test without a pattern has no step to take. -/
theorem sparingInstructions : Obligations.SparingInstructions := by
  intro s q i e b k busy
  refine ⟨fun h hbit hk hcarrying hidle htesting hspare hon => ?_,
    fun h hbit hk hcarrying hslice hidle hpassed htesting hspare hon => ?_, fun h hk hcarried hidle hon hasked => ?_,
    fun h hk hcarried hidle hon hasked => ?_⟩
  · exact begins_absorbs h (by simp [hbit]) (runSpareMove_begins hk hcarrying hidle htesting hspare hon ..)
  · exact begins_absorbs h hbit (runSpareReturn_begins hk hcarrying hslice hidle hpassed htesting hspare hon ..)
  · exact begins_done h rfl ((runSlicetest_begins hk hcarried hidle hon ..).trans (stepSlicetest_of_none hasked))
  · exact begins_more h rfl ((runSlicetest_begins hk hcarried hidle hon ..).trans (if_pos (one_lt_testSteps hasked)))

end Machine
end Sys2Proof
end

section
/-! The instructions that begin with a read of host memory (R68). -/

namespace Sys2Proof
namespace Machine

/-! ### The read of the first step -/

/-- A routine asks for bytes of host memory. -/
def State.asks (s : State) (jid : Nat) (base : HostAddr) (n : Nat) (chan : Option Nat := none) : State :=
  (s.updEntry jid fun e => { e with rd := some { base := base, need := n } }).routineRead jid base n chan

section
variable {s : State} {jid : Nat} {i : Ins}

theorem State.fetchHost_of_no_read (h : (s.entry jid).bind (·.rd) = none) (base : HostAddr) (n : Nat) (chan : Option Nat) :
    s.fetchHost jid base n chan = .wait (s.asks jid base n chan) := by
  simp only [State.fetchHost, h]; rfl

theorem runSetblk_asks (hpos : i.target ≠ 0) (hle : i.target.toNat ≤ 4096) (haddr : hostAddrOk i.b 4 = true)
    (hon : s.regionOn i.a.toNat = true) (hrd : (s.entry jid).bind (·.rd) = none) (queue : BitVec 16) :
    runSetblk jid queue i s = .wait (.setblk 0) (s.asks jid (i.b.setWidth 57 + 0) (4 * min 256 i.target.toNat)) := by
  have hstep : runSetblk jid queue i s = stepSetblk jid i 0 s :=
    (if_neg (by simp [show i.target ≠ 0#16 from hpos, haddr]; omega)).trans (if_neg (by simp [hon]))
  simp only [hstep, stepSetblk, State.fetchHost_of_no_read hrd]
  rfl

/-- A table's write asks for the images of its first step, where one of its slices is on. -/
theorem TableKind.step_asks (t : TableKind) {ks : List Nat} (hon : (ks.all fun k => !s.sliceOn k) = false)
    (hrd : (s.entry jid).bind (·.rd) = none) : t.step jid i ks 0 s =
      .wait (t.next ks 0) (s.asks jid (i.b.setWidth 57 + BitVec.ofNat 57 (t.bytes * 0)) (t.bytes * min t.batch (t.count i - 0))) := by
  simp only [TableKind.step, hon, State.fetchHost_of_no_read hrd]
  rfl

/-- RULEWR marks its slices as being written. -/
def State.marksWriting (s : State) (ks : List Nat) : State := s.forEach ks fun s k => s.setSliceL k { s.sliceL k with writing := true }

/-- RULEWR asks for its images where none of its slices drains an old epoch. -/
theorem runRulewr_asks {ks : List Nat} (hcheck : rules.check i s = none) (hks : s.tableSlices i.target = ks)
    (hdrain : (ks.any fun k => (s.marksWriting ks).sliceOn k && ((s.marksWriting ks).sliceL k).draining) = false)
    (hon : (ks.all fun k => !(s.marksWriting ks).sliceOn k) = false) (hrd : ((s.marksWriting ks).entry jid).bind (·.rd) = none)
    (queue : BitVec 16) : runRulewr jid queue i s = .wait (.rulewr ks 0) ((s.marksWriting ks).asks jid (i.b.setWidth 57 + 0)
      (128 * min 64 (fld i.a 12 13).toNat)) := by
  subst hks
  have hstep : runRulewr jid queue i s = rulewrTail jid (s.tableSlices i.target)
      (rules.step jid i (s.tableSlices i.target) 0 (s.marksWriting (s.tableSlices i.target))) := by
    simp only [runRulewr, hcheck]
    exact if_neg (by rw [Bool.and_eq_true]; exact fun h => ne_true_of_eq_false hdrain h.2)
  rw [hstep, TableKind.step_asks _ hon hrd]
  rfl

theorem runBindwr_asks (hcheck : bindings.check i s = none) (hon : ((s.tableSlices i.target).all fun k => !s.sliceOn k) = false)
    (hrd : (s.entry jid).bind (·.rd) = none) (queue : BitVec 16) : runBindwr jid queue i s =
      .wait (.bindwr (s.tableSlices i.target) 0) (s.asks jid (i.b.setWidth 57 + 0) (bindings.bytes * min bindings.batch
        (bindings.count i))) := by
  simp only [runBindwr, hcheck, TableKind.step_asks _ hon hrd]
  rfl

theorem runPattwr_asks (hcheck : patterns.check i s = none) (hon : ((s.tableSlices i.target).all fun k => !s.sliceOn k) = false)
    (hrd : (s.entry jid).bind (·.rd) = none) (queue : BitVec 16) : runPattwr jid queue i s =
      .wait (.pattwr (s.tableSlices i.target) 0) (s.asks jid (i.b.setWidth 57 + 0) (patterns.bytes * min patterns.batch
        (patterns.count i))) := by
  simp only [runPattwr, hcheck, TableKind.step_asks _ hon hrd]
  rfl

/-- CSLOAD of the whole store clears `verified`, notes the image's base and reads through channel 28 (R312). -/
theorem runCsload_asks {t : State} (htarget : i.target = 0) (hcount : loadFirst i + loadCount i ≤ 65536) (haddr : hostAddrOk i.b 64 = true)
    (hon : s.isOn dDMA = true)
    (ht : s.setCs { s.cs with verified := false, image := i.b.setWidth 57 - BitVec.ofNat 57 (16 * loadFirst i) } = t)
    (hrd : (t.entry jid).bind (·.rd) = none) (queue : BitVec 16) : runCsload jid queue i s =
      .wait (.csload 0) (t.asks jid (i.b.setWidth 57 + 0) (16 * min 512 (loadCount i)) (some 28)) := by
  have hstep : runCsload jid queue i s = stepCsload jid i 0 t := by
    unfold runCsload
    simp only [htarget, ← ht]
    exact (if_neg (by simp [haddr]; omega)).trans (if_neg (by simp [hon]))
  simp only [hstep, stepCsload, State.fetchHost_of_no_read hrd]
  rfl

theorem runKeyload_asks (htarget : i.target.toNat < 64) (hmin : 1 ≤ (fld i.a 4 4).toNat) (hmax : (fld i.a 4 4).toNat ≤ 4)
    (haddr : hostAddrOk i.b 64 = true) (hslot : (s.keySlot (keySlotOf i)).installed = false) {queue : BitVec 16}
    (hscratch : s.hasScratch jid queue = false) (hrd : (s.entry jid).bind (·.rd) = none) :
    runKeyload jid queue i s = .wait (.keyload 0) (s.asks jid (i.b.setWidth 57) 64) := by
  have hstep : runKeyload jid queue i s = stepKeyload jid queue i 0 s :=
    if_neg (by simp [targetBelow, haddr, hslot]; omega)
  simp only [hstep, stepKeyload, hscratch, State.fetchHost_of_no_read hrd]
  rfl

end

/-- Settles O20: the operand checks pass, and the first step finds no bytes yet. -/
theorem instructionsThatReadHostMemory : Obligations.InstructionsThatReadHostMemory := by
  intro s q i e b asks none' base
  refine ⟨fun h hpos hle haddr hon hrd => ?_, fun h hcheck => fun hdrain hon hrd => ?_, fun h hcheck hon hrd => ?_,
    fun h hcheck hon hrd => ?_, fun h htarget hcount haddr hon => fun hrd => ?_, fun h htarget hmin hmax haddr hslot hscratch hrd => ?_⟩
  · exact begins_absorbs h rfl (runSetblk_asks hpos hle haddr hon hrd ..)
  · exact begins_absorbs h rfl (runRulewr_asks hcheck rfl hdrain hon hrd ..)
  · exact begins_absorbs h rfl (runBindwr_asks hcheck hon hrd ..)
  · exact begins_absorbs h rfl (runPattwr_asks hcheck hon hrd ..)
  · exact begins_absorbs h rfl (runCsload_asks htarget hcount haddr hon rfl hrd ..)
  · exact begins_absorbs h rfl (runKeyload_asks htarget hmin hmax haddr hslot hscratch hrd ..)

end Machine
end Sys2Proof
end

section
/-! EPOCH and SNAP, the pair table and the statistics, the time, the keys and the guards, and the channels' control (R62 to R69, R147,
R149, R231,
R247, R260, R261, R289, R324 to R326, R509, R510). -/

namespace Sys2Proof
namespace Machine

/-! ### EPOCH and SNAP -/

section
variable {s : State} {i : Ins}

/-- Without another of its opcode in the way an instant that is nearer than the lead is too early (R64). -/
theorem State.instantEarly_of_near {busy : Bool} (hs : i.s = false) (hb : i.b ≠ 0) (hbusy : busy = false)
    (hlead : s.leadMet s.casc.lead.toNat i.b = false) : s.instantEarly i busy = true := by
  simp [State.instantEarly, hs, show i.b ≠ 0#64 from hb, hbusy, hlead]

theorem State.instantEarly_of_busy {busy : Bool} (h : busy = true ∨ s.leadMet s.casc.lead.toNat i.b = true) :
    s.instantEarly i busy = false := by
  rcases h with h | h <;> simp [State.instantEarly, h]

/-- EPOCH of one slice: the checks, then the switch is armed unless another stands (R62 to R66). -/
theorem runEpoch_of_slice (hlt : i.target.toNat < 16) (hns : (fld i.b 0 30).toNat < 1000000000) (jid : Nat) (queue : BitVec 16) :
    runEpoch jid queue i s =
      if s.instantEarly i s.epochBusy then .bad .badOperand s
      else if !s.sliceOn i.target.toNat then .bad .targetAsleep s
      else if s.epochBusy then .more (.epoch 0 s.casc.lead.toNat) s
      else epochBegins jid queue i s.casc.lead.toNat false s := by
  have hall : i.target ≠ 0xFFFF := by rintro h; simp [h] at hlt
  unfold runEpoch
  simp only [hall, if_false]
  congr 1
  simp [show ¬ 16 ≤ i.target.toNat by omega, show ¬ 1000000000 ≤ (fld i.b 0 30).toNat by omega]

theorem runEpoch_early (hlt : i.target.toNat < 16) (hns : (fld i.b 0 30).toNat < 1000000000)
    (h : s.instantEarly i s.epochBusy = true) (jid : Nat) (queue : BitVec 16) : runEpoch jid queue i s = .bad .badOperand s :=
  (runEpoch_of_slice hlt hns ..).trans (if_pos h)

theorem epochBegins_ahead (hs : i.s = false) (hb : i.b ≠ 0) {lead : Nat} (hlead : s.leadMet lead i.b = true) (jid : Nat) (queue : BitVec 16)
    (waited : Bool) : epochBegins jid queue i lead waited s = .more (.epoch 1 lead) (s.setArmedEpoch
      (some { instant := i.b, slices := s.epochSlices i.target, jid := some jid, queue := some queue, lead := lead })) := by
  simp only [epochBegins, hs, hb, hlead]
  rfl

theorem snapBegins_ahead (hs : i.s = false) (hb : i.b ≠ 0) {lead : Nat} (hlead : s.leadMet lead i.b = true) (jid : Nat) (queue : BitVec 16)
    (waited : Bool) : snapBegins jid queue i lead waited s = .more (.snap 1 lead) (s.setArmedSnap
      (some { instant := i.b, jid := some jid, lead := lead })) := by
  simp only [snapBegins, hs, hb, hlead]
  rfl

/-- SNAP: the checks, then the switch is armed unless another stands. -/
theorem runSnap_of_queue (htarget : i.target = 0xFFFF) (hns : (fld i.b 0 30).toNat < 1000000000)
    (hqueue : s.isRecordQueue s.reg.recordQueue.toNat = true) (jid : Nat) (queue : BitVec 16) :
    runSnap jid queue i s =
      if s.instantEarly i s.snapBusy then .bad .badOperand s
      else if !s.isOn dREG then .bad .targetAsleep s
      else if s.snapBusy then .more (.snap 0 s.casc.lead.toNat) s
      else snapBegins jid queue i s.casc.lead.toNat false s := by
  unfold runSnap
  simp only [htarget, hqueue]
  congr 1
  simp
  omega

end

/-- Settles O21: by what stands in the way of the switch. -/
theorem epochAndSnapInstructions : Obligations.EpochAndSnapInstructions := by
  intro s q i e b lead
  refine ⟨fun h hlt hns hs hb => ⟨fun hbusy hnear => ?_, fun hon => ⟨fun hbusy => ?_, fun hbusy hahead => ?_⟩⟩,
    fun h htarget hns hqueue hs hb => ⟨fun hbusy hnear => ?_, fun hon => ⟨fun hbusy => ?_, fun hbusy hahead => ?_⟩⟩⟩
  · exact begins_done h rfl ((runEpoch_of_slice hlt hns ..).trans (if_pos (State.instantEarly_of_near hs hb hbusy hnear)))
  · have hrun := (runEpoch_of_slice hlt hns e.id e.queue).trans
      (if_neg (ne_true_of_eq_false (State.instantEarly_of_busy (s := b) (.inl hbusy))))
    exact begins_more h rfl ((hrun.trans (if_neg (by simp [b, hon]))).trans (if_pos hbusy))
  · have hrun := (runEpoch_of_slice hlt hns e.id e.queue).trans
      (if_neg (ne_true_of_eq_false (State.instantEarly_of_busy (s := b) (.inr hahead))))
    exact begins_more h rfl (((hrun.trans (if_neg (by simp [b, hon]))).trans (if_neg (ne_true_of_eq_false hbusy))).trans
      (epochBegins_ahead hs hb hahead ..))
  · exact begins_done h rfl ((runSnap_of_queue htarget hns hqueue ..).trans (if_pos (State.instantEarly_of_near hs hb hbusy hnear)))
  · have hrun := (runSnap_of_queue htarget hns hqueue e.id e.queue).trans
      (if_neg (ne_true_of_eq_false (State.instantEarly_of_busy (s := b) (.inl hbusy))))
    exact begins_more h rfl ((hrun.trans (if_neg (by simp [b, hon]))).trans (if_pos hbusy))
  · have hrun := (runSnap_of_queue htarget hns hqueue e.id e.queue).trans
      (if_neg (ne_true_of_eq_false (State.instantEarly_of_busy (s := b) (.inr hahead))))
    exact begins_more h rfl (((hrun.trans (if_neg (by simp [b, hon]))).trans (if_neg (ne_true_of_eq_false hbusy))).trans
      (snapBegins_ahead hs hb hahead ..))

/-! ### The pair table and the statistics -/

section
variable {s : State} {i : Ins}

/-- The first entries of the pair table that an instruction visits, with the counts of those written and of those skipped. -/
theorem runPairwr_first (hok : pairwrOk i = true) (hon : s.isOn dREG = true) (hclear : s.reg.clearing = false) (jid : Nat)
    (queue : BitVec 16) :
    let n := min 4096 (pairwrCount i)
    let r := pairwrList i ((List.range n).map fun j => (fld i.b 0 24).toNat + 0 + j) 0 0 s
    runPairwr jid queue i s = if pairwrCount i ≤ n then .ok (BitVec.ofNat 64 r.1) (BitVec.ofNat 64 r.2.1) r.2.2
      else .more (.pairwr n r.1 r.2.1) r.2.2 := by
  simp [runPairwr, stepPairwr, hok, hon, hclear]

theorem runStatread_first {jid : Nat} (htarget : i.target.toNat < 64) (haddr : hostAddrOk i.b 64 = true)
    (hrd : (s.entry jid).bind (·.rd) = none) (hreg : s.isOn dREG = true) (hdma : s.isOn dDMA = true) (queue : BitVec 16) :
    runStatread jid queue i s = .release (.statread i.target.toNat 0) ((s.statClear (statSet i) i.target.toNat).statWrite jid
      (i.b.setWidth 57 + BitVec.ofNat 57 0) (s.statBlock (statSet i) i.target.toNat)) := by
  have hall : i.target ≠ 0xFFFF := by rintro h; simp [h] at htarget
  have hstep : runStatread jid queue i s = stepStatread jid i i.target.toNat 0 s := by
    unfold runStatread
    rw [if_neg (by simp [haddr]; omega), if_neg hall]
  rw [hstep, stepStatread]
  simp only [hrd, hreg, hdma]
  rfl

end

/-- Settles O22: the three forms run one step. -/
theorem pairTableAndStatistics : Obligations.PairTableAndStatistics := by
  intro s q i e b n r told
  refine ⟨fun h hok hon hclear => ?_, fun h htarget haddr hrd hreg hdma =>
    begins_absorbs h rfl (runStatread_first htarget haddr hrd hreg hdma ..)⟩
  have htold {sel : Bool} (hsel : sel = true) : begins q 0x41 sel i runPairwr s = told := by
    have hrun := runPairwr_first hok hon hclear e.id e.queue
    by_cases hlast : pairwrCount i ≤ n
    · exact (begins_done h hsel (hrun.trans (if_pos hlast))).trans (if_pos hlast).symm
    · exact (begins_more h hsel (hrun.trans (if_neg hlast))).trans (if_neg hlast).symm
  exact ⟨fun hop => htold (by simp [hop]), fun hop => htold (by simp [hop]), fun hop => htold (by simp [hop])⟩

/-! ### Time -/

section
variable {s : State} {i : Ins}

theorem runTimeset_of_leader (hfollows : s.time.follows = false) (hon : s.isOn dTIME = true)
    (hns : (fld i.e0 16 30 : BitVec 30).toNat < 1000000000) (jid : Nat) (queue : BitVec 16) :
    let t := (s.stepTo ((fld i.e0 46 48 : BitVec 48).toNat * 1073741824000000000 + (fld i.e0 16 30 : BitVec 30).toNat * 1073741824
      + (fld i.e0 0 16 : BitVec 16).toNat * 16384)).freshTau
    runTimeset jid queue i s = .ok (z64 (fld i.e0 46 48 : BitVec 48)) 0 ((t.setTimeUnit (t.time.enter .free)).tellTime true).afterStep :=
  (if_neg (by simp [hfollows]; omega)).trans (if_neg (by simp [hon]))

theorem runTimeadj_of_host (hfollows : s.time.follows = false) (hon : s.isOn dTIME = true) (hsource : s.time.source = 1)
    (hset : s.time.state ≠ .unset) (jid : Nat) (queue : BitVec 16) :
    runTimeadj jid queue i s = .ok (z64 (s.acceptOffset i.b.toInt).time.inc) 0 (s.acceptOffset i.b.toInt) :=
  (if_neg (by simp [hfollows, hsource, hset])).trans (if_neg (by simp [hon]))

@[simp] theorem Time.enter_seconds (t : Time) (st : TimeSt) : (t.enter st).seconds = t.seconds := by
  unfold Time.enter; split <;> rfl

/-- A step of the time, with the state that a LOCKED or HOLDOVER block leaves (R261). -/
theorem runTimestep_of_leader (hfollows : s.time.follows = false) (hon : s.isOn dTIME = true) {new : Int}
    (hnew : s.now30 + i.b.toInt * 16384 = new) (hpos : 0 ≤ new) (hlt : new < 2 ^ 48 * 1073741824000000000) (jid : Nat)
    (queue : BitVec 16) :
    let t := (s.stepTo new.toNat).freshTau
    let u := if s.time.state = .locked ∨ s.time.state = .holdover then t.setTimeUnit (t.time.enter .free) else t
    runTimestep jid queue i s = .ok (z64 u.time.seconds) 0 (u.tellTime true).afterStep := by
  subst hnew
  exact (if_neg (by simp [hfollows]; omega)).trans ((if_neg (by simp [hon])).trans (by simp only [Bool.or_eq_true, decide_eq_true_eq]; rfl))

end

/-- Settles O23: the checks pass, and the state decides what a step of the time leaves. -/
theorem timeInstructions : Obligations.TimeInstructions := by
  intro s q i e b done at30 new hfollows hon
  refine ⟨fun h hns => begins_done h rfl (runTimeset_of_leader hfollows hon hns ..),
    fun h hsource hset => begins_done h rfl (runTimeadj_of_host hfollows hon hsource hset ..), fun h hpos hlt hlocked hhold => ?_,
    fun h hpos hlt hstate => ?_⟩
  · have hrun := runTimestep_of_leader hfollows hon rfl hpos hlt e.id e.queue
    simp only [b, hlocked, hhold, or_self, if_false] at hrun
    exact begins_done h rfl hrun
  · have hrun := runTimestep_of_leader hfollows hon rfl hpos hlt e.id e.queue
    simp only [b, hstate, if_true, State.setTimeUnit, Time.enter_seconds] at hrun
    exact begins_done h rfl hrun

end Machine
end Sys2Proof
end

section
/-! KEYRETIRE, the guards, the channels' control, the votes, the control store and the cascade's instructions (R26, R147, R149, R289,
R324 to R326, R349,
R351, R364 to R366, R418, R419). -/

namespace Sys2Proof
namespace Machine

/-! ### Keys and guards -/

/-- R26: the guards may change in PROVISION alone. -/
theorem permits_guard_iff {op : Byte} (h : op = 0x62 ∨ op = 0x63) (i : Ins) (m : Mode) : permits op i m = true ↔ m = .provision := by
  rcases h with rfl | rfl <;> cases m <;> simp [permits, adminOpcode]

section
variable {s : State} {i : Ins}

theorem runKeyretire_of_absent (htarget : i.target.toNat < 64) (h : (s.keySlot (keySlotOf i)).installed = false) (jid : Nat)
    (queue : BitVec 16) : runKeyretire jid queue i s = .ok 0 0 s :=
  (if_neg (by simp [targetBelow, htarget])).trans (if_pos (by simp [h]))

/-- A receive SA's slot is in the upper half of its port's eight. -/
theorem keySlotOf_rx (h : bitOf i.a 2 = true) : 4 ≤ keySlotOf i % 8 := by
  have := (fld i.a 0 2).isLt
  simp only [keySlotOf, slotOf, h, if_true]
  omega

/-- No frame on the wire uses a receive SA, so it is erased at once (R289). -/
theorem runKeyretire_of_rx (htarget : i.target.toNat < 64) (h : (s.keySlot (keySlotOf i)).installed = true) (hrx : bitOf i.a 2 = true)
    (jid : Nat) (queue : BitVec 16) : runKeyretire jid queue i s = .ok 0 0 ((s.setKeySlot (keySlotOf i)
      { s.keySlot (keySlotOf i) with installed := false, retiring := true }).setKeySlot (keySlotOf i) {}) := by
  have hstep : runKeyretire jid queue i s = stepKeyretire (keySlotOf i) (s.setKeySlot (keySlotOf i)
      { s.keySlot (keySlotOf i) with installed := false, retiring := true }) := by
    refine ((if_neg (by simp [targetBelow, htarget])).trans (if_neg (by simp [h]))).trans ?_
    simp [hrx]
  have hslot := s.keySlot_setKeySlot (keySlotOf i) { s.keySlot (keySlotOf i) with installed := false, retiring := true }
    (by intro h; cases congrArg KeySlot.retiring h)
  have hhigh := keySlotOf_rx hrx
  rw [hstep, stepKeyretire, if_neg (by simp; omega), if_neg (by simp [hslot])]

/-- An open guard takes the setting of each port of its target (R149). -/
theorem runGuardset_of_open (htarget : i.target = 0xFFFF ∨ i.target.toNat < 64) (hok : guardOk i = true) (hopen : s.guards.locked = false)
    (jid : Nat) (queue : BitVec 16) :
    let t := s.forEach (guardTargets i) fun s p => s.guardWrite i p
    let r := t.guardResult (t.guardPort (if i.target = 0xFFFF then 0 else i.target.toNat)) i
    runGuardset jid queue i s = .ok r.1 0 r.2 := by
  refine (if_neg ?_).trans (if_neg (by simp [hopen]))
  rcases htarget with h | h <;> simp [h, targetBelow, hok]

theorem runGuardset_of_locked (htarget : i.target.toNat < 64) (hok : guardOk i = true) (hlocked : s.guards.locked = true) (jid : Nat)
    (queue : BitVec 16) : runGuardset jid queue i s = .bad .guardLocked s :=
  (if_neg (by simp [targetBelow, htarget, hok])).trans (if_pos hlocked)

end

/-- Settles O24: a receive SA is on no wire, and the lock decides on the guards. -/
theorem keyRetireAndGuards : Obligations.KeyRetireAndGuards := by
  intro s q i e b n
  refine ⟨fun op m hop => permits_guard_iff hop i m, fun h htarget habsent => begins_done h rfl (runKeyretire_of_absent htarget habsent ..),
    fun h htarget hinst hrx => begins_done h rfl (runKeyretire_of_rx htarget hinst hrx ..), fun h htarget hok => ?_,
    fun h htarget hok hopen => ?_, fun h hopen => begins_done h rfl (if_neg (ne_true_of_eq_false hopen)),
    fun h hlocked => begins_done h rfl (if_pos hlocked)⟩
  · have hone : i.target ≠ 0xFFFF := by rintro h; simp [h] at htarget
    refine ⟨fun hopen => ?_, fun hlocked => begins_done h rfl (runGuardset_of_locked htarget hok hlocked ..)⟩
    have hrun := runGuardset_of_open (.inr htarget) hok hopen e.id e.queue
    simp only [guardTargets, hone, if_false] at hrun
    exact begins_done h rfl hrun
  · have hrun := runGuardset_of_open (.inl htarget) hok hopen e.id e.queue
    simp only [guardTargets, htarget, if_true] at hrun
    exact begins_done h rfl hrun

/-! ### The channels' control -/

section
variable {s : State} {i : Ins}

theorem runDmarun_of_idle (hc : i.target.toNat < 28) (hon : s.isOn dDMA = true) (haddr : hostAddrOk i.b 16 = true)
    (hidle : (s.chan i.target.toNat).isIdle = true) (jid : Nat) (queue : BitVec 16) : runDmarun jid queue i s =
      .ok 0 0 ((s.startProgram i.target.toNat (i.b.setWidth 57) (fld i.a 0 2)).beginBackground queue 2 i.target.toNat) := by
  have hfree : (s.chan i.target.toNat).inUse = false := by
    simp only [Chan.isIdle, Bool.and_eq_true, decide_eq_true_eq, Bool.not_eq_true'] at hidle
    simp [Chan.inUse, hidle.1, hidle.2]
  exact (if_neg (by simp [dmarunOk, targetBelow, hc, haddr, hfree])).trans
    ((if_neg (by simp [hon])).trans (if_neg (by simp [hidle])))

theorem runDmarunArm_of_unarmed (hc : i.target.toNat < 28) (hon : s.isOn dDMA = true) (haddr : hostAddrOk i.b 16 = true)
    (harmed : (s.chan i.target.toNat).armed = false) (jid : Nat) (queue : BitVec 16) : runDmarunArm jid queue i s =
      .ok 0 0 ((s.updChan i.target.toNat fun x => { x with
        shadow := i.b.setWidth 57, shadowPrio := fld i.a 0 2, armed := true }).beginBackground queue 2 (32 + i.target.toNat)) :=
  (if_neg (by simp [dmarunOk, targetBelow, hc, haddr, harmed])).trans (if_neg (by simp [hon]))

/-- DMASTOP clears ARM, halts a channel that waits with reason 6, and leaves one that neither runs nor waits (R326). -/
theorem runDmastop_of_not_running (hc : i.target.toNat < 28) (hon : s.isOn dDMA = true) (jid : Nat) (queue : BitVec 16) :
    let t := (s.updChan i.target.toNat fun x => { x with armed := false }).endBackground 2 (32 + i.target.toNat)
    ((t.chan i.target.toNat).st = .waiting → runDmastop jid queue i s = stepDmastop i (t.haltChan i.target.toNat 6)) ∧
    ((t.chan i.target.toNat).st = .idle ∨ (t.chan i.target.toNat).st = .halted → runDmastop jid queue i s = stepDmastop i t) := by
  intro t
  have hstep {u : State} (hu : stepDmastop i _ = stepDmastop i u) : runDmastop jid queue i s = stepDmastop i u :=
    ((if_neg (by simp [targetBelow, hc])).trans (if_neg (by simp [hon]))).trans hu
  refine ⟨fun hst => hstep ?_, fun hst => hstep ?_⟩
  · simp only [t, hst]
  · rcases hst with hst | hst <;> simp only [t, hst]

end

/-- Settles O25: by the state of the channel. -/
theorem dmaChannelControl : Obligations.DmaChannelControl := by
  intro s q i e b c off hc hon
  exact ⟨fun h haddr harm hidle => begins_done h (by simp [harm]) (runDmarun_of_idle hc hon haddr hidle ..),
    fun h haddr harm hunarmed => begins_done h harm (runDmarunArm_of_unarmed hc hon haddr hunarmed ..),
    fun h hst => begins_absorbs h rfl ((runDmastop_of_not_running hc hon ..).1 hst),
    fun h hst => begins_absorbs h rfl ((runDmastop_of_not_running hc hon ..).2 hst)⟩

/-! ### Votes -/

section
variable {s : State} {i : Ins} {ds : List Nat}

theorem runVote_of_domains (hds : votedDomains i false = some ds) (hfree : ds.find? s.fencedOff = none) (jid : Nat) (queue : BitVec 16) :
    runVote jid queue i s = stepVote (domainSet ds) ((s.placeVotes (fld i.a 0 8).toNat (withRequired ds)).startRails) := by
  simp only [runVote, hds, hfree]

theorem runUnvote_of_requirement {d : Nat} (hds : votedDomains i true = some ds)
    (hd : s.requirementBroken (fld i.a 0 8).toNat ds.reverse = some d) (jid : Nat) (queue : BitVec 16) :
    runUnvote jid queue i s = .done .refusedVote (BitVec.ofNat 64 (256 * d + 0xFE)) 0 s := by
  simp only [runUnvote, hds, hd]

theorem runUnvote_begins (hds : votedDomains i true = some ds) (hd : s.requirementBroken (fld i.a 0 8).toNat ds.reverse = none)
    (hsleep : s.allWouldSleep (fld i.a 0 8).toNat ds.reverse = false) (jid : Nat) (queue : BitVec 16) :
    runUnvote jid queue i s = .more (.unvote ds.reverse [] []) s := by
  simp [runUnvote, hds, hd, hsleep]

end

/-- Settles O26: by what refuses a vote or its withdrawal. -/
theorem votesOnDomains : Obligations.VotesOnDomains := by
  intro s q i e ds b c v
  refine ⟨fun h hds hfree => ?_, fun h hds => ⟨fun hd hsleep => ?_, fun d hd => ?_⟩⟩
  · have hrun := runVote_of_domains hds hfree e.id e.queue
    exact ⟨fun hon => begins_done h rfl (hrun.trans (if_pos hon)),
      fun hoff => begins_more h rfl (hrun.trans (if_neg (ne_true_of_eq_false hoff)))⟩
  · exact begins_more h rfl (runUnvote_begins hds hd hsleep ..)
  · exact begins_done h rfl (runUnvote_of_requirement hds hd ..)

/-! ### The control store -/

/-- A change of the store that the slices' replicas see loads them, and nothing else of the store changes. -/
@[simp] theorem State.changeCs_cs (s : State) (c : Cs) : (s.changeCs c).cs = c := by
  unfold State.changeCs
  dsimp only
  split
  · rfl
  · rw [State.eq_patch_of_off (State.refreshReplicas_off (u := { sorter := true }) rfl _)]; rfl

/-- Result A of a swap is the mapping in force, `verified` being clear. -/
theorem csMapWord_of_unverified {c : Cs} (h : c.verified = false) :
    z64 (fld (csMapWord c) 0 8) = if c.mapped then 0x80#64 ||| z64 c.page else z64 c.page := by
  unfold csMapWord
  rw [h]
  generalize c.page = p
  cases c.mapped <;> revert p <;> decide

theorem runCsswapMap_eq (i : Ins) (s : State) (jid : Nat) (queue : BitVec 16) : runCsswapMap jid queue i s =
    .ok (0x80#64 ||| z64 (fld i.a 0 3)) 0 (s.changeCs { s.cs with mapped := true, page := fld i.a 0 3, verified := false }).stampCs := by
  have hword := csMapWord_of_unverified (c := (s.changeCs { s.cs with mapped := true, page := fld i.a 0 3, verified := false }).stampCs.cs)
    (by simp [State.stampCs, State.setCs, Cs.stamp])
  simp only [runCsswapMap, swapTo, hword]
  simp [State.stampCs, State.setCs, Cs.stamp]

theorem runCsswapUnmap_eq (i : Ins) (s : State) (jid : Nat) (queue : BitVec 16) : runCsswapUnmap jid queue i s =
    .ok 0 0 (s.changeCs { s.cs with mapped := false, page := 0, verified := false }).stampCs := by
  have hword := csMapWord_of_unverified (c := (s.changeCs { s.cs with mapped := false, page := 0, verified := false }).stampCs.cs)
    (by simp [State.stampCs, State.setCs, Cs.stamp])
  simp only [runCsswapUnmap, swapTo, hword]
  simp [State.stampCs, State.setCs, Cs.stamp, z64]

section
variable {done : Nat}

/-- A step of CSVERIFY but the last takes 4,096 words into the CRC. -/
theorem stepCsverify_goes (h : done + 4096 < 65536) (crc : Word) (s : State) :
    stepCsverify done crc s = .more (.csverify (done + 4096) (crcWords s.cs.word done 4096 crc)) s := by
  simp only [stepCsverify, h, if_true]

/-- The last one compares (R351). -/
theorem stepCsverify_last (h : ¬ done + 4096 < 65536) (crc : Word) (s : State) :
    let v := ~~~ crcWords s.cs.word done 4096 crc
    stepCsverify done crc s = if v != s.cs.crc || !s.cs.vendorLoaded then .done .compareMismatch (z64 v) 0 s
      else .ok (z64 v) 0 (s.setCs { s.cs with verified := true }) := by
  simp only [stepCsverify, h, if_false]

end

/-- Settles O27: the mapping word of an unverified store, and the steps of the CRC. -/
theorem controlStoreInstructions : Obligations.ControlStoreInstructions := by
  intro s q i e n crc b map unmap
  refine ⟨fun h hbit => ⟨_, begins_done h (by simp [hbit]) (runCsswapMap_eq ..), rfl, ?_⟩,
    fun h hbit => ⟨_, begins_done h hbit (runCsswapUnmap_eq ..), rfl, ?_⟩, fun h => ?_, fun hlt => stepCsverify_goes hlt crc s, ?_⟩
  · simp [State.stampCs, State.setCs, Cs.stamp, b]
  · simp [State.stampCs, State.setCs, Cs.stamp, b]
  · exact begins_more h rfl (stepCsverify_goes (done := 0) (by decide) ..)
  · intro v
    have hlast := stepCsverify_last (done := 61440) (by decide) crc s
    refine ⟨fun hcrc hloaded => hlast.trans (if_neg ?_), fun hbad => hlast.trans (if_pos ?_)⟩
    · simp [v, ← hcrc, hloaded]
    · exact Bool.or_eq_true_iff.mpr (hbad.imp bne_iff_ne.mpr (by rintro h; rw [h]; rfl))

/-! ### The cascade -/

/-- HEADYIELD names the head afterwards: a head yields and an election follows (R418). -/
theorem runHeadyield_eq (i : Ins) (s : State) (jid : Nat) (queue : BitVec 16) :
    let t := if s.isHead then (s.setCasc { s.casc with yielded := true }).elect else s
    runHeadyield jid queue i s = .ok (z64 t.casc.head) 0 t := rfl

/-- Settles O28: the checks pass, and a head that yields elects another. -/
theorem twinAndHeadInstructions : Obligations.TwinAndHeadInstructions := by
  intro s q i e b m
  have hyield := runHeadyield_eq i b e.id e.queue
  refine ⟨fun h htarget hfit hring hpresent hon => ?_, fun h hserving hadopted => ?_, fun h hhead => ?_, fun h hhead => ?_⟩
  · exact begins_absorbs h rfl ((if_neg (by simp [b, m, htarget, hfit, hring, hpresent])).trans (if_neg (by simp [b, hon])))
  · exact begins_done h rfl (if_neg (by simp [b, hserving, hadopted]))
  · simp only [hhead, if_true] at hyield
    exact begins_done h rfl hyield
  · simp only [hhead, Bool.false_eq_true, if_false] at hyield
    exact begins_done h rfl hyield

end Machine
end Sys2Proof
end

section
/-! The routines that go on, and the queues: doorbells, polling, acceptance, write-backs and posting (R41, R49, R78 to R84, R88, R93 to R98). -/

namespace Sys2Proof
namespace Machine

/-! ### Routines -/

/-- Settles O29: the step of a routine is the one that its record names. -/
theorem routinesGoOn : Obligations.RoutinesGoOn := by
  intro s q i e op r
  exact ⟨fun h hop => begins_absorbs h (by simp [hop]) rfl, fun h => congrArg Host.Outcome.next (routineStep_goes h)⟩

section
variable {s : State} {i : Ins}

theorem stepWaitfor_of_asleep {d : PDesc} (hd : describe s i.a.toNat = some d) (hoff : s.regionOn i.a.toNat = false) (since : Nat)
    (last : Word) : stepWaitfor i since last s = .done .targetAsleep (z64 last) 0 s := by
  simp [stepWaitfor, hd, hoff]

theorem stepPortup_of_up (h : (s.port i.target.toNat).st = .up) (since : Nat) :
    stepPortup i since s = .ok (BitVec.ofNat 64 (s.pm.micros - since)) 0 s := if_pos h

/-- PORTDOWN brings the port DOWN once its wire is free. -/
theorem stepPortdown_of_wireFree (h : (s.port i.target.toNat).wireFree = true) (n : Nat) :
    let t := (s.setLink i.target.toNat .down).resetLanes i.target.toNat
    stepPortdown i 2 n s = .ok (BitVec.ofNat 64 (n + injectedIn (s.port i.target.toNat).onWire + (s.port i.target.toNat).stopRefused)) 0
      (t.setPort i.target.toNat { t.port i.target.toNat with txStopped := false, stopRefused := 0, localIn := false, remoteIn := false }) :=
  if_neg (by simp [h])

/-- The last step of a substitution moves the slice when nothing held before the cut is left, or ten microseconds have passed. -/
theorem stepSpare_last {since mark : Nat} (h : s.frames.rx.any (heldBeforeCut i.target.toNat mark) = false ∨ 10 ≤ s.pm.micros - since) :
    let t := (s.freeFrames (heldBeforeCut i.target.toNat mark)).moveSlice i.target.toNat (bitOf i.a 0)
    stepSpare i 5 since mark s =
      .ok (at' 64 (BitVec.ofNat 5 (t.carrier i.target.toNat)) 16 ||| at' 64 (t.sliceL i.target.toNat).gen 0) 0 t := by
  refine if_neg ?_
  rw [Bool.and_eq_true, decide_eq_true_eq]
  rcases h with h | h
  · exact fun hheld => ne_true_of_eq_false h hheld.1
  · omega

theorem stepKeyretire_of_retiring {n : Nat} (hwire : (n % 8 < 4 && (s.port (n / 8)).wireUses (n % 8)) = false)
    (h : (s.keySlot n).retiring = true) : stepKeyretire n s = .ok 0 0 (s.setKeySlot n {}) :=
  (if_neg (ne_true_of_eq_false hwire)).trans (if_neg (by simp [h]))

/-- A switch that has taken place is not due again. -/
theorem State.fireDue_of_fired {a : Armed} {t : DWord} (ha : s.time.armedEpoch = some a) (hfired : a.fired = some t) :
    s.fireDue false = s := by
  simp [State.fireDue, ha, hfired]

theorem stepEpoch_of_fired {a : Armed} {t : DWord} {jid : Nat} (hs : i.s = false) (ha : s.time.armedEpoch = some a)
    (hfired : a.fired = some t) (hjid : a.jid = some jid) (queue : BitVec 16) (lead : Nat) : stepEpoch jid queue i 1 lead s =
      .done (if a.postponed then .postponed else .ok) t (s.epochResult i.target a.slices)
        (((s.setArmedEpoch none).setCasc { s.casc with epochEnd := s.now16 }).readiness) := by
  have hends : stepEpoch jid queue i 1 lead s = epochEnds jid i lead (s.fireDue false) := rfl
  rw [hends, State.fireDue_of_fired ha hfired]
  simp [epochEnds, hs, ha, hfired, hjid]

end

/-- Settles O30: each step under the condition it waited for. -/
theorem laterStepsOfRoutines : Obligations.LaterStepsOfRoutines := by
  intro s e since n mark lead last ds d a at_ i p
  refine ⟨fun hd hon htest => (stepWaitfor_of_mapped hd hon since last).trans (if_pos htest), fun hd hoff => ?_,
    fun hup => stepPortup_of_up hup since, fun hfree => stepPortdown_of_wireFree hfree n, ⟨(s.takeFree 3).1, rfl⟩,
    fun hclear => stepSpare_last hclear, fun hon => if_pos hon, fun hwire hretiring => stepKeyretire_of_retiring hwire hretiring,
    fun hs ha hfired hjid => stepEpoch_of_fired hs ha hfired hjid ..⟩
  exact stepWaitfor_of_asleep hd hoff since last

/-! ### Doorbells and polling -/

section
variable {s : State} {q : Nat} {x : Queue} {j : RIdx}

theorem qid_toNat (q : QId) : qid q.toNat = q := BitVec.ofNat_toNat .. |>.trans (BitVec.setWidth_eq q)

theorem State.doorbellWrite_of_absent (h : s.queue q = none) : s.doorbellWrite q j = s.queueFault 2 (qid q) := by
  simp only [State.doorbellWrite, h]

theorem State.doorbellWrite_of_fault {r : BitVec 4} (h : s.queue q = some x) (hr : x.doorbellFault j = some r) :
    s.doorbellWrite q j = s.queueFault r (qid q) := by
  simp only [State.doorbellWrite, h, hr]

theorem State.doorbellWrite_of_ok (h : s.queue q = some x) (hr : x.doorbellFault j = none) : s.doorbellWrite q j =
    if x.submits then (((s.setDoorbell q j).setQueue q { x with tail := j }).mirrorQueue q).fetchBelow q
    else (((s.setDoorbell q j).setQueue q { x with head := j }).mirrorQueue q).ringFreed q := by
  simp only [State.doorbellWrite, h, hr]

end

/-- Settles O32: by the rule that the index breaks, and by what a polling queue has in hand. -/
theorem doorbellsAndPolling : Obligations.DoorbellsAndPolling := by
  intro s q w x j
  refine ⟨fun h => ?_, fun h r hr => ?_, fun h hr hsub => ?_, fun h hr hsub => ?_,
    fun h hruns hsub hpoll hstopped hclosing hfetches hready hpassed => ?_⟩
  · exact congrArg Host.Outcome.next ((State.doorbellWrite_of_absent h).trans (by rw [qid_toNat]))
  · exact congrArg Host.Outcome.next ((State.doorbellWrite_of_fault h hr).trans (by rw [qid_toNat]))
  · exact congrArg Host.Outcome.next ((State.doorbellWrite_of_ok h hr).trans (if_pos hsub))
  · exact congrArg Host.Outcome.next ((State.doorbellWrite_of_ok h hr).trans (if_neg (ne_true_of_eq_false hsub)))
  · refine congrArg Host.Outcome.next ?_
    simp only [State.poll, h]
    exact if_pos (by simp [hruns, hsub, hstopped, hclosing, hfetches, hready, hpassed]; exact hpoll)

/-- Settles O33: the branches of the rule, by the distances from the head. -/
theorem doorbellRule : Obligations.DoorbellRule := by
  intro x j
  refine ⟨fun h => if_pos h, fun h hsub hfar => ?_, fun h hsub hnear hback => ?_, fun h hsub hnear hahead => ?_, fun h hsub hfar => ?_,
    fun h hroom => ?_⟩
  all_goals unfold Queue.doorbellFault
  · rw [if_neg (by omega), if_pos hsub, if_pos hfar]
  · rw [if_neg (by omega), if_pos hsub, if_neg (by omega), if_pos hback]
  · rw [if_neg (by omega), if_neg (by simp [hsub]), if_neg (by omega), if_pos hahead]
  · rw [if_neg (by omega), if_neg (by simp [hsub]), if_pos hfar]
  · rw [if_neg (by omega)]
    split
    · rw [if_neg (Nat.not_lt.mpr hroom), if_neg (Nat.lt_irrefl _)]
    · rw [if_neg (Nat.not_lt.mpr hroom), if_neg (Nat.lt_irrefl _)]

/-! ### Fetch and acceptance -/

section
variable {s : State} {q : Nat} {x : Queue}

/-- An entry that was read below the tail, within the ring, not in hand and in its lap's phase is ready (R81). -/
theorem State.fetched_of_usable {f : Fetch} {data : BitVec 512} (hq : s.queue q = some x)
    (hbelow : x.dist f.idx x.head < x.dist f.tail x.head) (hring : x.dist f.tail x.head ≤ x.n)
    (hhand : ({ x with fetches := dropFirst (fun g => g == f) x.fetches } : Queue).inHand f.idx = false)
    (hphase : bitOf data 511 = x.phase f.idx) : s.fetched q f data = s.setQueue q
      { x with fetches := dropFirst (fun g => g == f) x.fetches, ready := x.ready ++ [(f.idx, data)] } := by
  unfold State.fetched
  rw [hq]
  refine (if_neg ?_).trans ((if_neg ?_).trans (if_pos ?_))
  · rw [hhand, Bool.or_false, decide_eq_true_eq]
    change ¬ x.n ≤ x.dist f.idx x.head
    omega
  · rw [hphase]
    change ¬ (x.phase f.idx != x.phase f.idx) = true
    simp
  · rw [Bool.and_eq_true, decide_eq_true_eq, decide_eq_true_eq]
    exact ⟨hbelow, hring⟩

@[simp] theorem State.updEntry_queue (s : State) (jid : Nat) (f : JEntry → JEntry) (q : Nat) : (s.updEntry jid f).queue q = s.queue q := rfl

@[simp] theorem State.dropEntry_queue (s : State) (jid q : Nat) : (s.dropEntry jid).queue q = s.queue q := by
  rw [State.eq_patch_of_off (State.dropEntry_off (u := { out := true, pm := true, casc := true }) rfl rfl rfl s jid)]; rfl

/-- What is left to do once an entry is accepted: the head of its queue passes it, and the next is read (R82). -/
theorem State.retain_of_queue {e : JEntry} (hq : s.queue e.q = some x) : s.retain e =
    let t := s.updEntry e.id fun e => { e with awaits := false }
    ((((if e.st = .skipped then t.dropEntry e.id else t).setQueue e.q x.pass).mirrorQueue e.q).fetchNext e.q) := by
  have hkeeps : (if e.st = .skipped then (s.updEntry e.id fun e => { e with awaits := false }).dropEntry e.id
      else s.updEntry e.id fun e => { e with awaits := false }).queue e.q = some x := by
    split <;> simp [hq]
  simp only [State.retain, hkeeps]

/-- A command that may be taken in is journaled, and accepted or, with a twin, mirrored (R41, R82). -/
theorem State.accept_of_intake {data : BitVec 512} (hq : s.queue q = some x) (hkind : x.kind = .admin ∨ x.kind = .cmd)
    (hintake : s.intake q x = true) (hroom : s.pm.journal.length < 4096) (hon : s.pmOn = true) (htwin : s.twinReach = true)
    (hawaits : s.awaitsTwin q = false) (hfront : x.front = some data) : s.accept q =
    let e := x.journaled q s.nextId data
    let u : State := { s with nextId := s.nextId + 1 }
    let v := if e.st = .skipped then u.setQueue q { x with skip := x.skip - 1 } else u
    if s.mirrors then ((v.setJournal (s.pm.journal ++ [{ e with awaits := true }])).mirrorQueue q).mirrorEntry e false
    else (v.setJournal (s.pm.journal ++ [e])).retain e := by
  have hmay : ¬ (!(x.kind == .admin || x.kind == .cmd) || !s.intake q x || Config.journalSize ≤ s.pm.journal.length
      || !(s.pmOn || s.top.mode == .adopted) || !s.twinReach || s.awaitsTwin q) = true := by
    have hsize : Config.journalSize = 4096 := rfl
    rcases hkind with h | h <;> simp [h, hintake, hon, htwin, hawaits] <;> omega
  unfold State.accept
  simp only [hq, hfront]
  refine (if_neg hmay).trans ?_
  by_cases hskip : (x.journaled q s.nextId data).st = .skipped
  · simp only [State.takeId, hskip, if_true]; rfl
  · simp only [State.takeId, hskip, if_false]; rfl

/-- The entry of a queue that is not closing, as it is journaled. -/
theorem Queue.journaled_of_open (hclosing : x.closing = false) (id : Nat) (data : BitVec 512) : x.journaled q id data =
    { id := id, queue := BitVec.ofNat 16 q, op := (insOfEntry data).1, ins := (insOfEntry data).2, raw := data, idx := x.head, gen := x.gen,
      ran := x.gen, st := if x.skip = 0 then .accepted else .skipped } := by
  simp only [Queue.journaled, hclosing]
  by_cases h : x.skip = 0
  · simp [h]
  · have h' : ¬ x.skip = 0#8 := h
    simp [h']

end

/-- Settles O34: the fetch by its checks, the acceptance by whether the block has a twin. -/
theorem fetchAndAcceptance : Obligations.FetchAndAcceptance := by
  intro s q idx data x f n y t
  refine ⟨fun hq hf hbelow hring hhand hphase => congrArg Host.Outcome.next ?_,
    fun hq hkind hintake hroom hon htwin hawaits hfront hclosing => ?_, fun e hq => ⟨fun hst => ?_, fun hst => ?_⟩⟩
  · have hqueue : s.queue q.toNat = some x := hq
    simp only [hqueue, hf]
    exact State.fetched_of_usable (s := t) hq hbelow hring hhand hphase
  · intro e u v
    have hjournal : x.journaled n s.nextId data = e := Queue.journaled_of_open hclosing ..
    have hskips : e.st = .skipped ↔ ¬ x.skip = 0 := by
      by_cases h : x.skip = 0 <;> simp only [e, h] <;> decide
    have haccept := State.accept_of_intake hq hkind hintake hroom hon htwin hawaits hfront
    rw [hjournal] at haccept
    have hv : (if e.st = .skipped then u.setQueue n { x with skip := x.skip - 1 } else u) = v := by
      simp only [hskips, ite_not, v]
    simp only [u, hv] at haccept
    exact ⟨fun hno => congrArg Host.Outcome.next (haccept.trans (if_neg (ne_true_of_eq_false hno))),
      fun hyes => congrArg Host.Outcome.next (haccept.trans (if_pos hyes))⟩
  · exact (State.retain_of_queue hq).trans (by dsimp only; rw [if_neg hst])
  · exact (State.retain_of_queue hq).trans (by dsimp only; rw [if_pos hst])

/-! ### Injected frames -/

/-- An entry of an inject queue that wants no timestamp is kept, passed by the head, and its frame is read or reported (R88). -/
theorem State.consume_of_intake {s : State} {q : Nat} {x : Queue} {data : BitVec 512} (hq : s.queue q = some x) (hkind : x.kind = .inject)
    (hintake : s.intake q x = true) (htwin : s.twinReach = true) (hfront : x.front = some data) (hclosing : x.closing = false)
    (hwants : (injOfEntry data).wantTs = false) : s.consume q =
    let e : Inj := { injOfEntry data with iid := s.nextId, queue := qid q, idx := x.head, gen := x.gen, wantTs := false }
    let t := ((((({ s with nextId := s.nextId + 1 }).addInj e).mirrorInj e false).setQueue q x.pass).mirrorQueue q).fetchNext q
    if !t.injValid x (injOfEntry data) then t.unsent e.port.toNat (.inject s.nextId) 8 0x068
    else if (t.port e.port.toNat).txStopped then
      let t := t.unsent e.port.toNat (.inject s.nextId) 5 0x060
      t.setPort e.port.toNat { t.port e.port.toNat with stopRefused := (t.port e.port.toNat).stopRefused + 1 }
    else t.startReads e.port.toNat := by
  have hgoes : ¬ (x.kind != .inject || !s.intake q x || !s.twinReach) = true := by simp [hkind, hintake, htwin]
  have hsame : (({ s with nextId := s.nextId + 1 } : State).queue q).getD x = x := by
    change (s.queue q).getD x = x
    rw [hq]; rfl
  unfold State.consume
  simp only [hq, hfront]
  refine (if_neg hgoes).trans ((if_neg (ne_true_of_eq_false hclosing)).trans ?_)
  simp only [hwants, Bool.false_and, Bool.false_eq_true, if_false, State.takeId, hsame]

/-- Settles O35: by whether the operands of the entry break a rule. -/
theorem injectConsumption : Obligations.InjectConsumption := by
  intro s q data x n o e t hq hkind hintake htwin hfront hclosing hwants
  have hconsume := State.consume_of_intake hq hkind hintake htwin hfront hclosing hwants
  refine ⟨fun hvalid hstopped => congrArg Host.Outcome.next (hconsume.trans ?_),
    fun hvalid => congrArg Host.Outcome.next (hconsume.trans ?_)⟩
  · exact (if_neg (by rw [hvalid]; decide)).trans (if_neg (ne_true_of_eq_false hstopped))
  · exact if_pos (by rw [hvalid]; decide)

/-! ### Write-backs, posting, moderation and vectors -/

/-- Settles O36: each event under the condition it looks for. -/
theorem writebackPostingAndModeration : Obligations.WritebackPostingAndModeration := by
  intro s q x hq
  refine ⟨fun hruns hsub howed => congrArg Host.Outcome.next ?_, fun hruns src hsrc => congrArg Host.Outcome.next ?_,
    fun hsub hirq hmod huns hpassed => congrArg Host.Outcome.next ?_⟩
  · simp only [State.headWrite, hq, qid_toNat]
    exact if_pos (by simp [hruns, hsub, howed])
  · rw [if_pos hruns]
    simp only [State.postNext, hq, hsrc]
  · have hmod' : ¬ x.modTime = 0#8 := hmod
    simp only [State.modTimeout, hq]
    exact if_pos (by simp [hsub, hirq, hmod', huns, hpassed])

/-- Settles O38: clearing and unmasking write one vector. -/
theorem vectorPendingAndMask : Obligations.VectorPendingAndMask := by
  intro s v n x
  exact ⟨rfl, rfl, fun hdue => congrArg Host.Outcome.next (if_pos hdue),
    fun hdue => congrArg Host.Outcome.next (if_neg (ne_true_of_eq_false hdue)), fun m hm => State.vector_setVector_ne _ _ _ _ hm⟩

/-! ### The layout of a completion -/

theorem byteAt_append_left {a b : List Byte} {i : Nat} (h : i < a.length) : byteAt (a ++ b) i = byteAt a i :=
  List.getD_append _ _ _ _ h

theorem byteAt_append_right (a b : List Byte) (i : Nat) : byteAt (a ++ b) (a.length + i) = byteAt b i := by
  rw [byteAt, byteAt, List.getD_append_right _ _ _ _ (Nat.le_add_right ..), Nat.add_sub_cancel_left]

/-- Bytes behind a field are read where they stand without it. -/
theorem byteAt_behind {n off : Nat} (h : n ≤ off) (x : Nat) (l : List Byte) : byteAt (leBytes n x ++ l) off = byteAt l (off - n) := by
  have hskip := byteAt_append_right (leBytes n x) l (off - n)
  rwa [leBytes_length, Nat.add_sub_cancel' h] at hskip

theorem slice_behind {n off : Nat} (h : n ≤ off) (x : Nat) (l : List Byte) (len : Nat) :
    slice (leBytes n x ++ l) off len = slice l (off - n) len := by
  refine List.map_congr_left fun i _ => ?_
  rw [byteAt_behind (by omega), Nat.sub_add_comm h]

theorem slice_front (a l : List Byte) : slice (a ++ l) 0 a.length = a := by
  apply List.ext_getElem
  · simp [slice]
  · intro i h1 h2
    simp only [slice, List.getElem_map, List.getElem_range, Nat.zero_add]
    rw [byteAt_append_left h2, byteAt, List.getD_eq_getElem _ _ h2]

/-- The field in front reads as what was written, as far as its bytes hold it. -/
theorem leNat_slice_front (n x : Nat) (l : List Byte) : leNat (slice (leBytes n x ++ l) 0 n) = x % 256 ^ n := by
  have hfront := slice_front (leBytes n x) l
  rw [leBytes_length] at hfront
  rw [hfront, leNat_leBytes]

theorem leBytes_one (x : Byte) : leBytes 1 x.toNat = [x] := by simp [leBytes]

theorem byteAt_front (x : Byte) (l : List Byte) : byteAt (leBytes 1 x.toNat ++ l) 0 = x := by rw [leBytes_one]; rfl

/-- R93: the fields of a completion, one behind the other. -/
theorem complBytes_eq (c : Compl) : complBytes c = leBytes 8 c.cookie.toNat ++ (leBytes 2 c.queue.toNat ++ (leBytes 2 c.slot.toNat ++
    (leBytes 1 c.status.code.toNat ++ (leBytes 1 c.flags.toNat ++ (leBytes 2 c.gen.toNat ++ (leBytes 8 c.a.toNat ++
      (leBytes 7 c.b.toNat ++ []))))))) := by
  simp [complBytes, leBytes_one]

theorem toNat_mod_bytes {w n : Nat} (x : BitVec w) (h : 256 ^ n = 2 ^ w) : x.toNat % 256 ^ n = x.toNat :=
  Nat.mod_eq_of_lt (h ▸ x.isLt)

/-- Settles O37: the fields in front of one are skipped by their lengths. -/
theorem completionEntryLayout : Obligations.CompletionEntryLayout := by
  intro c
  rw [complBytes_eq]
  refine ⟨by simp [leBytes_length], ?_, ?_, ?_, ?_, ?_, ?_, ?_, ?_⟩
  all_goals simp only [slice_behind, byteAt_behind, leNat_slice_front, Nat.reduceLeDiff, Nat.reduceSub]
  · exact toNat_mod_bytes _ (by norm_num)
  · exact toNat_mod_bytes _ (by norm_num)
  · exact toNat_mod_bytes _ (by norm_num)
  · exact byteAt_front ..
  · exact byteAt_front ..
  · exact toNat_mod_bytes _ (by norm_num)
  · exact toNat_mod_bytes _ (by norm_num)
  · norm_num

end Machine
end Sys2Proof
end

section
/-! Accesses to the window and the management path, by their addresses (R10, R12, R376, R436, R493, R500). -/

namespace Sys2Proof
namespace Machine

section
variable {s : State} {a : Nat}

/-! ### The ranges of addresses -/

theorem isBell_of_param (h : a < 0x21000000) : isBell a = false := by simp [isBell]; omega
theorem isDmaBell_of_param (h : a < 0x21000000) : isDmaBell a = false := by simp [isDmaBell]; omega
theorem isVectorWord_of_param (h : a < 0x21000000) : isVectorWord a = false := by simp [isVectorWord]; omega
theorem isParam_of_lt (h : a < 0x21000000) : isParam a = true := by simp [isParam, h]

/-- The words of the bring-up are in region 0, which never sleeps. -/
theorem State.regionOn_of_lt (s : State) (h : a < 0x1000000) : s.regionOn a = true := by
  have hregion : a / 0x1000000 = 0 := Nat.div_eq_of_lt h
  simp [State.regionOn, hregion]

end

section
variable {s : State} {p : Path} {addr : BitVec 34} {v : Word}

/-! ### Writes -/

/-- A write into a parameter region (R12, R376, R436). -/
theorem State.directWrite_of_param (h : addr.toNat < 0x21000000) : s.directWrite addr v =
    if !s.regionOn addr.toNat then s.logAsleep true (addr.setWidth 32)
    else if 0x30 ≤ addr.toNat ∧ addr.toNat ≤ 0x36 ∧ s.bootOpen = true then s.bootWrite addr.toNat v
    else if (describe s addr.toNat).isSome then s.logAccess 1 addr else s.logAccess 3 addr := by
  simp only [State.directWrite, isBell_of_param h, isDmaBell_of_param h, isVectorWord_of_param h, isParam_of_lt h, Bool.true_and]
  simp [and_assoc]

/-- A write above the words of the vector table names nothing. -/
theorem State.directWrite_of_high (h : 0x40006000 ≤ addr.toNat) : s.directWrite addr v = s.logAccess 3 addr := by
  have hbell : isBell addr.toNat = false := by simp [isBell]; omega
  have hdma : isDmaBell addr.toNat = false := by simp [isDmaBell]; omega
  have hvector : isVectorWord addr.toNat = false := by simp [isVectorWord]; omega
  have hparam : isParam addr.toNat = false := by simp [isParam]; omega
  have hboot : ¬ addr.toNat ≤ 0x36 := by omega
  simp [State.directWrite, hbell, hdma, hvector, hparam, hboot]

theorem State.pathWrite_of_runs (h : s.top.resetting ≠ .cold) : s.pathWrite addr v = s.directWrite addr v :=
  if_pos (by simpa [State.windowRuns] using h)

/-- While its bring-up is open a write of 0x36 is the configuration's (R436). -/
theorem State.bootWrite_of_boot (hlow : 0x30 ≤ addr.toNat) (hhigh : addr.toNat ≤ 0x36) (hopen : s.bootOpen = true) :
    s.directWrite addr v = s.bootWrite addr.toNat v := by
  rw [State.directWrite_of_param (by omega), if_neg (by simp [s.regionOn_of_lt (a := addr.toNat) (by omega)]),
    if_pos ⟨hlow, hhigh, hopen⟩]

end

/-- Settles O39: the ranges of addresses exclude each other. -/
theorem directWritesByAddress : Obligations.DirectWritesByAddress := by
  intro s p addr v a
  refine ⟨fun hcold => congrArg Host.Outcome.next (if_neg (by simp [State.windowRuns, hcold])), fun hruns => ?_⟩
  have hwrite (addr : BitVec 34) (v : Word) := State.pathWrite_of_runs (addr := addr) (v := v) hruns
  refine ⟨fun hlow hhigh => congrArg Host.Outcome.next ((hwrite ..).trans ?_),
    fun hlow hhigh => congrArg Host.Outcome.next ((hwrite ..).trans ?_),
    fun hlow hhigh => congrArg Host.Outcome.next ((hwrite ..).trans ?_),
    fun hparam hoff => congrArg Host.Outcome.next ((hwrite ..).trans ?_), fun hlow hhigh hmode hready => ?_,
    fun hparam hon hboot hmapped => congrArg Host.Outcome.next ((hwrite ..).trans ?_),
    fun hhigh => congrArg Host.Outcome.next ((hwrite ..).trans (State.directWrite_of_high hhigh))⟩
  · have hq : (BitVec.ofNat 12 (a - 0x40000000)).toNat = a - 0x40000000 := by
      rw [BitVec.toNat_ofNat, Nat.mod_eq_of_lt (by omega)]
    rw [hq]
    exact if_pos (by simp [isBell]; omega)
  · have hc : (BitVec.ofNat 5 (a - 0x40001000)).toNat = a - 0x40001000 := by
      rw [BitVec.toNat_ofNat, Nat.mod_eq_of_lt (by omega)]
    rw [hc]
    exact (if_neg (by simp [isBell]; omega)).trans (if_pos (by simp [isDmaBell]; omega))
  · exact (if_neg (by simp [isBell]; omega)).trans ((if_neg (by simp [isDmaBell]; omega)).trans (if_pos (by simp [isVectorWord]; omega)))
  · rw [State.directWrite_of_param hparam, if_pos (by rw [hoff]; rfl)]
  · have hopen : s.bootOpen = true := by simp [State.bootOpen, hmode, hready]
    exact ⟨congrArg Host.Outcome.next ((hwrite ..).trans (State.bootWrite_of_boot hlow hhigh hopen)),
      fun _ => congrArg Host.Outcome.next ((hwrite ..).trans (State.bootWrite_of_boot (by decide) (by decide) hopen))⟩
  · rw [State.directWrite_of_param hparam, if_neg (by rw [hon]; decide), if_neg hboot, if_pos hmapped]

/-! ### Reads -/

section
variable {s : State} {p : Path} {addr : BitVec 34}

theorem State.pathRead_of_runs (hp : p ≠ .postmaster) (h : s.top.resetting ≠ .cold) :
    s.pathRead p addr = (s.directRead p addr).2.emit (.answer p addr (s.directRead p addr).1) :=
  (if_neg hp).trans (if_neg (by simpa [State.windowRuns] using h))

/-- A read in a parameter region (R10, R376, R493). -/
theorem State.directRead_of_param (h : addr.toNat < 0x21000000) : s.directRead p addr =
    if !s.regionOn addr.toNat then (Config.asleepWord, s.logAsleep false (addr.setWidth 32))
    else match describe s addr.toNat with
    | some d => ((s.readMapped p d addr.toNat).1, d.onDirect (s.readMapped p d addr.toNat).2)
    | none => (0, s.logAccess 2 addr) := by
  simp only [State.directRead, isBell_of_param h, isDmaBell_of_param h, isVectorWord_of_param h, isParam_of_lt h, Bool.true_and, if_true]
  rfl

end

/-- Settles O40: a read of a parameter region by its region and by what maps the word; its kin are reads. -/
theorem directReadsByAddress : Obligations.DirectReadsByAddress := by
  intro s p addr k d a hp hruns
  have hread := State.pathRead_of_runs (addr := addr) hp hruns
  refine ⟨fun hparam hon hd => ?_, fun hparam hoff => ?_, fun hparam hon hd => ?_, rfl, rfl, rfl, rfl⟩
  · have hval := State.directRead_of_param (s := s) (p := p) hparam
    rw [if_neg (by rw [hon]; decide), hd] at hval
    exact congrArg Host.Outcome.next (hread.trans (by rw [hval]))
  · have hval := State.directRead_of_param (s := s) (p := p) hparam
    rw [if_pos (by rw [hoff]; rfl)] at hval
    exact congrArg Host.Outcome.next (hread.trans (by rw [hval]; rfl))
  · have hval := State.directRead_of_param (s := s) (p := p) hparam
    rw [if_neg (by rw [hon]; decide), hd] at hval
    exact congrArg Host.Outcome.next (hread.trans (by rw [hval]))

end Machine
end Sys2Proof
end

section
/-! The instructions and events of the DMA channels (R314 to R328). -/

namespace Sys2Proof
namespace Machine

section
variable {s : State} {n : Nat} {w : ChIns}

/-- A guard on what does not hold passes what holds. -/
theorem not_eq_true_of_not {b : Bool} (h : b = true) : ¬ (!b) = true := by simp [h]

/-! ### Transfers -/

/-- A transfer whose flags name a cursor loads it, takes the points at byte 0 and makes its first accesses (R315, R322). -/
theorem State.beginXfer_of_cursor {ch : Chan} (hload : loadCursor (fld w.flags 0 2) w.addr (s.chan n) = some ch) (h f : Bool)
    (x : Span → Xfer) : s.beginXfer n w true h f x =
      let r := (s.setChan n ch).pointsReached n { total := w.y.toNat, h := h, f := f }
      (r.2.updChan n fun y => { y with xfer := some (x r.1) }).chanProgress n := by
  unfold State.beginXfer
  rw [if_pos rfl, hload]

/-- Flags that name none, or one that the instruction may not load, halt the channel. -/
theorem State.beginXfer_of_no_cursor {allowed : Bool} (hload : allowed = false ∨ loadCursor (fld w.flags 0 2) w.addr (s.chan n) = none)
    (h f : Bool) (x : Span → Xfer) : s.beginXfer n w allowed h f x = s.haltChan n 5 := by
  have hnone : (if allowed then loadCursor (fld w.flags 0 2) w.addr (s.chan n) else none) = none := by
    rcases hload with h | h <;> simp [h]
  unfold State.beginXfer
  rw [hnone]

end

/-- Settles O42: each instruction of a ready channel begins a transfer, and the flags decide. -/
theorem transfersBegin : Obligations.TransfersBegin := by
  intro s c w ch n begins'
  have hmove (h : s.chanReady n 1 w = true) : s.chanMove n w = _ := if_pos h
  have hfill (h : s.chanReady n 2 w = true) : s.chanFill n w = _ := if_pos h
  have hcompare (h : s.chanReady n 3 w = true) : s.chanCompare n w = _ := if_pos h
  refine ⟨fun hload => ⟨fun h => ?_, fun h hflags => ?_, fun h hflags => ?_, fun h => ?_⟩, fun hload => ⟨fun h => ?_, fun h => ?_, fun h => ?_⟩⟩
  all_goals refine congrArg Host.Outcome.next ?_
  · exact (hmove h).trans (State.beginXfer_of_cursor hload ..)
  · have hallowed : (fld w.flags 0 2 != 0) = true := bne_iff_ne.mpr hflags
    rw [hallowed] at hfill
    exact (hfill h).trans (State.beginXfer_of_cursor hload ..)
  · exact (hfill h).trans (State.beginXfer_of_no_cursor (.inl (by rw [hflags]; rfl)) ..)
  · exact (hcompare h).trans (State.beginXfer_of_cursor hload ..)
  · exact (hmove h).trans (State.beginXfer_of_no_cursor (.inr hload) ..)
  · exact (hfill h).trans (State.beginXfer_of_no_cursor (.inr hload) ..)
  · exact (hcompare h).trans (State.beginXfer_of_no_cursor (.inr hload) ..)

/-! ### Loops and waits -/

section
variable {s : State} {n : Nat} {w : ChIns}

/-- LOOP of a ready channel, to an address that the channel may read a line at. -/
theorem State.chanLoop_of_ready (h : s.chanReady n 4 w = true) (haddr : w.addr.toNat % 16 = 0) : s.chanLoop n w =
    let x := s.chan n
    let r := if bitOf w.flags 0 then loopStep x.active1 x.lc1 w.y else loopStep x.active0 x.lc0 w.y
    let t := s.setChan n (if bitOf w.flags 0 then { x with active1 := r.2.1, lc1 := r.2.2 } else { x with active0 := r.2.1, lc0 := r.2.2 })
    if r.1 then t.chanGoesTo n w.addr true else t.chanNext n :=
  (if_neg (not_eq_true_of_not h)).trans (if_neg (by simp [haddr]))

theorem State.chanLoop_of_misaligned (h : s.chanReady n 4 w = true) (haddr : w.addr.toNat % 16 ≠ 0) :
    s.chanLoop n w = s.haltChan n 5 :=
  (if_neg (not_eq_true_of_not h)).trans (if_pos (by simp [haddr]))

/-- WAIT of a time (R318). -/
theorem State.chanWait_of_time (h : s.chanReady n 5 w = true) (hkind : fld w.flags 0 2 = 0#2) : s.chanWait n w =
    if w.x = 0 then s.chanNext n
    else s.setChan n { s.chan n with st := .waiting, waitFor := none, waitUs := w.x.toNat, waitAt := s.clock } := by
  unfold State.chanWait
  rw [if_neg (not_eq_true_of_not h), hkind]
  rfl

/-- WAIT for credits (R319). -/
theorem State.chanWait_of_credits (h : s.chanReady n 5 w = true) (hkind : fld w.flags 0 2 = 1#2) : s.chanWait n w =
    if w.y.toNat ≤ (s.chan n).credits.toNat then
      (s.setChan n { s.chan n with credits := (s.chan n).credits - w.y.setWidth 8 }).chanNext n
    else s.setChan n { s.chan n with st := .waiting, waitFor := some w.y.toNat, waitUs := w.x.toNat, waitAt := s.clock } := by
  unfold State.chanWait
  rw [if_neg (not_eq_true_of_not h), hkind]
  rfl

end

/-- Settles O43: by the channel, by the alignment and the count of a loop, and by the kind of a wait. -/
theorem doorbellsLoopsAndWaits : Obligations.DoorbellsLoopsAndWaits := by
  intro s c w v n x
  refine ⟨fun hres => ?_, fun hlt hoff => ?_, fun hlt hon => ?_, fun h haddr hone => ?_, fun h haddr hzero => ?_, fun h haddr => ?_,
    fun h hkind hx => ?_, fun h hkind hx => ?_, fun h hkind hle => ?_, fun h hkind hlt => ?_, fun hruns hst hfor hpassed => ?_,
    fun hruns hst hfor hus hpassed => ?_⟩
  · exact congrArg Host.Outcome.next (if_pos hres)
  · exact congrArg Host.Outcome.next ((if_neg (Nat.not_le.mpr hlt)).trans (if_pos (by rw [hoff]; rfl)))
  · exact congrArg Host.Outcome.next ((if_neg (Nat.not_le.mpr hlt)).trans (if_neg (by rw [hon]; decide)))
  · have hloop := State.chanLoop_of_ready h haddr
    simp only [hone, if_true] at hloop
    exact congrArg Host.Outcome.next hloop
  · have hloop := State.chanLoop_of_ready h haddr
    simp only [hzero, Bool.false_eq_true, if_false] at hloop
    exact congrArg Host.Outcome.next hloop
  · exact congrArg Host.Outcome.next (State.chanLoop_of_misaligned h haddr)
  · exact congrArg Host.Outcome.next ((State.chanWait_of_time h hkind).trans (if_pos hx))
  · exact congrArg Host.Outcome.next ((State.chanWait_of_time h hkind).trans (if_neg hx))
  · exact congrArg Host.Outcome.next ((State.chanWait_of_credits h hkind).trans (if_pos hle))
  · exact congrArg Host.Outcome.next ((State.chanWait_of_credits h hkind).trans (if_neg (Nat.not_le.mpr hlt)))
  · have hst' : (s.chan c.toNat).st = .waiting := hst
    have hfor' : (s.chan c.toNat).waitFor = none := hfor
    have hpassed' : s.usPassed (s.chan c.toNat).waitUs (s.chan c.toNat).waitAt = true := hpassed
    exact congrArg Host.Outcome.next (if_pos (by simp [hruns, hst', hfor', hpassed']))
  · have hst' : (s.chan c.toNat).st = .waiting := hst
    have hfor' : (s.chan c.toNat).waitFor.isSome = true := hfor
    have hus' : (s.chan c.toNat).waitUs ≠ 0 := hus
    have hpassed' : s.usPassed (s.chan c.toNat).waitUs (s.chan c.toNat).waitAt = true := hpassed
    exact congrArg Host.Outcome.next (if_pos (by simp [hruns, hst', hfor', hus', hpassed']))

/-! ### Signals, links and ends -/

section
variable {s : State} {n : Nat} {w : ChIns}

/-- SIGNAL of a ready channel to a word's address: a write first where it asks for one, else the vector where it names one (R316). -/
theorem State.chanSignal_of_ready (h : s.chanReady n 6 w = true) (haddr : w.addr.toNat % 4 = 0) : s.chanSignal n w =
    if bitOf w.flags 3 then
      (s.setChan n { s.chan n with xfer := some (.signal (if bitOf w.flags 2 then some (fld w.y 0 11) else none)) }).chanWrites n
        w.addr.toNat 0 (leBytes 4 w.x.toNat) false (nextAccesses w.addr.toNat 4 4)
    else (if bitOf w.flags 2 then s.fireVector (fld w.y 0 11 : BitVec 11).toNat else s).chanNext n := by
  unfold State.chanSignal
  rw [if_neg (not_eq_true_of_not h), if_neg (by simp [haddr])]
  cases bitOf w.flags 2 <;> rfl

/-- END keeps its address, and reads again where a doorbell has come (R325). -/
theorem State.chanEnd_of_ready (h : s.chanReady n 0 w = true) : s.chanEnd n w =
    let t := s.setChan n { s.chan n with endAt := (s.chan n).pc, endValid := true }
    if (s.chan n).reread then t.rereadEnd n else t.programEnds n := by
  have hchan : (s.setChan n { s.chan n with endAt := (s.chan n).pc, endValid := true }).chan n
      = { s.chan n with endAt := (s.chan n).pc, endValid := true } := State.chan_setChan _ _ _ (by intro h; cases congrArg Chan.endValid h)
  refine (if_neg (not_eq_true_of_not h)).trans ?_
  simp only [State.updChan, hchan]

/-- A re-read that finds a LINK jumps to it. -/
theorem State.rereadDone_of_link {target : HostAddr} (hruns : s.dmaRuns = true) (hxfer : (s.chan n).xfer = some .reread)
    (haddr : target.toNat % 16 = 0) : s.rereadDone n true target = s.chanGoesTo n target true :=
  (if_neg (by simp [hruns, hxfer])).trans ((if_pos rfl).trans (if_neg (by simp [haddr])))

end

/-- Settles O44: by the flags of a signal, by whether a doorbell has come, and by what a re-read finds. -/
theorem signalsLinksAndEnds : Obligations.SignalsLinksAndEnds := by
  intro s c w op target n x
  refine ⟨fun h haddr => ⟨fun hwrite hfire => ?_, fun hwrite hfire => ?_, fun hwrite => ?_⟩, fun h haddr => ?_, fun h => ?_, fun h hop => ?_,
    fun h => ⟨fun hre => ?_, fun hre => ?_⟩, fun hruns hxfer haddr => ?_, fun hruns hst harmed hxfer => ?_,
    fun b => ⟨fun hop => if_neg hop, fun hop => if_pos hop⟩⟩
  · have hsignal := State.chanSignal_of_ready h haddr
    simp only [hwrite, hfire, Bool.false_eq_true, if_false] at hsignal
    exact congrArg Host.Outcome.next hsignal
  · have hsignal := State.chanSignal_of_ready h haddr
    simp only [hwrite, hfire, Bool.false_eq_true, if_false, if_true] at hsignal
    exact congrArg Host.Outcome.next hsignal
  · exact congrArg Host.Outcome.next ((State.chanSignal_of_ready h haddr).trans (if_pos hwrite))
  · exact congrArg Host.Outcome.next ((if_neg (not_eq_true_of_not h)).trans (if_neg (by simp [haddr])))
  · exact congrArg Host.Outcome.next ((if_neg (by rw [show s.chanReady c.toNat 8 w = true from h]; decide)).trans (if_pos rfl))
  · exact congrArg Host.Outcome.next ((if_neg (by rw [show s.chanReady c.toNat op w = true from h]; simp; omega)).trans (if_neg
      (by rintro rfl; exact absurd hop (by decide))))
  · exact congrArg Host.Outcome.next ((State.chanEnd_of_ready h).trans (if_neg (ne_true_of_eq_false hre)))
  · exact congrArg Host.Outcome.next ((State.chanEnd_of_ready h).trans (if_pos hre))
  · have hxfer' : (s.chan c.toNat).xfer = some .reread := hxfer
    exact congrArg Host.Outcome.next ((if_pos (by simp [hruns, hxfer'])).trans
      (State.rereadDone_of_link (s := s.setDma _) hruns hxfer haddr))
  · have hst' : (s.chan c.toNat).st = .idle := hst
    have harmed' : (s.chan c.toNat).armed = true := harmed
    have hxfer' : (s.chan c.toNat).xfer = none := hxfer
    exact congrArg Host.Outcome.next (if_pos (by simp [hruns, hst', harmed', hxfer']))

end Machine
end Sys2Proof
end

section
/-! The boundary's ports: answers of the fabric, reads of the target, the management target (R323, R468 to R471, R482). -/

namespace Sys2Proof
namespace Machine

section
variable {s : State} {tag : BitVec 10} {r : Req}

/-- An answer to a request that stands: an error with tries left sends it again, any other frees its tag (R323). -/
theorem State.masterAnswer_of_request (h : s.dma.reqs.find? (fun x => x.tag == tag) = some r) (err : Bool) (data : List Byte) :
    s.masterAnswer tag err data =
      if err && r.tries != 0 then
        (s.setDma { s.dma with reqs := updFirst (fun r => r.tag == tag) (fun r => { r with tries := r.tries - 1 }) s.dma.reqs }).emit
          (if r.isWrite then .write tag r.addr r.data r.relaxed else .read tag r.addr r.len)
      else
        let t := (s.setDma { s.dma with reqs := dropFirst (fun r => r.tag == tag) s.dma.reqs }).sendBacklog
        (if err then (t.internalFails r).failedAccess r else t.answered r data).internalEnds := by
  simp only [State.masterAnswer, h]

/-- A match outside the entry window is acknowledged and wakes; with HOST on it is relayed by a head that relays (R482). -/
theorem State.mgmtMatch_of_awake (hwindow : s.entryWindow = false) (hon : s.isOn dHOST = true)
    (hrelay : s.isHead = false ∨ bitOf s.power.wakeCfg 27 = false) : s.mgmtMatch = (s.emit (.mgmtAck true)).wake 5 0 := by
  have hhost : (s.emit (.mgmtAck true)).isOn dHOST = true := hon
  have hno : ((s.emit (.mgmtAck true)).isHead && bitOf s.power.wakeCfg 27) = false := by
    have hhead : (s.emit (.mgmtAck true)).isHead = s.isHead := rfl
    rcases hrelay with h | h <;> simp [hhead, h]
  unfold State.mgmtMatch
  rw [if_neg (ne_true_of_eq_false hwindow)]
  simp only [hhost, if_true]
  exact congrArg (fun t => State.wake t 5 0) (if_neg (ne_true_of_eq_false hno))

/-- While HOST is asleep SCL is held, and what is to be relayed is owed. -/
theorem State.mgmtMatch_of_asleep (hwindow : s.entryWindow = false) (hoff : s.isOn dHOST = false) : s.mgmtMatch =
    (({ s.emit (.mgmtAck true) with power := { s.power with sclHeld := true, relayOwed := bitOf s.power.wakeCfg 27 } }.emit
      .mgmtHoldScl).wake 5 0) := by
  have hhost : (s.emit (.mgmtAck true)).isOn dHOST = false := hoff
  unfold State.mgmtMatch
  rw [if_neg (ne_true_of_eq_false hwindow)]
  simp only [hhost]
  rfl

end

/-- Settles O46: by the answer, by the PEC, and by HOST and the entry window. -/
theorem fabricAndManagementPorts : Obligations.FabricAndManagementPorts := by
  intro s tag data r tt addr a v freed
  refine ⟨fun h htries => ?_, fun h htries => ?_, fun h => ?_, fun hruns => ?_, fun hon => ⟨?_, ?_, fun hruns => ⟨?_, ?_⟩,
    fun hwindow hrelay => ?_⟩,
    fun hoff hwindow => ?_, fun hwindow => ?_⟩
  all_goals refine congrArg Host.Outcome.next ?_
  · exact (State.masterAnswer_of_request h ..).trans (if_pos (by simp [htries]))
  · exact (State.masterAnswer_of_request h ..).trans (if_neg (by simp [htries]))
  · exact (State.masterAnswer_of_request h ..).trans (if_neg (by simp))
  · exact if_pos (by simpa [State.windowRuns] using hruns)
  · exact (if_neg (not_eq_true_of_not hon)).trans (if_pos rfl)
  · exact (if_neg (not_eq_true_of_not hon)).trans (if_pos rfl)
  · exact ((if_neg (not_eq_true_of_not hon)).trans (if_neg (by decide))).trans (by rw [State.pathWrite_of_runs hruns])
  · exact (if_neg (not_eq_true_of_not hon)).trans (if_neg (by decide))
  · exact State.mgmtMatch_of_awake hwindow hon hrelay
  · exact State.mgmtMatch_of_asleep hwindow hoff
  · exact if_pos hwindow

end Machine
end Sys2Proof
end


section

/-! The reception of frames (O47). -/

namespace Sys2Proof
namespace Machine

/-- The state once a received frame has been dealt to its slice and its fragments and reassembly error have been counted. -/
def State.frameArrives (s : State) (n : Nat) (f : RxFrame) (y : Port) : State :=
  let d := y.deal n f.preempt
  let t := ((s.setPort n d.2).arrived d.1 n f.preempt).count n 0x084 (if f.preempt then f.fragments.length - 1 else 0)
  if reasmErr f then t.event n 0x086 else t

/-- What becomes of a frame that has arrived: it is counted under the first reason that drops it, or accepted. -/
def State.frameJudged (t : State) (n k : Nat) (f : RxFrame) : State :=
  (match t.rxReason n f with
  | some w => t.event n w
  | none => t.accepted n k f (f.bytes.take (f.bytes.length - 4))).drained k

section Receives
variable {s t : State} {n k w : Nat} {f : RxFrame}

theorem State.receive_of_ended (h : (s.port n).mayEnd f = false) : s.receive n f = s :=
  if_pos (by rw [h]; rfl)

theorem State.receive_of_mayEnd (hend : (s.port n).mayEnd f = true) (hon : s.portOn n = true) (hr : s.top.resetting = .none) :
    s.receive n f = (s.frameArrives n ((s.port n).endFrame f).2 ((s.port n).endFrame f).1).frameJudged n
      (((s.port n).endFrame f).1.deal n ((s.port n).endFrame f).2.preempt).1 ((s.port n).endFrame f).2 :=
  if_neg (by rw [hend, hon, hr]; decide)

theorem Port.endFrame_of_up {x : Port} (h : x.st = .up) : x.endFrame f = (x, f) := if_pos h

theorem Port.endFrame_of_not_up {x : Port} (h : x.st ≠ .up) :
    x.endFrame f = (if f.preempt then { x with endP := false } else { x with endE := false }, { f with codeBad := true }) :=
  if_neg h

theorem Port.mayEnd_of_up {x : Port} (h : x.st = .up) : x.mayEnd f = true := by simp [Port.mayEnd, h]

theorem State.receive_of_up (hup : (s.port n).st = .up) (hon : s.portOn n = true) (hr : s.top.resetting = .none) :
    s.receive n f = (s.frameArrives n f (s.port n)).frameJudged n ((s.port n).deal n f.preempt).1 f := by
  rw [State.receive_of_mayEnd (Port.mayEnd_of_up hup) hon hr, Port.endFrame_of_up hup]

theorem State.frameJudged_of_reason (h : t.rxReason n f = some w) : t.frameJudged n k f = (t.event n w).drained k := by
  rw [State.frameJudged, h]

theorem State.frameJudged_of_good (h : t.rxReason n f = none) :
    t.frameJudged n k f = (t.accepted n k f (f.bytes.take (f.bytes.length - 4))).drained k := by
  rw [State.frameJudged, h]

/-- A frame shorter than 64 bytes is a runt, whatever else is wrong with it. -/
theorem State.rxReason_of_runt (h : f.bytes.length < 64) : t.rxReason n f = some 0x020 := if_pos h

/-- A frame that ended without a terminate always has a reason of R120: no later than its bad code. -/
theorem State.rxReason_of_codeBad : ∃ w, t.rxReason n { f with codeBad := true } = some w := by
  unfold State.rxReason
  simp only [Bool.true_or, if_true]
  repeat' split
  all_goals exact ⟨_, rfl⟩

theorem execPauseFrameReceive_of_pause {p : PortId} (hty : be16 f.bytes 12 = 0x8808)
    (hop : be16 f.bytes 14 = 1 ∨ be16 f.bytes 14 = 0x0101) : execPauseFrameReceive p f s = execFrameReceive p f s := by
  refine congrArg Host.Outcome.next (if_pos ?_)
  obtain h | h := hop <;> simp [hty, h]

end Receives

/-- Settles O47: the guard of `State.receive`, then the first reason of R120 that applies to the state the frame has arrived in. -/
theorem frameReception : Obligations.FrameReception := by
  intro s p f i n x body arrives t k
  refine ⟨fun h => congrArg Host.Outcome.next (State.receive_of_ended h), fun hup hon hr => ?_, fun hup hend hon hr => ?_,
    execPauseFrameReceive_of_pause, fun h => congrArg Host.Outcome.next (if_pos h)⟩
  · have hrun : exec (.frameReceive p f) s = .next (t.frameJudged n k f) := congrArg Host.Outcome.next (State.receive_of_up hup hon hr)
    refine ⟨fun w h => hrun.trans ?_, fun h => hrun.trans ?_, fun h hty => hrun.trans ?_, fun h hty => hrun.trans ?_⟩
    · rw [State.frameJudged_of_reason h]
    · rw [State.frameJudged_of_reason (State.rxReason_of_runt h)]
    · rw [State.frameJudged_of_good h]
      exact congrArg (fun v : State => Host.Outcome.next (v.drained k)) (if_pos hty)
    · rw [State.frameJudged_of_good h]
      exact congrArg (fun v : State => Host.Outcome.next (v.drained k)) (if_neg hty)
  · intro y
    obtain ⟨w, hw⟩ := State.rxReason_of_codeBad (t := arrives y) (n := n) (f := f)
    refine ⟨w, hw, congrArg Host.Outcome.next ((State.receive_of_mayEnd hend hon hr).trans ?_)⟩
    rw [Port.endFrame_of_not_up hup]
    exact State.frameJudged_of_reason hw

end Machine
end Sys2Proof

end


section

/-! Preemption and transmission (O48). -/

namespace Sys2Proof
namespace Machine

@[simp] theorem portId_ofNat_toNat (p : PortId) : BitVec.ofNat 6 p.toNat = p := by simp

/-- The frame a pipeline frame without a timestamp becomes in transmit staging. -/
def TxFr.ofPipe (s : State) (k : BitVec 4) (p : PortId) (w : QWord) (frame : List Byte) : TxFr :=
  { fid := s.nextId, port := p, slice := some k, bytes := frame, src := .pipe w none, prio := fld w 125 3,
    preempt := (s.port p.toNat).preemptEn && bitOf (s.port p.toNat).map (fld w 125 3 : Prio).toNat,
    cells := s.txCells p.toNat frame.length false }

section Transmits
variable {s : State} {p : PortId} {k : BitVec 4} {b : Nat} {w : QWord} {frame : List Byte} {f g : TxFr} {n fuel : Nat} {e : Inj}

theorem State.sendVerify_eq (r : Bool) : s.sendVerify p.toNat r =
    (s.toLanes p.toNat (Pcs.send (preVerify r) (List.replicate 60 0 ++ mcrc (List.replicate 60 0)))).emit
      (if r then .respond p else .verify p) := by
  simp [State.sendVerify]

/-! The verify exchange -/

theorem execVerifyReceive_answers (hen : (s.port p.toNat).preemptEn = true) (hup : (s.port p.toNat).st = .up) :
    exec (.verifyReceive p) s = .next (s.sendVerify p.toNat true) :=
  congrArg Host.Outcome.next (if_pos (by rw [hen, hup]; rfl))

theorem State.verifyTimer_of_due (hv : (s.port n).verify = .verifying)
    (ht : s.msPassed (s.port n).verifyTime.toNat (s.port n).verifyAt = true) :
    s.verifyTimer n = if (s.port n).attempts.toNat < 3 then
        (s.setPort n { s.port n with attempts := (s.port n).attempts + 1, verifyAt := s.clock }).sendVerify n false
      else (s.setPort n { s.port n with verify := .failed }).event n 0x087 :=
  if_neg (by rw [hv, ht]; simp)

/-! The start of a frame -/

theorem Port.nextTx_cons {x : Port} {r : List TxFr} (htx : x.tx = g :: r) (hp : g.preempt = false ∨ x.active = false)
    (hh : x.holds g.prio = false) : x.nextTx false = some g := by
  rw [Port.nextTx, htx]
  refine List.find?_cons_of_pos ?_
  obtain h | h := hp <;> simp [h, hh]

theorem State.startHeld_of_not_injected (h : g.injected = false) : s.startHeld n false g = s.startTx n false g := by
  unfold TxFr.injected at h
  unfold State.startHeld
  cases hg : g.src with
  | inject iid => rw [hg] at h; cases h
  | pipe w r => rfl

theorem State.tryStart_starts (hn : (s.port n).nextTx false = some g) (hi : g.injected = false) (hc : s.startCheck n g = none) :
    State.tryStart (fuel + 1) n false s = s.startTx n false g := by
  rw [State.tryStart, hn]
  simp only [hi, Bool.false_and, Bool.false_eq_true, if_false, hc]
  exact State.startHeld_of_not_injected hi

theorem State.txStart_express (hup : (s.port n).st = .up) (hw : (s.port n).wireFree = true) (hr : s.top.resetting = .none) :
    s.txStart n false = State.tryStart (s.port n).tx.length n false s :=
  (if_neg (by rw [hup, hw, hr]; decide)).trans (if_pos rfl)

/-! Suspension and end -/

theorem State.preemptAt_cuts (hwp : (s.port n).wireP = some g) (ha : (s.port n).active = true) (hs : (s.port n).suspended = false)
    (hwe : (s.port n).wireE = none) (hb : g.preemptPoint b = true) (hx : ((s.port n).nextTx false).isSome = true) :
    s.preemptAt n b = ((((s.sendFragment n g b).setPort n
        { (s.sendFragment n g b).port n with wireP := some { g with sent := b }, suspended := true }).event n 0x085).emit
          (.txFragment (BitVec.ofNat 6 n) b)).pauseDue n := by
  unfold State.preemptAt
  simp only [hwp]
  exact if_pos (by simp [ha, hs, hwe, hb, hx])

theorem State.txEnd_express (h : (s.port n).wireE = some g) :
    s.txEnd n false = (((((((s.setPort n { s.port n with wireE := none }).sendLast n g).zeroRetired n).countSent n g).reportSent n g).emit
      (.txEnd (BitVec.ofNat 6 n))).pauseDue n).startReads n := by
  unfold State.txEnd
  simp [h]

/-! Frames of the pipeline -/

theorem State.pipeReserve_of_no_stamp (h : bitOf w 124 = false) : s.pipeReserve w = (none, s) := if_pos (by rw [h]; rfl)

section Crosses
variable (hpb : s.pbReset = false) (hon : s.sliceOn k.toNat = true) (hc : (s.port p.toNat).configured = true)
  (hk : (s.slicesOfPort p.toNat).contains k.toNat = true) (hl : (fld w 12 14).toNat = frame.length) (h14 : 14 ≤ frame.length)
  (hmax : frame.length ≤ 16380) (hts : bitOf w 124 = false)
include hpb hon hc hk hl h14 hmax hts

theorem State.pipeTx_of_down (hd : (s.port p.toNat).st ≠ .up ∨ (s.port p.toNat).txStopped = true) {tie : Bool} :
    s.pipeTx k.toNat p.toNat w frame tie = s.unsent p.toNat (.pipe w none) 5 0x060 := by
  have hd' : ((s.port p.toNat).st != .up || (s.port p.toNat).txStopped) = true := by
    obtain h | h := hd <;> simp [h]
  refine (if_neg (by simp [hpb, hon])).trans ((if_neg (by rw [hc, hk]; decide)).trans ((if_neg ?_).trans ((if_neg ?_).trans ?_)))
  · simp [hl]; omega
  · rw [hd']; simp
  · rw [State.pipeReserve_of_no_stamp hts]
    exact if_pos hd'

theorem State.pipeTx_of_up (hup : (s.port p.toNat).st = .up) (hst : (s.port p.toNat).txStopped = false)
    (hcap : s.txUsed p.toNat + s.txCells p.toNat frame.length false ≤ (s.port p.toNat).txCap) {tie : Bool} :
    s.pipeTx k.toNat p.toNat w frame tie = ({ s with nextId := s.nextId + 1 } : State).setPort p.toNat
      { s.port p.toNat with tx := insertTx (s.port p.toNat).tx (TxFr.ofPipe s k p w frame) tie } := by
  have hd' : ((s.port p.toNat).st != .up || (s.port p.toNat).txStopped) = false := by simp [hup, hst]
  refine (if_neg (by simp [hpb, hon])).trans ((if_neg (by rw [hc, hk]; decide)).trans ((if_neg ?_).trans ((if_neg ?_).trans ?_)))
  · simp [hl]; omega
  · rw [hd', hl]; simp [hcap]
  · rw [State.pipeReserve_of_no_stamp hts]
    refine (if_neg (by rw [hd']; decide)).trans ?_
    rw [hl, portId_ofNat_toNat, show BitVec.ofNat 4 k.toNat = k by simp]
    rfl

end Crosses

theorem insertTx_no_tie (l : List TxFr) (f : TxFr) : insertTx l f false = l ++ [f] := by
  unfold insertTx
  split
  · exact if_neg (by simp)
  · rfl

theorem insertTx_before_odd (l : List TxFr) (hf : f.slice = some k) (he : k.toNat % 2 = 0) (hg : g.slice = some (k + 1)) :
    insertTx (l ++ [g]) f true = l ++ [f, g] := by
  unfold insertTx
  rw [List.getLast?_concat, hf]
  refine (if_pos ?_).trans ?_
  · simp [he, hg]
  · rw [List.dropLast_concat]

/-! The bytes of an injected frame -/

theorem execInjectFetch_of_runs {q : QId} {ok : Bool} (hon : s.isOn dHOST = true) (hr : s.top.resetting = .none) :
    exec (.injectFetch q ok frame) s = .next (s.injectFetched q.toNat ok frame) :=
  congrArg Host.Outcome.next (if_pos (by rw [hon, hr]; decide))

theorem State.injectFetched_of_found {q : Nat} {ok : Bool}
    (h : s.qs.inj.find? (fun e => e.queue.toNat == q && e.fetching && e.outcome.isNone && e.cells != 0) = some e) :
    s.injectFetched q ok frame = if !ok then s.injUnreadable e
      else if frame.length = e.length.toNat then (s.injReadsEnd e.iid).stage e frame else s := by
  rw [State.injectFetched, h]

end Transmits

/-- Settles O48: each event's operation, its guards discharged by the clause's hypotheses. -/
theorem transmissionAndPreemption : Obligations.TransmissionAndPreemption := by
  intro s p k b w frame tie g n x zeros
  refine ⟨State.sendVerify_eq, execVerifyReceive_answers, fun h => congrArg Host.Outcome.next (if_pos h), fun hv ht => ⟨fun h => ?_,
    fun h => ?_⟩,
    fun hup hw hr r htx hp hh hi hc => ?_, fun hwp ha hs hwe hb hx => ?_, fun h => ?_, fun hpb hon hc hk hl h14 hmax hts => ⟨fun hd => ?_, ?_⟩,
    fun l f => ⟨insertTx_no_tie l f, insertTx_before_odd l⟩, fun q e hon hr he => ⟨fun hl => ?_, ?_⟩⟩
  · exact congrArg Host.Outcome.next ((State.verifyTimer_of_due hv ht).trans (if_pos h))
  · exact congrArg Host.Outcome.next ((State.verifyTimer_of_due hv ht).trans (if_neg (Nat.not_lt.mpr h)))
  · refine congrArg Host.Outcome.next ((State.txStart_express hup hw hr).trans ?_)
    rw [show (s.port p.toNat).tx.length = r.length + 1 from congrArg List.length htx]
    exact State.tryStart_starts (Port.nextTx_cons htx hp hh) hi hc
  · intro t y
    refine congrArg Host.Outcome.next ((State.preemptAt_cuts hwp ha hs hwe hb hx).trans ?_)
    rw [portId_ofNat_toNat]
  · intro t
    refine congrArg Host.Outcome.next ((State.txEnd_express h).trans ?_)
    rw [portId_ofNat_toNat]
  · exact congrArg Host.Outcome.next (State.pipeTx_of_down hpb hon hc hk hl h14 hmax hts hd)
  · intro hup hst hcap f
    exact congrArg Host.Outcome.next (State.pipeTx_of_up hpb hon hc hk hl h14 hmax hts hup hst hcap)
  · exact (execInjectFetch_of_runs hon hr).trans (congrArg Host.Outcome.next ((State.injectFetched_of_found he).trans (if_pos hl)))
  · exact (execInjectFetch_of_runs hon hr).trans (congrArg Host.Outcome.next (State.injectFetched_of_found he))

end Machine
end Sys2Proof

end


section

/-! The sorter and the pipeline's boundary (O49). -/

namespace Sys2Proof
namespace Machine

@[simp] theorem sliceId_ofNat_toNat (k : BitVec 4) : BitVec.ofNat 4 k.toNat = k := by simp

section Sorter
variable {s : State} {k : BitVec 4} {p : PortId} {n m : Nat} {f g a : RxFr} {frame : List Byte} {mw : QWord} {e : Word}

/-! A slot of the engines -/

theorem execParse_of_runs {l : List Nat} (hon : s.sliceOn k.toNat = true) (hr : s.top.resetting = .none) :
    exec (.parse k l) s = .next ((s.markReplica k.toNat l).parseNext k.toNat) :=
  congrArg Host.Outcome.next (if_pos (by rw [hon, hr]; decide))

theorem State.parseNext_wire (hf : s.wireWaits n = some f) (hg : s.recircWaits n = none) : s.parseNext n = s.parseWire n f := by
  rw [State.parseNext, hf, hg]

theorem State.parseNext_both (hf : s.wireWaits n = some f) (hg : s.recircWaits n = some g) :
    s.parseNext n = if 31 ≤ (s.sliceL n).slots then (s.setSlots n 0).parseRecirc n g
      else (s.setSlots n ((s.sliceL n).slots + 1)).parseWire n f := by
  rw [State.parseNext, hf, hg]

theorem State.parseNext_recirc (hf : s.wireWaits n = none) (hg : s.recircWaits n = some g) :
    s.parseNext n = (s.setSlots n 0).parseRecirc n g := by
  rw [State.parseNext, hf, hg]

/-- What a slice finds in a frame from the wire. -/
def State.sortedOf (s : State) (n : Nat) (f : RxFr) : Sorted :=
  (s.sliceL n).classify s.sorter.seed (s.depthOf n) f.port.toNat f.bytes f.macsec f.epoch

theorem State.parseWire_of_guarded (hg : (s.port f.port.toNat).memberGuard = true) (hs : (s.sortedOf n f).cls.src = 0) :
    s.parseWire n f = (s.dropRx f 0x028).drained n :=
  if_pos (by rw [hg, Bool.true_and]; exact decide_eq_true hs)

theorem State.parseWire_of_passed (h : (s.port f.port.toNat).memberGuard = false ∨ (s.sortedOf n f).cls.src ≠ 0) :
    s.parseWire n f =
      if !(s.sortedOf n f).cls.pipe && !(s.sortedOf n f).cls.punt then ((s.sortEvents n f.port.toNat (s.sortedOf n f)).dropRx f 0x029).drained n
      else ((s.sortEvents n f.port.toNat (s.sortedOf n f)).updRx f.fid fun h => { h with parsed := true, cls := (s.sortedOf n f).cls }).resolve
        f.fid (s.sortedOf n f).cls := by
  refine if_neg ?_
  intro hd
  obtain ⟨hg, hsrc⟩ := (Bool.and_eq_true_iff).mp hd
  obtain h | h := h
  · exact absurd hg (by rw [h]; decide)
  · exact h (of_decide_eq_true hsrc)

/-- What a slice finds in a recirculated frame under the epoch count it is classified again with. -/
def State.sortedAgain (s : State) (n : Nat) (g : RxFr) (mw : QWord) (e : Word) : Sorted :=
  (s.sliceL n).classify s.sorter.seed (s.depthOf n) g.port.toNat g.bytes (bitOf mw 4) e

/-- A recirculated frame that has been classified again. -/
def RxFr.sortedAs (c : Sorted) (e : Word) (h : RxFr) : RxFr := { h with parsed := true, epoch := e, cls := { c.cls with punt := false } }

theorem State.parseRecirc_of_current (hw : g.recirc = some mw) (he : (s.sliceL n).recircEpoch (fld mw 88 4) = (e, false))
    (hf : ((s.eventSlice n 1).sortedAgain n g mw e).cls.parseFault = false) :
    s.parseRecirc n g = State.drained { s.eventSlice n 1 with frames := { (s.eventSlice n 1).frames with
      recirc := updFirst (fun h => h.fid == g.fid) (RxFr.sortedAs ((s.eventSlice n 1).sortedAgain n g mw e) e)
        (s.eventSlice n 1).frames.recirc } } n := by
  unfold State.sortedAgain at hf
  unfold State.parseRecirc
  simp only [hw, Option.getD_some, he, Bool.false_eq_true, if_false]
  rw [if_neg (ne_true_of_eq_false hf)]
  rfl

/-! The bus and the punt queues -/

theorem execHandover_of_head (hb : s.busRuns k.toNat = true) (hf : s.busHead k.toNat = some f) :
    exec (.handover k) s = .next (s.handOver k.toNat f) := by
  refine congrArg Host.Outcome.next ((if_neg (not_eq_true_of_not hb)).trans ?_)
  rw [hf]

theorem execPunt_of_due (hon : s.sliceOn k.toNat = true) (he : s.engineRuns = true)
    (hf : s.frames.rx.find? (fun f => f.slice.toNat == k.toNat && f.parsed && f.resolved && f.cls.punt && (!f.cls.pipe || f.handed)
        && f.punting.isNone) = some f)
    (hone : s.frames.rx.any (fun g => g.punting.map (·.1.toNat) == some f.cls.puntQueue) = false) :
    exec (.punt k) s = .next (match s.puntQueue f with
      | some x => s.puntStart f.cls.puntQueue x f
      | none => (s.puntDrop f).drained k.toNat) := by
  refine congrArg Host.Outcome.next ((if_pos (by rw [hon, he]; rfl)).trans ?_)
  unfold State.puntNext
  rw [hf]
  exact if_neg (ne_true_of_eq_false hone)

/-! Recirculation -/

/-- The frame the pipeline returns, as it waits in the recirculation buffer. -/
def RxFr.returned (s : State) (k : BitVec 4) (p : PortId) (frame : List Byte) (mw : QWord) : RxFr :=
  { fid := s.nextId, port := p, bytes := frame, wire := frame.length + 4, slice := k, recirc := some mw }

/-- The state with the frame the pipeline returns at the end of the recirculation buffer. -/
def State.withReturned (s : State) (k : BitVec 4) (p : PortId) (frame : List Byte) (mw : QWord) : State :=
  { s with nextId := s.nextId + 1, frames := { s.frames with recirc := s.frames.recirc ++ [RxFr.returned s k p frame mw] } }

theorem State.recirculate_misroutes (hpb : s.pbReset = false) (hon : s.sliceOn n = true)
    (h : (s.port m).configured = false ∨ (s.slicesOfPort m).contains n = false) : s.recirculate n m frame mw = s.pbMisroute n := by
  refine (if_neg (by rw [hpb, hon]; decide)).trans (if_pos ?_)
  obtain h | h := h <;> simp only [h, Bool.not_false, Bool.true_or, Bool.or_true]

section Fits
variable (hpb : s.pbReset = false) (hon : s.sliceOn k.toNat = true) (hc : (s.port p.toNat).configured = true)
  (hk : (s.slicesOfPort p.toNat).contains k.toNat = true) (hu : s.recircUsed k.toNat + segments frame ≤ 512)
include hpb hon hc hk hu

theorem State.recirculate_of_fits : s.recirculate k.toNat p.toNat frame mw =
    if s.quiesced then (s.event p.toNat 0x060).emit (.recircCredit k (segments frame))
    else if !((s.wireWaits k.toNat).isNone && (s.recircWaits k.toNat).isNone) then s.withReturned k p frame mw
    else match ((s.withReturned k p frame mw).parseRecirc k.toNat (RxFr.returned s k p frame mw)).frames.recirc.find? fun g => g.fid ==
      s.nextId with
      | some g =>
        if (!s.frames.recirc.any fun g => g.slice.toNat == k.toNat) && decide (segments frame ≤
            ((s.withReturned k p frame mw).parseRecirc k.toNat (RxFr.returned s k p frame mw)).credits k.toNat) then
          ((s.withReturned k p frame mw).parseRecirc k.toNat (RxFr.returned s k p frame mw)).handBack k.toNat g
        else (s.withReturned k p frame mw).parseRecirc k.toNat (RxFr.returned s k p frame mw)
      | none => (s.withReturned k p frame mw).parseRecirc k.toNat (RxFr.returned s k p frame mw) := by
  refine (if_neg (by rw [hpb, hon]; decide)).trans ((if_neg (by rw [hc, hk]; decide)).trans ((if_neg (Nat.not_lt.mpr hu)).trans ?_))
  rw [sliceId_ofNat_toNat, portId_ofNat_toNat]
  rfl

theorem State.recirculate_quiesced (hq : s.quiesced = true) :
    s.recirculate k.toNat p.toNat frame mw = (s.event p.toNat 0x060).emit (.recircCredit k (segments frame)) :=
  (State.recirculate_of_fits hpb hon hc hk hu).trans (if_pos hq)

theorem State.recirculate_waits (hq : s.quiesced = false) (hw : s.wireWaits k.toNat ≠ none ∨ s.recircWaits k.toNat ≠ none) :
    s.recirculate k.toNat p.toNat frame mw = s.withReturned k p frame mw := by
  refine (State.recirculate_of_fits hpb hon hc hk hu).trans ((if_neg (ne_true_of_eq_false hq)).trans (if_pos ?_))
  obtain h | h := hw <;> simp [Option.isNone_eq_false_iff.mpr (Option.isSome_iff_ne_none.mpr h)]

theorem State.recirculate_free (hq : s.quiesced = false) (hw : s.wireWaits k.toNat = none) (hr : s.recircWaits k.toNat = none)
    (ha : ((s.withReturned k p frame mw).parseRecirc k.toNat (RxFr.returned s k p frame mw)).frames.recirc.find?
      (fun g => g.fid == s.nextId) = some a) :
    s.recirculate k.toNat p.toNat frame mw =
      if (!s.frames.recirc.any fun g => g.slice.toNat == k.toNat) && decide (segments frame ≤
          ((s.withReturned k p frame mw).parseRecirc k.toNat (RxFr.returned s k p frame mw)).credits k.toNat) then
        ((s.withReturned k p frame mw).parseRecirc k.toNat (RxFr.returned s k p frame mw)).handBack k.toNat a
      else (s.withReturned k p frame mw).parseRecirc k.toNat (RxFr.returned s k p frame mw) := by
  refine (State.recirculate_of_fits hpb hon hc hk hu).trans ((if_neg (ne_true_of_eq_false hq)).trans ((if_neg ?_).trans ?_))
  · rw [hw, hr]; decide
  · rw [ha]

end Fits

/-! Credits -/

theorem State.creditReturn_taken (hpb : s.pbReset = false) (h4 : m ≤ 4) (hu : m ≤ Tab.get 0 s.frames.creditsUsed n) :
    s.creditReturn n m = { s with frames := { s.frames with
      creditsUsed := Tab.put 0 s.frames.creditsUsed n (Tab.get 0 s.frames.creditsUsed n - m) } } :=
  (if_neg (ne_true_of_eq_false hpb)).trans (if_neg (by simp; omega))

theorem State.creditReturn_fault (hpb : s.pbReset = false) (h : 4 < m ∨ Tab.get 0 s.frames.creditsUsed n < m) :
    s.creditReturn n m = s.pbCredit n :=
  (if_neg (ne_true_of_eq_false hpb)).trans (if_pos (by simpa using h))

end Sorter

/-- Settles O49: the slot's choice, the frame's class, the head of the bus and the buffer, each by its own lemma. -/
theorem sorterAndPipelineBoundary : Obligations.SorterAndPipelineBoundary := by
  intro s k p f g frame mw m bank word l e n x u c t v d hon
  refine ⟨fun hr => ⟨fun hw hg => ⟨fun hm hs => ?_, fun hp hpi hpu => ?_, fun hp hk => ?_⟩, fun hw hg => ⟨fun hs => ?_, fun hs => ?_⟩,
      fun hw hg => ?_⟩, State.parseRecirc_of_current, fun hb hc => congrArg Host.Outcome.next (if_pos ?_), fun hpb hq => execHandover_of_head ?_,
    fun he hf hone => ⟨fun y hy => ?_, fun hy => ?_⟩, fun hpb h => congrArg Host.Outcome.next (State.recirculate_misroutes hpb hon h),
      fun hpb hc hk hu => ?_,
    fun hpb => ?_, rfl, rfl⟩
  · rw [execParse_of_runs hon hr, State.parseNext_wire hw hg, State.parseWire_of_guarded hm hs]
  · rw [execParse_of_runs hon hr, State.parseNext_wire hw hg, State.parseWire_of_passed hp]
    exact congrArg Host.Outcome.next (if_pos (by rw [State.sortedOf, hpi, hpu]; rfl))
  · rw [execParse_of_runs hon hr, State.parseNext_wire hw hg, State.parseWire_of_passed hp]
    refine congrArg Host.Outcome.next (if_neg ?_)
    intro h
    have hk' : (u.sortedOf n f).cls.pipe = true ∨ (u.sortedOf n f).cls.punt = true := hk
    obtain hk | hk := hk' <;> rw [hk] at h <;> simp at h
  · exact (execParse_of_runs hon hr).trans (congrArg Host.Outcome.next ((State.parseNext_both hw hg).trans (if_neg (Nat.not_le.mpr hs))))
  · exact (execParse_of_runs hon hr).trans (congrArg Host.Outcome.next ((State.parseNext_both hw hg).trans (if_pos hs)))
  · exact (execParse_of_runs hon hr).trans (congrArg Host.Outcome.next (State.parseNext_recirc hw hg))
  · rw [hon, hb, hc]; rfl
  · rw [State.busRuns, hpb, hq, hon]; rfl
  · rw [execPunt_of_due hon he hf hone, hy]
  · rw [execPunt_of_due hon he hf hone, hy]
  · intro h w y
    exact ⟨fun hq => congrArg Host.Outcome.next (State.recirculate_quiesced hpb hon hc hk hu hq),
      fun hq hw => congrArg Host.Outcome.next (State.recirculate_waits hpb hon hc hk hu hq hw),
      fun hq hw hr a ha => congrArg Host.Outcome.next (State.recirculate_free hpb hon hc hk hu hq hw hr ha)⟩
  · intro used
    exact ⟨fun h4 hu => congrArg Host.Outcome.next (State.creditReturn_taken hpb h4 hu),
      fun h => congrArg Host.Outcome.next (State.creditReturn_fault hpb h)⟩

end Machine
end Sys2Proof

end


section

/-! The registry's memory events (O50). -/

namespace Sys2Proof
namespace Machine

section Registry
variable {s : State} {tag : BitVec 11} {p : Probe} {n : Nat} {bad : Bool} {line : CacheLine}

/-! Answers of the local memory -/

theorem State.ledgerAnswer_of_probe (hon : s.isOn dREG = true) (hr : s.reg.region ≠ 0)
    (hp : s.reg.probes.find? (fun p => p.tag == some tag) = some p) :
    s.ledgerAnswer tag bad = (s.setReg { s.reg with unreachable := false }).probed p bad := by
  refine (if_neg (by simp [hon, show ¬ s.reg.region = 0#2 from hr])).trans ?_
  show (match s.reg.probes.find? (fun p => p.tag == some tag) with | some p => _ | none => _) = _
  rw [hp]

theorem State.ledgerAnswer_of_no_probe (hon : s.isOn dREG = true) (hr : s.reg.region ≠ 0)
    (hp : s.reg.probes.find? (fun p => p.tag == some tag) = none) :
    s.ledgerAnswer tag bad = s.setReg { s.reg with unreachable := false } := by
  refine (if_neg (by simp [hon, show ¬ s.reg.region = 0#2 from hr])).trans ?_
  show (match s.reg.probes.find? (fun p => p.tag == some tag) with | some p => _ | none => _) = _
  rw [hp]

theorem State.probeTimeout_of_probe (hp : s.reg.probes.find? (fun p => p.tag == some tag) = some p) :
    s.probeTimeout tag = (s.probeFails p 5).setProbes
      (updFirst (fun q => q.key == p.key) (fun q => { q with frames := [] }) s.reg.probes) := by
  rw [State.probeTimeout, hp]

theorem State.ledgerLost_of_probe (hp : s.reg.probes.find? (fun p => p.tag == some tag) = some p) :
    s.ledgerLost tag = if s.reg.unreachable then s else
      ((s.setReg { s.reg with unreachable := true }).probeTimeout tag).emitGap
        { ((s.setReg { s.reg with unreachable := true }).probeTimeout tag).gapNow 4 0xFFFFFFFF with
          epoch := ((s.setReg { s.reg with unreachable := true }).probeTimeout tag).reg.epoch, fromAt := p.issued } := by
  rw [State.ledgerLost, hp]

/-! The cache, aging and the sweep -/

theorem State.writeBack_of_dirty (hl : s.reg.cache.find? (fun l => l.index == n) = some line) (hd : line.dirty = true) :
    s.writeBack n = { s.ledgerPut n line.entry with reg := { (s.ledgerPut n line.entry).reg with
      cache := updFirst (fun l => l.index == n) (fun l => { l with dirty := false }) (s.ledgerPut n line.entry).reg.cache } } := by
  rw [State.writeBack, hl]
  exact if_pos hd

theorem State.ageVisit_of_scanning (hon : s.isOn dREG = true) (hr : s.reg.region ≠ 0) (ha : s.reg.age ≠ 0) (hd : s.isOn dDMA = true)
    (hc : s.reg.clearing = false) : s.ageVisit n false = if s.aged (s.pairEntry n) then
        (s.setPairEntry n { s.pairEntry n with state := 2 }).oweDelta n 0 0 (some (keyWord { s.pairEntry n with state := 2 })) else s :=
  (if_neg (by
    simp [hd, hon, hc, show ¬ s.reg.age = 0#16 from ha, show ¬ s.reg.region = 0#2 from hr])).trans rfl

theorem State.sweepPart_of_marking (hon : s.isOn dREG = true) (hp : s.reg.phase ≠ .idle) (hw : s.reg.writebackOwed = false)
    (hm : s.reg.mark.toNat < Config.pairEntries) (l : List Nat) : s.sweepPart l = s.sweepBatch l :=
  (if_neg (by simp [hon, hp, hw])).trans (if_pos hm)

/-! The clear of the table and the owed write-back -/

theorem State.coldWriteback_of_owed (hon : s.isOn dREG = true) (hw : s.reg.writebackOwed = true) :
    s.coldWriteback true = (s.writeBackAll.discardCache).setReg { s.writeBackAll.discardCache.reg with writebackOwed := false } :=
  (if_neg (by rw [hw, hon]; decide)).trans (if_pos rfl)

theorem State.coldWriteback_lost (hon : s.isOn dREG = true) (hw : s.reg.writebackOwed = true) :
    s.coldWriteback false = (s.discardCache.setReg { s.discardCache.reg with writebackOwed := false }).emitGap
      ((s.discardCache.setReg { s.discardCache.reg with writebackOwed := false }).gapNow 3 0xFFFFFFFF) :=
  (if_neg (by rw [hw, hon]; decide)).trans (if_neg (by decide))

end Registry

/-- Settles O50: the guards of REG and the region, then the probe, the line, the entry or the phase each event is about. -/
theorem registryEvents : Obligations.RegistryEvents := by
  intro s tag p idx bad l line n u hon hr
  refine ⟨fun hp => ⟨congrArg Host.Outcome.next (State.ledgerAnswer_of_probe hon hr hp), congrArg Host.Outcome.next
    (State.probeTimeout_of_probe hp),
      fun hu => congrArg Host.Outcome.next ((State.ledgerLost_of_probe hp).trans (if_neg (ne_true_of_eq_false hu)))⟩,
    fun hp => congrArg Host.Outcome.next (State.ledgerAnswer_of_no_probe hon hr hp), fun hl hd => ?_, fun ha hdma hc => ⟨fun hag => ?_,
      fun hag => ?_⟩,
    fun hp => congrArg Host.Outcome.next (if_pos (by rw [hp]; rfl)), fun hp hw hm => ?_,
    fun hc => congrArg Host.Outcome.next (if_pos (by rw [hc, hon]; rfl)), fun hw => ?_⟩
  · intro v
    exact congrArg Host.Outcome.next ((if_pos (by simp [hon, show ¬ s.reg.region = 0#2 from hr])).trans (State.writeBack_of_dirty hl hd))
  · intro e
    exact congrArg Host.Outcome.next ((State.ageVisit_of_scanning hon hr ha hdma hc).trans (if_pos hag))
  · exact congrArg Host.Outcome.next ((State.ageVisit_of_scanning hon hr ha hdma hc).trans (if_neg (ne_true_of_eq_false hag)))
  · refine congrArg Host.Outcome.next ((if_neg (by simp [hp])).trans ?_)
    simp [State.sweepOn, State.sweepPart_of_marking hon hp hw hm, hp]
  · intro w v v'
    exact ⟨congrArg Host.Outcome.next (State.coldWriteback_of_owed hon hw), congrArg Host.Outcome.next (State.coldWriteback_lost hon hw)⟩

end Machine
end Sys2Proof

end


section

/-! Flow control and the guards (O51). -/

namespace Sys2Proof
namespace Machine

section Guards
variable {s : State} {n b g : Nat} {high : Bool}

/-! Request lines and sent pause -/

theorem State.xoffChange_of_changed (h : bitOf (s.port n).xoff b ≠ high) :
    s.xoffChange n b high =
      if !(s.port n).configured || !(s.setPort n { s.port n with xoff := setBit (s.port n).xoff b high }).portOn n
          || bitOf ((s.setPort n { s.port n with xoff := setBit (s.port n).xoff b high }).guarded n) b then
        s.setPort n { s.port n with xoff := setBit (s.port n).xoff b high }
      else (s.setPort n { s.port n with xoff := setBit (s.port n).xoff b high }).sendPause n :=
  if_neg (by simpa using h)

theorem State.sendPause_of_up (hup : (s.port n).st = .up) (hm : (s.port n).txMode ≠ 0) :
    s.sendPause n = if (s.port n).wireFree then s.buildPause n else s.setPort n { s.port n with ctlDue := true } :=
  if_neg (by simp [hup, show ¬ (s.port n).txMode = 0#2 from hm])

theorem State.portOn_setPort {v : Port} (hm : v.mode = (s.port n).mode) (hc : (s.port n).configured = true) :
    (s.setPort n v).portOn n = s.portOn n := by
  have hv : v ≠ {} := by
    rintro rfl
    rw [Port.configured, ← hm] at hc
    cases hc
  show List.all (s.setPort n v |>.slicesOfPort n) s.sliceOn = List.all (s.slicesOfPort n) s.sliceOn
  rw [State.slicesOfPort, State.slicesOfPort, State.port_setPort _ _ _ hv, Port.width, Port.width, hm]

/-! Duty ceiling -/

theorem State.dutyReached_eq_true_iff : s.dutyReached n b = true ↔
    ((s.guardPort n).ceiling b).toNat * dutyWindow ≤ 256 * (s.port n).dutySum b s.clock := decide_eq_true_iff

theorem State.dutyFallen_eq_true_iff : s.dutyFallen n b = true ↔
    8 * (256 * (s.port n).dutySum b s.clock) ≤ 7 * (((s.guardPort n).ceiling b).toNat * dutyWindow) := decide_eq_true_iff

theorem State.dutyClip_of_reached (ha : bitOf ((s.port n).asserted ||| (s.port n).xoff) b = true)
    (hc : bitOf (s.port n).dutyClipped b = false) (hr : s.dutyReached n b = true) :
    s.dutyClip n b = (if bitOf (s.port n).asserted b then
        ((s.setPort n { s.port n with dutyClipped := setBit (s.port n).dutyClipped b true }).event n (0x098 + b)).sendPause n
      else (s.setPort n { s.port n with dutyClipped := setBit (s.port n).dutyClipped b true }).event n (0x098 + b)).guardEvent n 2
        (BitVec.ofNat 8 b) 1 1 :=
  if_neg (by simp [ha, hc, hr])

theorem State.dutyRelease_of_fallen (hc : bitOf (s.port n).dutyClipped b = true) (hf : s.dutyFallen n b = true) :
    s.dutyRelease n b = ((s.setPort n { s.port n with dutyClipped := setBit (s.port n).dutyClipped b false }).guardEvent n 2
      (BitVec.ofNat 8 b) 2 1).honourLine n :=
  if_neg (by simp [hc, hf])

/-! Watchdogs -/

theorem State.stormRx_of_detected (hp : bitOf (s.port n).rxPaused b = true) (hi : bitOf (s.port n).rxIgnored b = false)
    (ht : s.msPassed (s.guardPort n).rxDetect.toNat (Tab.get 0 (s.port n).pausedAt b) = true) :
    s.stormRx n b = ((s.setPort n { s.port n with
      rxIgnored := setBit (s.port n).rxIgnored b true
      stormRxAt := Tab.put 0 (s.port n).stormRxAt b s.clock }).event n (0x0A0 + b)).guardEvent n 3 (BitVec.ofNat 8 b) 1 1 :=
  if_neg (by simp [hp, hi, ht])

/-- The priorities whose sent-pause watchdogs fire with that of `b`. -/
def State.stormTxAll (s : State) (n b : Nat) : List Nat :=
  if (s.port n).txMode = 1 then (List.range 8).filter fun j => s.stormTxDue n j else [b]

theorem State.mem_stormTxAll (hb : b < 8) (hd : s.stormTxDue n b = true) : b ∈ s.stormTxAll n b := by
  unfold State.stormTxAll
  split
  · exact List.mem_filter.mpr ⟨List.mem_range.mpr hb, hd⟩
  · exact List.mem_singleton.mpr rfl

theorem State.stormTxFires_of_due (hd : s.stormTxDue n b = true) :
    s.stormTxFires n b = (s.forEach (s.stormTxAll n b) fun s j => s.stormTxEngages n j).sendPause n :=
  if_neg (not_eq_true_of_not hd)

theorem State.stormRelease_sent (hb : bitOf (s.port n).stormTx b = true)
    (ht : s.msPassed (s.guardPort n).txHold.toNat (Tab.get 0 (s.port n).stormTxAt b) = true) :
    s.stormRelease n b true = ((s.setPort n { s.port n with stormTx := setBit (s.port n).stormTx b false }).guardEvent n 4
      (BitVec.ofNat 8 b) 2 1).honourLine n :=
  if_neg (by simp [hb, ht])

theorem State.stormRelease_received (hb : bitOf (s.port n).rxIgnored b = true)
    (ht : s.msPassed (s.guardPort n).rxHold.toNat (Tab.get 0 (s.port n).stormRxAt b) = true) :
    s.stormRelease n b false = (s.setPort n { s.port n with
      rxIgnored := setBit (s.port n).rxIgnored b false
      pausedAt := Tab.put 0 (s.port n).pausedAt b s.clock }).guardEvent n 3 (BitVec.ofNat 8 b) 2 1 :=
  if_neg (by simp [hb, ht])

/-! Refusals -/

/-- The port once a guard has reported its refusals. -/
def State.reportNoted (s : State) (n k : Nat) : Port :=
  { s.port n with reportedAt := Tab.put none (s.port n).reportedAt k (some s.clock) }

theorem State.refusalReport_five (h : (s.port n).refused5 ≠ 0) (hm : s.mayReport n 5 = true) :
    s.refusalReport n 5 = (s.setPort n { s.reportNoted n 5 with refused5 := 0 }).guardEvent n 5 0xFF 3 (s.port n).refused5 :=
  (if_neg (not_eq_true_of_not hm)).trans (if_neg h)

theorem State.refusalReport_six (h : (s.port n).refused6 ≠ 0) (hm : s.mayReport n 6 = true) :
    s.refusalReport n 6 = (s.setPort n { s.reportNoted n 6 with refused6 := 0 }).guardEvent n 6 0xFF 3 (s.port n).refused6 :=
  (if_neg (not_eq_true_of_not hm)).trans (if_neg h)

theorem State.refusalReport_eight (h : (s.port n).refused8 ≠ 0) (hm : s.mayReport n 8 = true) :
    s.refusalReport n 8 = (s.setPort n { s.reportNoted n 8 with refused8 := 0 }).guardEvent n 8 0xFF 3 (s.port n).refused8 :=
  (if_neg (not_eq_true_of_not hm)).trans (if_neg h)

end Guards

/-- Settles O51: each event's guard under the clause's hypotheses. -/
theorem flowControlAndGuards : Obligations.FlowControlAndGuards := by
  intro s p i high n b x g fresh noted
  refine ⟨fun h => ?_, fun h => congrArg Host.Outcome.next (if_pos (beq_iff_eq.mpr h)), fun hup hm => ⟨fun hw => ?_, fun hw => ?_⟩,
    fun hl hw hq => congrArg Host.Outcome.next (if_pos (by simp only [Bool.and_eq_true]; exact ⟨⟨hl, hw⟩, hq⟩)),
    fun ha hq => congrArg Host.Outcome.next (if_pos (Bool.and_eq_true_iff.mpr ⟨ha, hq⟩)), fun ha hc hr => ?_,
    fun hc hf => congrArg Host.Outcome.next (State.dutyRelease_of_fallen hc (State.dutyFallen_eq_true_iff.mpr hf)), fun hp hi ht => ?_,
    fun ha hc ht => ?_, rfl, fun hb ht => congrArg Host.Outcome.next (State.stormRelease_sent hb ht), fun hb ht => ?_,
    fun h hm => congrArg Host.Outcome.next (State.refusalReport_five h hm), fun h hm => congrArg Host.Outcome.next
      (State.refusalReport_six h hm),
    fun h hm => congrArg Host.Outcome.next (State.refusalReport_eight h hm)⟩
  · intro t
    have hon (hc : x.configured = true) : t.portOn n = s.portOn n := State.portOn_setPort rfl hc
    refine ⟨fun hc hp => congrArg Host.Outcome.next ((State.xoffChange_of_changed h).trans ?_),
      fun hoff => congrArg Host.Outcome.next ((State.xoffChange_of_changed h).trans (if_pos ?_))⟩
    · rw [hc, show (s.setPort n { s.port n with xoff := setBit (s.port n).xoff b high }).portOn n = true from (hon hc).trans hp]
      rfl
    · show (!x.configured || !t.portOn n || bitOf (t.guarded n) b) = true
      cases hc : x.configured with
      | false => rfl
      | true =>
        rw [hc] at hoff
        rw [hon hc, hoff.resolve_left (by decide)]
        rfl
  · exact (State.sendPause_of_up hup hm).trans (if_pos hw)
  · exact (State.sendPause_of_up hup hm).trans (if_neg (ne_true_of_eq_false hw))
  · intro t
    exact congrArg Host.Outcome.next (State.dutyClip_of_reached ha hc (State.dutyReached_eq_true_iff.mpr hr))
  · intro y
    exact congrArg Host.Outcome.next (State.stormRx_of_detected hp hi ht)
  · intro due
    have hd : s.stormTxDue n b = true := by simp only [State.stormTxDue, Bool.and_eq_true, Bool.not_eq_true']; exact ⟨⟨ha, hc⟩, ht⟩
    exact ⟨State.mem_stormTxAll i.isLt hd, congrArg Host.Outcome.next (State.stormTxFires_of_due hd)⟩
  · intro y
    exact congrArg Host.Outcome.next (State.stormRelease_received hb ht)

end Machine
end Sys2Proof

end


section

/-! The events of the lanes (O52). -/

namespace Sys2Proof
namespace Machine

section Lanes
variable {s : State} {n p c k : Nat} {m : Marker}

/-! Signal and markers -/

@[simp] theorem State.setLane_portOfLane (v : Lane) (l : Nat) : (s.setLane n v).portOfLane l = s.portOfLane l := rfl
@[simp] theorem State.setLane_portOn (v : Lane) (q : Nat) : (s.setLane n v).portOn q = s.portOn q := rfl

theorem State.signalDetect_lost (hp : s.portOfLane n = some p) (hon : s.portOn p = true) (hs : (s.lane n).signal = true)
    (hl : (s.lane n).lock = true) :
    s.signalDetect n false = ((s.setLane n { s.lane n with signal := false }).event p
      (0x0E0 + (s.setLane n { s.lane n with signal := false }).logicalOf p n)).loseLock n := by
  simp [State.signalDetect, hp, hon, hs, hl]

theorem State.signalDetect_found : s.signalDetect n true = s.setLane n { s.lane n with signal := true } := by
  unfold State.signalDetect
  simp only [Bool.or_true, Bool.true_or, if_true]
  cases (s.setLane n { s.lane n with signal := true }).portOfLane n <;> rfl

theorem State.marker_of_signal (hp : s.portOfLane n = some p) (hr : s.pcsRuns p = true) (hs : (s.lane n).signal = true) :
    s.marker n m = (if (s.lane n).lock then s.lockedMarker p n m else s.candidate p n m).deskewStep p := by
  simp [State.marker, hp, hr, hs]

theorem State.lockedMarker_of_good (hg : goodMarker (s.port p).mode m = true) :
    s.lockedMarker p n m = if ennosMode (s.port p).mode then
        (s.setLane n (Lane.marked { s.lane n with badMarkers := 0 } (s.port p).mode m)).setPort p
          (((s.setLane n (Lane.marked { s.lane n with badMarkers := 0 } (s.port p).mode m)).port p).peerSays (s.lane n).logical m)
      else s.setLane n (Lane.marked { s.lane n with badMarkers := 0 } (s.port p).mode m) :=
  if_pos hg

theorem Lane.marked_of_ennos {x : Lane} {mode : Byte} (he : ennosMode mode = true) (hg : m.isGood = true) :
    x.marked mode m = { x with amSeq := m.seq, mark := some (m.seq, m.arrival) } := by
  simp [Lane.marked, goodMarker, he, hg]

@[simp] theorem Lane.marked_lock (x : Lane) (mode : Byte) (m : Marker) : (x.marked mode m).lock = x.lock := by
  unfold Lane.marked
  split_ifs <;> rfl

@[simp] theorem Lane.marked_logical (x : Lane) (mode : Byte) (m : Marker) : (x.marked mode m).logical = x.logical := by
  unfold Lane.marked
  split_ifs <;> rfl

theorem State.candidate_of_second {seq : Byte} (he : ennosMode (s.port p).mode = true) (hc : m.isCandidate = true)
    (hm : m.mode = (s.port p).mode) (ho : m.onPeriod = true) (hx : (s.lane n).cand = some ((s.port p).mode, m.lane, seq))
    (hs : m.seq = seq + 1) : s.candidate p n m = s.gainLock p n m := by
  simp [State.candidate, candidateOf, followsMarker, he, hc, hm, ho, hx, hs]

/-- The lane that a marker locks on an Ennos port. -/
def State.lockedBy (s : State) (p n : Nat) (m : Marker) : Lane :=
  Lane.marked { (s.lane n).unlocked with lock := true, logical := m.lane } (s.port p).mode m

theorem State.lane_gainLock (he : ennosMode (s.port p).mode = true) : (s.gainLock p n m).lane n = s.lockedBy p n m := by
  have hv : s.lockedBy p n m ≠ {} := fun h => by
    have hl : (s.lockedBy p n m).lock = true := Lane.marked_lock ..
    rw [h] at hl
    cases hl
  simp only [State.gainLock, he, if_true]
  exact State.lane_setLane s n _ hv

/-! Ordered sets and the interval of degradation -/

theorem State.faultSets_of_up {remote present : Bool} (hr : s.pcsRuns n = true) (hup : (s.port n).st = .up) :
    s.faultSets n remote present =
      (s.setPort n (if remote then { s.port n with remoteIn := present } else { s.port n with localIn := present })).setLink n
        (Port.linkState (if remote then { s.port n with remoteIn := present } else { s.port n with localIn := present })) := by
  simp [State.faultSets, hr, hup]

/-- The port at the end of an interval that ends degraded or not. -/
def Port.judged (z : Port) (d : Bool) : Port := { z with degrade := d, corrected := 0, thresholdNow := z.threshold }

theorem State.degradeInterval_of_excess (hr : s.pcsRuns n = true) (hc : (s.port n).thresholdNow.toNat < (s.port n).corrected)
    (hn : (s.port n).thresholdNow ≠ 0xFFFFFFFF) :
    s.degradeInterval n = (s.setPort n ((s.port n).judged true)).event n 0x0C7 := by
  have he : (decide ((s.port n).thresholdNow.toNat < (s.port n).corrected) && (s.port n).thresholdNow != 0xFFFFFFFF) = true :=
    Bool.and_eq_true_iff.mpr ⟨decide_eq_true hc, bne_iff_ne.mpr hn⟩
  simp only [State.degradeInterval, hr, he, Bool.not_true, Bool.false_eq_true, if_false, if_true]
  rfl

theorem State.degradeInterval_of_within (hr : s.pcsRuns n = true) (hc : (s.port n).corrected ≤ (s.port n).thresholdNow.toNat) :
    s.degradeInterval n = s.setPort n ((s.port n).judged false) := by
  simp [State.degradeInterval, Port.judged, hr, Nat.not_lt.mpr hc]

/-! Codewords -/

section Codewords
variable (hp : s.portOfLane n = some p) (hr : s.pcsRuns p = true) (hl : (s.lane n).lock = true)
include hp hr hl

theorem State.codeword_of_good : s.codeword n c k false =
    if min c 15 = 0 then (s.count p 0x0C3 (min k 80)).setLane n { s.lane n with badCodewords := 0 }
    else
      let t := (s.count p 0x0C3 (min k 80)).setLane n { s.lane n with badCodewords := 0 }
      let u := (t.event p 0x0C0).count p (0x0C8 + t.logicalOf p n) (min c 15)
      u.setPort p { u.port p with corrected := (u.port p).corrected + min c 15 } := by
  simp [State.codeword, hp, hr, hl]

theorem State.codeword_of_bad : s.codeword n c k true =
    if 16 ≤ (s.lane n).badCodewords + 1 then
      (((s.count p 0x0C3 (min k 80)).event p 0x0C1).setLane n { s.lane n with badCodewords := (s.lane n).badCodewords + 1 }).loseLock n
    else ((s.count p 0x0C3 (min k 80)).event p 0x0C1).setLane n { s.lane n with badCodewords := (s.lane n).badCodewords + 1 } := by
  simp [State.codeword, hp, hr, hl]

end Codewords

end Lanes

/-- Settles O52: each event of a lane that carries a running port, under the clause's hypotheses. -/
theorem laneEvents : Obligations.LaneEvents := by
  intro s l p m remote present rx tx c n x hp hr y
  refine ⟨fun hon hs hl => congrArg Host.Outcome.next (State.signalDetect_lost hp hon hs hl),
    congrArg Host.Outcome.next State.signalDetect_found,
    fun hs hl hg => ?_, fun he => ⟨Lane.marked_of_ennos he, fun hs hl hc hm ho seq hx hq => ⟨?_, ?_, ?_⟩⟩, fun hrun hup => ?_, fun hrun => ?_,
    fun hon hl hk => congrArg Host.Outcome.next (if_pos (by simp only [Bool.and_eq_true]; exact ⟨⟨hon, hl⟩, hk⟩)), fun hl k => ?_⟩
  · intro t
    refine congrArg Host.Outcome.next ((State.marker_of_signal hp hr hs).trans ?_)
    rw [if_pos hl, State.lockedMarker_of_good hg]
  · refine congrArg Host.Outcome.next ((State.marker_of_signal hp hr hs).trans ?_)
    rw [if_neg (ne_true_of_eq_false hl), State.candidate_of_second he hc hm ho hx hq]
  · rw [State.lane_gainLock he]
    exact Lane.marked_lock ..
  · rw [State.lane_gainLock he]
    exact Lane.marked_logical ..
  · intro z
    exact congrArg Host.Outcome.next (State.faultSets_of_up hrun hup)
  · intro z judged
    exact ⟨fun hc hn => congrArg Host.Outcome.next (State.degradeInterval_of_excess hrun hc hn),
      fun hc => congrArg Host.Outcome.next (State.degradeInterval_of_within hrun hc)⟩
  · intro r
    refine ⟨congrArg Host.Outcome.next ((State.codeword_of_good hp hr hl).trans (if_pos rfl)), fun hc => ?_,
      fun hb => congrArg Host.Outcome.next ((State.codeword_of_bad hp hr hl).trans (if_neg (Nat.not_le.mpr (Nat.succ_lt_succ hb)))),
      fun hb => congrArg Host.Outcome.next ((State.codeword_of_bad hp hr hl).trans (if_pos (Nat.succ_le_succ hb)))⟩
    intro t u
    exact congrArg Host.Outcome.next ((State.codeword_of_good hp hr hl).trans (if_neg (by omega)))

end Machine
end Sys2Proof

end


section

/-! The events of the time unit (O53). -/

namespace Sys2Proof
namespace Machine

section Postmark
variable {s : State} {bytes : List Byte} {off : Int} {rt n : Nat} {a : Armed}

/-! Edges and time-of-day messages -/

/-- The time of an edge `phase` units into the present cycle, as `State.ppsIn` takes it. -/
def State.edgeAt (s : State) (phase : Nat) : Int := s.now16 + phase * 10240 - s.time.inDelay.toInt * 4096

theorem State.ppsIn_of_enabled (hon : s.isOn dTIME = true) (hin : s.time.inEn = true) (hu : s.time.state ≠ .unset) :
    s.ppsIn n = if s.time.edgeBad (s.edgeAt n) then s.setTimeUnit { s.time with ppsBad := satInc s.time.ppsBad }
      else (if s.time.source = 2 && !s.time.follows then
          (s.setTimeUnit { s.time with lastEdge := some (s.edgeAt n) }).acceptOffset (edgeOffset (s.edgeAt n))
        else s.setTimeUnit { s.time with lastEdge := some (s.edgeAt n) }).takeTod (s.edgeAt n) :=
  (if_neg (by rw [hon, hin]; decide)).trans (if_neg hu)

theorem State.todIn_of_framed {inTime : Bool} (hon : s.isOn dTIME = true) (hen : s.time.todEn = true) (hl : bytes.length = 10)
    (h0 : byteAt bytes 0 = 0xA5) (h1 : byteAt bytes 1 = 0x5A) :
    s.todIn bytes inTime = if inTime && bytes.sum = 0 && bitOf (byteAt bytes 8) 0 then
        s.setTimeUnit { s.time with tod := some (BitVec.ofNat 48 (beNat (slice bytes 2 6))) }
      else s.setTimeUnit { s.time with todBad := satInc s.time.todBad } :=
  if_neg (by simp [hon, hen, hl, h0, h1])

/-! Holdover and the output -/

theorem State.ppsLevel_eq_true_iff : s.ppsLevel = true ↔ s.ppsAllowed = true ∧
    (s.now16 + s.time.outAdv.toNat * 4096 + 40960) % 65536000000000 < s.time.outWidth.toNat * 655360000 := by
  rw [State.ppsLevel, Bool.and_eq_true_iff, decide_eq_true_iff]
  rfl

theorem State.ppsDrive_of_due {rise : Bool} (hl : s.ppsLevel = rise) (ho : s.time.ppsOut = !rise) :
    s.ppsDrive rise = (s.setTimeUnit { s.time with ppsOut := rise }).emit (.pps rise) :=
  if_neg (by rw [hl, ho]; cases rise <;> decide)

theorem State.ppsDrive_of_not_due {rise : Bool} (hl : s.ppsLevel ≠ rise) : s.ppsDrive rise = s :=
  if_pos (by rw [bne_iff_ne.mpr hl, Bool.true_or])

/-! Armed instants -/

theorem State.fireDue_epoch (ha : s.time.armedEpoch = some a) (hf : a.fired = none) (hh : a.held = false)
    (ht : s.instant16 a.instant ≤ s.now16) : s.fireDue false = s.fireEpoch.readiness := by
  simp [State.fireDue, ha, hf, hh, ht]

theorem State.fireDue_snap (ha : s.time.armedSnap = some a) (hf : a.fired = none) (hh : a.held = false)
    (ht : s.instant16 a.instant ≤ s.now16) : s.fireDue true = s.fireSnap.readiness := by
  simp [State.fireDue, ha, hf, hh, ht]

/-! The exchange of a follower with its head -/

theorem State.cascField_clock : (s.cascField off).2.clock = s.clock := by
  simp only [State.cascField]
  split <;> rfl

/-- The follower's state once the fields of an exchange have been taken. -/
def State.exchanged (s : State) (off : Int) (rt : Nat) : State :=
  (s.cascField off).2.setTimeUnit { (s.cascField off).2.time with
    headId := (s.cascField off).2.casc.head
    headOffset := (s.cascField off).1
    headDelay := BitVec.ofInt 16 (freeDiv rt 8192) }

/-- The time unit of a follower that an exchange has steered. -/
def State.steered (u : State) (off : Int) : Time :=
  let v := u.time.servoStep Config.followerKp Config.followerKi off u.now16
  let row := if off.natAbs ≤ 65536 then v.alignedRow + 1 else 0
  { v with alignedRow := row, aligned := v.aligned || decide (16 ≤ row), lastTick := u.clock }

theorem State.timeExchange_of_follower (hon : s.isOn dTIME = true) (hh : s.isOn dHOST = true) (hd : s.isHead = false)
    (hp : bitOf (setBit s.casc.present s.casc.self.toNat false) s.casc.head.toNat = true) (hf : s.time.follows = true)
    (hj : s.time.joined = true) :
    s.timeExchange off rt = ((s.exchanged off rt).setTimeUnit
      (if ((s.exchanged off rt).steered off).aligned then { (s.exchanged off rt).steered off with role := 2 }
        else (s.exchanged off rt).steered off).followState).ppsSettle :=
  (if_neg (by rw [hon, hh, hd, hp]; decide)).trans (if_neg (by rw [hj, hf]; decide))

end Postmark

/-- Settles O53: each event with TIME on, under the clause's hypotheses. -/
theorem timeEvents : Obligations.TimeEvents := by
  intro s ph bytes off rt a t e hon
  refine ⟨fun hin hu => ?_, fun hen hl h0 h1 => ?_, fun hl ht => congrArg Host.Outcome.next (if_pos ?_), ?_,
    fun hr hf hh ht => ⟨fun ha => ?_, fun ha => ?_⟩,
    fun hr => ⟨fun ha ht => congrArg Host.Outcome.next (if_pos ?_), fun ha ht => congrArg Host.Outcome.next (if_pos ?_)⟩,
      fun hh hd hp hf hj => ?_⟩
  · have hpps := State.ppsIn_of_enabled (n := ph.toNat) hon hin hu
    refine ⟨fun hb => congrArg Host.Outcome.next (hpps.trans (if_pos hb)), fun hb hs hf => congrArg Host.Outcome.next (hpps.trans ?_),
      fun hb hs => congrArg Host.Outcome.next (hpps.trans ?_)⟩
    · rw [if_neg (show ¬ s.time.edgeBad (s.edgeAt ph.toNat) = true from ne_true_of_eq_false hb), if_pos (by rw [hs, hf]; decide)]
      rfl
    · rw [if_neg (show ¬ s.time.edgeBad (s.edgeAt ph.toNat) = true from ne_true_of_eq_false hb), if_neg ?_]
      · rfl
      · obtain h | h := hs
        · simp [show ¬ s.time.source = 2#2 from h]
        · simp [show s.time.follows = true from h]
  · refine ⟨fun hs hb => ?_, fun hs => ?_, ?_⟩
    · exact congrArg Host.Outcome.next ((State.todIn_of_framed hon hen hl h0 h1).trans (if_pos (by simp [show bytes.sum = 0#8 from hs, hb])))
    · refine congrArg Host.Outcome.next ((State.todIn_of_framed hon hen hl h0 h1).trans (if_neg ?_))
      obtain h | h := hs
      · simp [show ¬ bytes.sum = 0#8 from h]
      · simp [h]
    · exact congrArg Host.Outcome.next ((State.todIn_of_framed hon hen hl h0 h1).trans (if_neg (by simp)))
  · simp [hon, show s.time.state = .locked from hl, show s.msPassed s.time.holdMs.toNat s.time.lastTick = true from ht]
  · intro high
    have hhigh : s.ppsLevel = true ↔ high := State.ppsLevel_eq_true_iff
    exact ⟨fun h ho => congrArg Host.Outcome.next (State.ppsDrive_of_due (hhigh.mpr h) ho),
      fun h ho => congrArg Host.Outcome.next (State.ppsDrive_of_due (Bool.eq_false_iff.mpr (mt hhigh.mp h)) ho),
      fun h => congrArg Host.Outcome.next (State.ppsDrive_of_not_due (mt hhigh.mp h))⟩
  · exact congrArg Host.Outcome.next ((if_pos hr).trans (State.fireDue_epoch ha hf hh ht))
  · exact congrArg Host.Outcome.next ((if_pos hr).trans (State.fireDue_snap ha hf hh ht))
  · rw [hr, Bool.true_and]
    exact Bool.and_eq_true_iff.mpr ⟨ha, decide_eq_true ht⟩
  · rw [hr, Bool.true_and]
    exact Bool.and_eq_true_iff.mpr ⟨ha, decide_eq_true ht⟩
  · intro f u v row w
    refine congrArg Host.Outcome.next ((State.timeExchange_of_follower hon hh hd hp hf hj).trans ?_)
    have hw : (s.exchanged off rt).steered off = w := by
      rw [State.steered, show (s.exchanged off rt).clock = s.clock from State.cascField_clock]
      rfl
    rw [hw]
    rfl

end Machine
end Sys2Proof

end


section

/-! The events of the cascade (O54). -/

namespace Sys2Proof
namespace Machine

section Cascade
variable {s : State} {l : Link} {f : Flit} {r : List Flit} {m : BitVec 3}

/-! Flits -/

theorem State.flitIn_of_bad (hon : s.isOn dHOST = true) (hc : f.crcOk = false) : s.flitIn l f = s.setLinkSt l (s.link l).sawBad :=
  (if_neg (not_eq_true_of_not hon)).trans (if_pos (by rw [hc]; rfl))

/-- The state once a good flit has counted for its link and acknowledged what the other link holds. -/
def State.flitSeen (s : State) (l : Link) (f : Flit) : State :=
  ((s.setLinkSt l (s.link l).sawGood).setLinkSt (otherLink l)
    (((s.setLinkSt l (s.link l).sawGood).link (otherLink l)).acked f.ack)).retainHeld

theorem State.flitIn_of_good (hon : s.isOn dHOST = true) (hc : f.crcOk = true) :
    s.flitIn l f = if f.payload = .idle || f.seq != ((s.flitSeen l f).link l).lastRecv + 1 then s.flitSeen l f
      else ((s.flitSeen l f).setLinkSt l { (s.flitSeen l f).link l with lastRecv := f.seq }).route l f :=
  (if_neg (not_eq_true_of_not hon)).trans (if_neg (not_eq_true_of_not hc))

theorem State.resend_of_unacked (hon : s.isOn dHOST = true) (hu : (s.link l).unacked = f :: r) :
    s.resend l = (s.setLinkSt l { s.link l with resends := satInc (s.link l).resends }).emit (.flit l f) := by
  simp only [State.resend, hu]
  exact if_pos hon

/-! Heartbeats and members -/

theorem State.heartbeat_of_on (hon : s.isOn dHOST = true) :
    s.heartbeat = ((if s.sendBeats.countMissing.isHead && !s.sendBeats.countMissing.serves then
      s.sendBeats.countMissing.headLose s.sendBeats.countMissing.casc.self else s.sendBeats.countMissing).elect.cascRole.tellTime
        false).relayMatch :=
  if_neg (not_eq_true_of_not hon)

/-- The state once a member has been removed from every list of members. -/
def State.withoutMember (s : State) (m : BitVec 3) : State :=
  s.setCasc { s.casc with
    present := setBit s.casc.present m.toNat false
    serving := setBit s.casc.serving m.toNat false
    yields := setBit s.casc.yields m.toNat false
    pmFailed := setBit s.casc.pmFailed m.toNat false
    missing := Tab.put 0 s.casc.missing m.toNat 0 }

/-- What follows the removal of a member: the head's collectives, the partner's end and the election. -/
def State.memberGone (s : State) (m : BitVec 3) : State :=
  let s := if s.isHead then s.headLose m else s
  let s := if m = s.casc.partner then s.partnerFails else s
  let s := s.elect
  let s := if s.casc.head = m then s.timeHeadLost else s
  s.cascRole.readiness

theorem State.memberGone_of_other (hh : s.isHead = false) (ht : m ≠ s.casc.partner) :
    s.memberGone m = (if s.elect.casc.head = m then s.elect.timeHeadLost else s.elect).cascRole.readiness := by
  simp [State.memberGone, hh, ht]

theorem State.memberFails_of_missing (hon : s.isOn dHOST = true) (hm : m ≠ s.casc.self) (hp : bitOf s.casc.present m.toNat = true)
    (h3 : 3 ≤ Tab.get 0 s.casc.missing m.toNat) (hh : s.isHead = false) (ht : m ≠ s.casc.partner) :
    s.memberFails m = (if (s.withoutMember m).elect.casc.head = m then (s.withoutMember m).elect.timeHeadLost
      else (s.withoutMember m).elect).cascRole.readiness := by
  have hgo : s.memberFails m = (s.withoutMember m).memberGone m := if_neg (by simp [hon, hm, hp]; omega)
  exact hgo.trans (State.memberGone_of_other hh ht)

theorem State.memberFails_of_absent (hp : bitOf s.casc.present m.toNat = false) : s.memberFails m = s := if_pos (by simp [hp])

/-! The bound pair -/

theorem State.mirrorNow_of_mirrors (hm : s.mirrors = true) (hr : s.ringUp = true) :
    ∃ ps cfg, s.mirrorNow = (s.toTwin (.deltas s.casc.deltas ps cfg s.reg.recordQueue s.reg.epoch)).setCasc
      { (s.toTwin (.deltas s.casc.deltas ps cfg s.reg.recordQueue s.reg.epoch)).casc with deltas := [] } :=
  ⟨_, _, if_neg (by rw [hm, hr]; decide)⟩

theorem State.twin_ne_partnerLost_of_mirrors (hm : s.mirrors = true) : s.casc.twin ≠ .partnerLost := fun h => by
  rw [State.mirrors, h] at hm
  cases hm

end Cascade

/-- Settles O54: each event with HOST on, under the clause's hypotheses. -/
theorem cascadeEvents : Obligations.CascadeEvents := by
  intro s l f r op c m x hon
  refine ⟨fun hc => congrArg Host.Outcome.next (State.flitIn_of_bad hon hc), fun hc => ?_,
    fun hu => congrArg Host.Outcome.next (State.resend_of_unacked hon hu), rfl, fun hf hh ht => ?_, fun hh => ?_, fun hh hs => ?_,
    fun hm hp h3 hh ht => ?_, fun hp => congrArg Host.Outcome.next (State.memberFails_of_absent hp), fun hm hr => ?_,
    fun ht => congrArg Host.Outcome.next (if_pos ht), fun ht hp => congrArg Host.Outcome.next (if_pos (by rw [ht, hp]; decide))⟩
  · intro t u
    refine ⟨fun hi hs => congrArg Host.Outcome.next ((State.flitIn_of_good hon hc).trans (if_neg ?_)),
      fun hd => congrArg Host.Outcome.next ((State.flitIn_of_good hon hc).trans (if_pos ?_))⟩
    · simp only [Bool.or_eq_true, decide_eq_true_iff, bne_iff_ne]
      exact fun h => h.elim hi fun h => h hs
    · simp only [Bool.or_eq_true, decide_eq_true_iff, bne_iff_ne]
      exact hd
  · show Host.Outcome.next (match s.casc.colls.find? (fun c => c.op == op) with | some c => _ | none => _) = _
    rw [hf]
    exact congrArg Host.Outcome.next (if_pos (by rw [hh, ht]; rfl))
  · refine congrArg Host.Outcome.next ((State.heartbeat_of_on hon).trans ?_)
    rw [if_neg (by rw [hh, Bool.false_and]; decide)]
  · intro b
    refine congrArg Host.Outcome.next ((State.heartbeat_of_on hon).trans ?_)
    rw [if_pos (by rw [hh, hs]; rfl)]
  · intro n t
    exact congrArg Host.Outcome.next (State.memberFails_of_missing hon hm hp h3 hh ht)
  · obtain ⟨ps, cfg, h⟩ := State.mirrorNow_of_mirrors hm hr
    exact ⟨ps, cfg, congrArg Host.Outcome.next ((if_neg (State.twin_ne_partnerLost_of_mirrors hm)).trans h)⟩

end Machine
end Sys2Proof

end


section

/-! Faults, tests and the control store (O55). -/

namespace Sys2Proof
namespace Machine

section Faults
variable {s : State} {q : QId} {e : JEntry} {n w : Nat} {r : Reload} {kind : BitVec 4} {entry : BitVec 13} {bank : Bool} {jid : Option Nat}

/-! Machine checks -/

theorem execMachineCheck_mismatch (hs : s.stepping q = some e) (ha : s.pm.alone = 0) (hm : s.top.mode ≠ .adopted) :
    exec (.machineCheck (.mismatch q)) s = .next (s.mismatch e).takeAll := by
  refine congrArg Host.Outcome.next ?_
  simp only [hs]
  exact if_pos (by rw [ha]; simpa using hm)

theorem State.journalError_of_found {idx : RIdx}
    (h : s.pm.journal.find? (fun e => e.q == q.toNat && e.idx == idx && e.st != .completed) = some e) :
    s.journalError q idx = s.endForced e.id .machineCheckFatal := by
  simp only [State.journalError, h]

/-! Self-tests -/

/-- The state once the verdicts of a self-test are known and the pair tests no longer. -/
def State.testOver (s : State) (a b : Bool) : State :=
  { s.tested a b with pm := { (s.tested a b).pm with testing := false, testFor := none } }

theorem State.selfTestEnd_fences (ht : s.pm.testing = true) (hf : s.pm.testFor = none) :
    s.selfTestEnd true false = (s.testOver true false).fence true := by
  simp only [State.selfTestEnd, ht, hf]
  rfl

theorem State.selfTestEnd_faults (ht : s.pm.testing = true) (hf : s.pm.testFor = none) :
    s.selfTestEnd true true = (s.testOver true true).raiseFault 1 0xFF := by
  simp only [State.selfTestEnd, ht, hf]
  rfl

section Periodic
variable (hi : s.pm.interval ≠ 0) (ht : s.pm.testing = false) (hr : s.top.resetting = .none) (hm : s.top.mode ≠ .adopted)
  (hc : s.atCommit = true) (hp : s.msPassed s.pm.interval.toNat s.pm.testedAt = true)
include hi ht hr hm hc hp

theorem State.periodicTest_lockstep (ha : s.pm.alone = 0) (hA : s.isOn dPMA = true) (hB : s.isOn dPMB = true) (a b : Bool) :
    s.periodicTest a b = if a != b then (s.tested a b).fence a else if a && b then (s.tested a b).raiseFault 1 0xFF else s.tested a b := by
  have hm' : ¬ (s.tested a b).top.mode = .adopted := hm
  refine (if_neg ?_).trans ((if_pos ha).trans ((if_neg ?_).trans (if_neg hm')))
  · simp [ht, hr, hc, hp, show ¬ s.pm.interval = 0#16 from hi]
  · rw [hA, hB]; decide

theorem State.periodicTest_rejoins (ha : s.pm.alone = 1) (hA : s.isOn dPMA = true) (hf : s.pm.failedReturns < 3) :
    s.periodicTest false false = (s.tested false false).rejoin := by
  have hm' : ¬ (s.tested false false).top.mode = .adopted := hm
  have hout : ¬ 3 ≤ s.pm.failedReturns := Nat.not_le.mpr hf
  refine (if_neg ?_).trans ((if_neg (by rw [ha]; decide)).trans ?_)
  · simp [ht, hr, hc, hp, show ¬ s.pm.interval = 0#16 from hi]
  · simp [ha, hA, hout, hm']

end Periodic

/-! The control store -/

/-- The state with a reload of a word of the store added. -/
def State.withReload (s : State) (w : Nat) : State := s.setCs { s.cs with reloads := s.cs.reloads ++ [{ word := w }] }

theorem State.csParity_of_new {f : Option QId} (hon : s.isOn dHOST = true) (hr : s.top.resetting = .none)
    (hn : (s.cs.reloads.any fun r => r.ovl == false && r.word == w) = false) :
    s.csParity false w f = (match f with
      | some q => if ((s.withReload w).cs.visibleAt false w).isSome && !(s.withReload w).reloading q.toNat then
          (s.withReload w).parityCheck false w q else s.withReload w
      | none => s.withReload w).issueReloads := by
  refine (if_neg (by rw [hon, hr]; simp)).trans ?_
  rw [if_neg (ne_true_of_eq_false hn)]
  rfl

theorem State.parityCheck_of_stepping {ovl : Bool} (h : s.stepping q = some e) :
    s.parityCheck ovl w q =
      ((State.updEntry { s with pm := { s.pm with mcheckCount := satInc s.pm.mcheckCount, lastOpcode := e.op } } e.id
        fun e => { e.rollBack with rolled := true }).updReload ovl w fun r => { r with waiters := r.waiters ++ [e.q] }).takeAll := by
  simp only [State.parityCheck, h]

theorem State.reloadDone_of_found {data : Option QWord} (h : s.cs.reloads.find? (fun r => r.ovl == false && r.word == w) = some r) :
    s.reloadDone false w data = match data with
      | some d => (s.dropReload false w).setCs { (s.dropReload false w).cs with
          parityStore := satInc (s.dropReload false w).cs.parityStore
          store := Tab.put 0 (s.dropReload false w).cs.store w d }
      | none => if 3 ≤ r.fails + 1 then s.reloadGivesUp r
        else s.updReload false w fun r => { r with fails := r.fails + 1, failedAt := some s.clock } := by
  rw [State.reloadDone, h]
  rfl

/-! Slices and internal channels -/

/-- The times of a slice's faults in the last second, the new one first. -/
def State.faultTimes (s : State) (n : Nat) : List Nat := s.clock :: ((s.sliceP n).faults.filter fun t => !s.msPassed 1000 t).take 2

/-- The state once a fault of a kind that names no table entry has reset its slice. -/
def State.sliceFaulted (s : State) (n : Nat) (kind : BitVec 4) : State :=
  (s.setSliceP n { s.sliceP n with faultValid := true, faultKind := kind, faultEntry := 0, faults := s.faultTimes n }).sliceReset n

theorem State.sliceFault_of_on (h16 : n ≤ 16) (hon : s.isOn (dSLICE n) = true) (hk : kind ≠ 0) (h8 : kind.toNat ≤ 8) :
    s.sliceFault n kind entry bank = if tableKind kind then s.tableError n kind entry bank
      else if 3 ≤ (s.faultTimes n).length then (s.sliceFaulted n kind).holdSlice n else s.sliceFaulted n kind :=
  if_neg (by simp [hon, show ¬ kind = 0#4 from hk]; omega)

/-- An internal channel that carries nothing only halts. -/
theorem execInternalChannelFault_of_idle {c : BitVec 2} (h : ∀ r ∈ s.dma.reqs ++ s.dma.backlog, ∀ w, r.chan = some w → w < 28) :
    exec (.internalChannelFault c) s =
      .next (s.setChan (28 + c.toNat) { s.chan (28 + c.toNat) with st := .halted, failed := true }) := by
  have hne : ∀ r ∈ s.dma.reqs ++ s.dma.backlog, (r.chan == some 28) = false := fun r hr =>
    beq_eq_false_iff_ne.mpr fun h28 => absurd (h r hr 28 h28) (by decide)
  have hreqs : ∀ r ∈ s.dma.reqs, (r.chan == some 28) = false := fun r hr => hne r (List.mem_append_left _ hr)
  have hback : ∀ r ∈ s.dma.backlog, (r.chan == some 28) = false := fun r hr => hne r (List.mem_append_right _ hr)
  have hnone : (s.dma.reqs ++ s.dma.backlog).filterMap (fun r => r.chan.filter (28 ≤ ·)) = [] := by
    refine List.filterMap_eq_nil_iff.mpr fun r hr => ?_
    cases hc : r.chan with
    | none => rfl
    | some w =>
      have := h r hr w hc
      simp; omega
  refine congrArg Host.Outcome.next ?_
  simp only [State.setDma]
  rw [List.map_congr_left (g := id) (fun r hr => by simp [hreqs r hr]), List.map_id, List.filter_eq_self.mpr (fun r hr => by simp [hback r hr])]
  show State.forEach _ ((s.dma.reqs ++ s.dma.backlog).filterMap fun r => r.chan.filter (28 ≤ ·)) State.internalRuns = _
  rw [hnone]
  rfl

end Faults

/-- Settles O55: each fault, test and reload under the clause's hypotheses. -/
theorem faultAndTestEvents : Obligations.FaultAndTestEvents := by
  intro s q e page word data n kind entry bank idx c r d w
  refine ⟨fun hs ha hm => ?_, fun h => ?_, fun h => congrArg Host.Outcome.next (if_pos h), fun h a b => if_pos h, fun ht hf => ?_,
    fun ht hf => ?_,
    fun hi ht hr hm hc hp => ⟨fun ha hA hB => ?_, fun ha hA hf => congrArg Host.Outcome.next
      (State.periodicTest_rejoins hi ht hr hm hc hp ha hA hf)⟩,
    fun h => congrArg Host.Outcome.next (if_pos h), fun hon hr hn => ?_, fun hf => ⟨?_, fun h => ?_, fun h => ?_⟩,
    fun hon hr => congrArg Host.Outcome.next (if_pos (by rw [hon, hr]; decide)), fun h16 hon hk h8 => ⟨fun ht => ?_, fun ht => ?_⟩,
    execInternalChannelFault_of_idle⟩
  · intro t u
    exact execMachineCheck_mismatch hs ha hm
  · exact congrArg (fun t : State => Host.Outcome.next t.takeDue) (State.journalError_of_found h)
  · intro t
    exact congrArg (fun t : State => Host.Outcome.next t.takeDue) (State.selfTestEnd_fences ht hf)
  · intro t
    exact congrArg (fun t : State => Host.Outcome.next t.takeDue) (State.selfTestEnd_faults ht hf)
  · have hp := State.periodicTest_lockstep hi ht hr hm hc hp ha hA hB
    exact ⟨congrArg Host.Outcome.next (hp false false), congrArg Host.Outcome.next (hp false true), congrArg Host.Outcome.next (hp true true)⟩
  · intro t
    refine ⟨congrArg Host.Outcome.next (State.csParity_of_new (f := none) hon hr hn), fun hv hl hs => ?_⟩
    intro u v
    refine congrArg Host.Outcome.next ((State.csParity_of_new (f := some q) hon hr hn).trans ?_)
    refine congrArg State.issueReloads ((if_pos ?_).trans (State.parityCheck_of_stepping hs))
    rw [show (s.withReload w).reloading q.toNat = false from hl, show ((s.withReload w).cs.visibleAt false w).isSome = true from hv]
    rfl
  · intro t
    exact State.reloadDone_of_found hf
  · exact (State.reloadDone_of_found hf).trans (if_neg (by omega))
  · exact (State.reloadDone_of_found hf).trans (if_pos (by omega))
  · exact congrArg Host.Outcome.next ((State.sliceFault_of_on h16 hon hk h8).trans (if_pos ht))
  · intro times t
    have hf := (State.sliceFault_of_on (entry := entry) (bank := bank) h16 hon hk h8).trans (if_neg (ne_true_of_eq_false ht))
    exact ⟨fun h => congrArg Host.Outcome.next (hf.trans (if_neg (Nat.not_le.mpr h))), fun h => congrArg Host.Outcome.next (hf.trans (if_pos h))⟩

end Machine
end Sys2Proof

end


section
/-! Frames of what a reset does to traffic and of what waits for a commit point. -/

namespace Sys2Proof
namespace Machine

section
variable {u : Parts}

theorem State.pinLine_off (hreg : u.reg) (s : State) (i : ℕ) (up : Bool) : (s.pinLine i up).off u = s.off u := State.off_reg hreg _ _

theorem State.releaseRes_off (hreg : u.reg) (s : State) (f : RxFr) : (s.releaseRes f).off u = s.off u := by
  grind [State.releaseRes, State.pinLine_off, State.setProbes_off]

theorem State.leaveRx_off (hframes : u.frames) (s : State) (fid : ℕ) : (s.leaveRx fid).off u = s.off u := State.off_frames hframes _ _

theorem State.dropRx_off (hout : u.out) (hqs : u.qs) (hdma : u.dma) (hreg : u.reg) (hstats : u.stats) (hframes : u.frames)
    (s : State) (f : RxFr) (w : ℕ) : (s.dropRx f w).off u = s.off u := by
  simp [State.dropRx, State.leaveRx_off, State.releaseRes_off, State.event_off, *]

theorem State.drained_off (hout : u.out) (hbackground : u.background) (hsorter : u.sorter) (hreg : u.reg) (htime : u.time)
    (hcasc : u.casc) (s : State) (k : ℕ) : (s.drained k).off u = s.off u := by
  grind [State.drained, State.drainCheck_off, State.readiness_off]

theorem State.countWraps_off (hreg : u.reg) (s : State) (p len : ℕ) : (s.countWraps p len).off u = s.off u := State.off_reg hreg _ _

theorem State.setUnsorted_off (hreg : u.reg) (s : State) (p : ℕ) (r : BitVec 3) (v : Unsorted) : (s.setUnsorted p r v).off u = s.off u :=
  State.off_reg hreg _ _

theorem State.registryCount_off (hout : u.out) (hnextId : u.nextId) (hreg : u.reg) (hcasc : u.casc) (s : State) (f : RxFr) :
    (s.registryCount f).off u = s.off u := by
  grind [State.registryCount, State.setPairEntry_off, State.pinLine_off, State.oweDelta_off, State.setUnsorted_off]

theorem State.acceptRx_off (hout : u.out) (hnextId : u.nextId) (hqs : u.qs) (hdma : u.dma) (hreg : u.reg) (hstats : u.stats)
    (hcasc : u.casc) (s : State) (f : RxFr) : (s.acceptRx f).off u = s.off u := by
  unfold State.acceptRx
  dsimp only
  split <;> simp [State.registryCount_off, State.countWraps_off, State.event_off, State.count_off, *]

theorem State.puntDone_off (hout : u.out) (hnextId : u.nextId) (hbackground : u.background) (hqs : u.qs) (hdma : u.dma)
    (hsorter : u.sorter) (hreg : u.reg) (hstats : u.stats) (htime : u.time) (hframes : u.frames) (hcasc : u.casc) (s : State) (f : RxFr) :
    (s.puntDone f).off u = s.off u := by
  grind [State.puntDone, State.event_off, State.acceptRx_off, State.leaveRx_off, State.drained_off]

theorem State.puntDrop_off (hout : u.out) (hqs : u.qs) (hdma : u.dma) (hreg : u.reg) (hstats : u.stats) (hframes : u.frames)
    (s : State) (f : RxFr) : (s.puntDrop f).off u = s.off u := by
  grind [State.puntDrop, State.event_off, State.leaveRx_off, State.dropRx_off]

theorem State.puntTakenBack_off (hqs : u.qs) (hdma : u.dma) (s : State) (f : RxFr) : (s.puntTakenBack f).off u = s.off u := by
  grind [State.puntTakenBack, State.setQueue_off, State.setDma_off]

theorem State.freeFrames_off (hout : u.out) (hnextId : u.nextId) (hbackground : u.background) (hqs : u.qs) (hdma : u.dma)
    (hsorter : u.sorter) (hreg : u.reg) (hstats : u.stats) (htime : u.time) (hframes : u.frames) (hcasc : u.casc) (s : State)
    (which : RxFr → Bool) : (s.freeFrames which).off u = s.off u := by
  grind [State.freeFrames, State.puntDone_off, State.puntTakenBack_off, State.puntDrop_off, State.dropRx_off, State.drained_off,
    State.forEach_off]

theorem State.moderate_off (hout : u.out) (hqs : u.qs) (hdma : u.dma) (s : State) (q : ℕ) (fire : Bool) :
    (s.moderate q fire).off u = s.off u := by
  grind [State.moderate, State.fireVector_off, State.setQueue_off]

theorem State.publishEntry_off (hout : u.out) (hfresh : u.fresh) (hqs : u.qs) (hdma : u.dma) (s : State) (q : ℕ) (i : RIdx) (fire : Bool) :
    (s.publishEntry q i fire).off u = s.off u := by
  grind [State.publishEntry, State.moderate_off, State.queueWrite_off, State.setQueue_off]

theorem State.mirrorInj_off (hout : u.out) (hcasc : u.casc) (s : State) (e : Inj) (gone : Bool) : (s.mirrorInj e gone).off u = s.off u := by
  simp [State.mirrorInj, State.toTwin_off, *]

theorem State.written_off (hout : u.out) (hpm : u.pm) (hqs : u.qs) (hpower : u.power) (hcasc : u.casc) (hmon : u.mon) (s : State)
    (src : HeldSrc) : (s.written src).off u = s.off u := by
  unfold State.written
  repeat' split
  all_goals grind [State.dropEntry_off, State.releaseDeferred_off, State.mirrorInj_off, State.setInj_off, State.setQueueOpt_off,
    State.mirrorQueue_off, State.setQueue_off]

theorem State.settleFront_off (hout : u.out) (hpm : u.pm) (hqs : u.qs) (hpower : u.power) (hcasc : u.casc) (hmon : u.mon) (s : State)
    (q : ℕ) : (s.settleFront q).off u = s.off u := by
  grind [State.settleFront, State.setQueue_off, State.written_off, State.forEach_off]

theorem State.noRequests_off (hdma : u.dma) (s : State) : s.noRequests.off u = s.off u := State.off_dma hdma _ _

theorem State.settleRings_off (hout : u.out) (hfresh : u.fresh) (hpm : u.pm) (hqs : u.qs) (hdma : u.dma) (hpower : u.power)
    (hcasc : u.casc) (hmon : u.mon) (s : State) : s.settleRings.off u = s.off u := by
  unfold State.settleRings
  refine (State.forEach_off _ _ fun s q => ?_).trans ?_
  · grind [State.settleFront_off, State.setQueue_off]
  · refine (State.forEach_off _ _ fun s e => (State.noRequests_off hdma _).trans (State.publishEntry_off hout hfresh hqs hdma ..)).trans ?_
    exact (foldl_off _ (fun s r => State.emit_off hout s _) _).trans (State.noRequests_off hdma s)

theorem State.reportInjected_off (hout : u.out) (hqs : u.qs) (hdma : u.dma) (hcasc : u.casc) (s : State) :
    s.reportInjected.off u = s.off u := by
  simp [State.reportInjected, State.notSent_off, State.forEach_off, *]

theorem State.haltChannels_off (hbackground : u.background) (hdma : u.dma) (s : State) : s.haltChannels.off u = s.off u := by
  simp [State.haltChannels, State.setDma_off, State.off_background, State.orphan_off, State.forEach_off, *]

theorem State.resetDma_off (hbackground : u.background) (hdma : u.dma) (s : State) : s.resetDma.off u = s.off u := by
  simp [State.resetDma, State.setDma_off, State.haltChannels_off, *]

theorem State.headLose_off (hout : u.out) (hreg : u.reg) (htime : u.time) (hcasc : u.casc) (s : State) (m : BitVec 3) :
    (s.headLose m).off u = s.off u := by
  grind [State.headLose, State.updColl_off, State.headCheck_off, State.headRelease_off, State.forEach_off]

theorem State.leftService_off (hout : u.out) (hreg : u.reg) (htime : u.time) (hcasc : u.casc) (s : State) : s.leftService.off u = s.off u := by
  grind [State.leftService, State.headLose_off]

theorem State.freeStaging_off (hout : u.out) (hnextId : u.nextId) (hbackground : u.background) (hqs : u.qs) (hdma : u.dma)
    (hsorter : u.sorter) (hreg : u.reg) (hstats : u.stats) (htime : u.time) (hframes : u.frames) (hcasc : u.casc) (s : State)
    (ps : List ℕ) : (s.freeStaging ps).off u = s.off u := State.freeFrames_off hout hnextId hbackground hqs hdma hsorter hreg hstats htime
  hframes hcasc s _

theorem State.losePigeonholes_off (hpm : u.pm) (hqs : u.qs) (s : State) : s.losePigeonholes.off u = s.off u :=
  (State.off_qs hqs _ _).trans ((State.setInj_off hqs _ _).trans (State.setJournal_off hpm _ _))

theorem State.loseFetches_off (hqs : u.qs) (hdma : u.dma) (s : State) : s.loseFetches.off u = s.off u := by
  simp [State.loseFetches, State.off, *]

theorem State.settleWrites_off (hout : u.out) (hfresh : u.fresh) (hpm : u.pm) (hqs : u.qs) (hdma : u.dma) (hpower : u.power)
    (hcasc : u.casc) (hmon : u.mon) (s : State) : s.settleWrites.off u = s.off u := by
  have hrest (t : State) (d : Dma) (q : Queues) : State.off u { t with dma := d, qs := q } = t.off u := by simp [State.off, *]
  exact (hrest _ _ _).trans ((State.setJournal_off hpm _ _).trans ((State.loseFetches_off hqs hdma _).trans
    (State.settleRings_off hout hfresh hpm hqs hdma hpower hcasc hmon s)))

theorem State.reopen_off (hqs : u.qs) (s : State) (t : ℕ) : (s.reopen t).off u = s.off u := by
  grind [State.reopen, State.setQueue_off]

theorem State.eraseKeys_off (hsec : u.sec) (s : State) : s.eraseKeys.off u = s.off u := by
  simp [State.eraseKeys, State.setSecPort_off, State.setSec_off, State.forEach_off, *]

theorem State.ppsLow_off (hout : u.out) (htime : u.time) (s : State) : s.ppsLow.off u = s.off u := by
  grind [State.ppsLow, State.emit_off, State.setTimeUnit_off]

theorem State.releaseScl_off (hout : u.out) (hpower : u.power) (s : State) : s.releaseScl.off u = s.off u := by
  grind [State.releaseScl, State.emit_off, State.off_power]

end

end Machine
end Sys2Proof
end


section

/-! The resets (O56): what a reset's work on traffic leaves of the mode, the reset held and the units that the statement names. -/

namespace Sys2Proof
namespace Machine

/-- Every unit but the one of 01. -/
def Parts.butTop : Parts :=
  { out := true, fresh := true, nextId := true, pm := true, background := true, cs := true, qs := true, dma := true, sorter := true, reg := true,
    stats := true, time := true, sec := true, guards := true, ports := true, lanes := true, frames := true, power := true, casc := true,
    mon := true }

/-- The mode, the reset held and the queue of guard events. -/
def State.stand (s : State) : Mode × ResetSt × QId := (s.top.mode, s.top.resetting, s.guardQueue)

section Stand
variable {s t : State}

theorem State.top_of_off (h : t.off .butTop = s.off .butTop) : t.top = s.top := congrArg (fun r => r.top) h

theorem State.stand_of_off (h : t.off .butTop = s.off .butTop) : t.stand = s.stand :=
  show (t.off .butTop).stand = (s.off .butTop).stand from congrArg State.stand h

theorem State.mode_of_stand (h : t.stand = s.stand) : t.top.mode = s.top.mode := congrArg (·.1) h

theorem State.resetting_of_stand (h : t.stand = s.stand) : t.top.resetting = s.top.resetting := congrArg (·.2.1) h

theorem State.guardQueue_of_stand (h : t.stand = s.stand) : t.guardQueue = s.guardQueue := congrArg (·.2.2) h

theorem State.top_setTop (s : State) (x : Unit00) : (s.setTop x).top = x := rfl

theorem State.pm_stand (s : State) (x : Pm) : State.stand { s with pm := x } = s.stand := rfl

theorem State.setReg_stand (s : State) (x : Registry) : (s.setReg x).stand = s.stand := rfl

theorem State.forEach_stand {α : Type} (s : State) (l : List α) {f : State → α → State} (h : ∀ s a, (f s a).stand = s.stand) :
    (s.forEach l f).stand = s.stand := by
  unfold State.forEach
  induction l generalizing s with
  | nil => rfl
  | cons a l ih => exact (ih (f s a)).trans (h s a)

theorem State.dropRecirc_stand (s : State) (which : Nat → Bool) : (s.dropRecirc which).stand = s.stand :=
  State.forEach_stand _ _ fun _ _ => rfl

theorem State.freeFrames_stand (s : State) (which : RxFr → Bool) : (s.freeFrames which).stand = s.stand :=
  State.stand_of_off (State.freeFrames_off rfl rfl rfl rfl rfl rfl rfl rfl rfl rfl rfl s which)

theorem State.setLink_stand (s : State) (p : Nat) (st : PortSt) : (s.setLink p st).stand = s.stand :=
  State.stand_of_off (State.setLink_off rfl rfl rfl rfl rfl rfl rfl rfl rfl rfl s p st)

theorem State.dropTraffic_stand (s : State) : s.dropTraffic.stand = s.stand := by
  have hcut (s : State) (p : Nat) : ((s.flushTx p).cutWire p).stand = s.stand :=
    (State.stand_of_off (State.cutWire_off rfl rfl rfl rfl rfl rfl rfl rfl _ p)).trans
      (State.stand_of_off (State.flushTx_off rfl rfl rfl rfl rfl rfl s p))
  have hdrain (s : State) (k : Nat) : (s.drained k).stand = s.stand :=
    State.stand_of_off (State.drained_off rfl rfl rfl rfl rfl rfl s k)
  have hframes (s : State) (x : Frames) : State.stand { s with frames := x } = s.stand := rfl
  unfold State.dropTraffic
  refine (hframes _ _).trans ((State.forEach_stand _ _ hdrain).trans ((State.forEach_stand _ _ hcut).trans ?_))
  exact (State.dropRecirc_stand _ _).trans (State.freeFrames_stand s _)

theorem State.reportInjected_stand (s : State) : s.reportInjected.stand = s.stand :=
  State.stand_of_off (State.reportInjected_off rfl rfl rfl rfl s)

theorem State.settleRings_stand (s : State) : s.settleRings.stand = s.stand :=
  State.stand_of_off (State.settleRings_off rfl rfl rfl rfl rfl rfl rfl rfl s)

theorem State.settleWrites_stand (s : State) : s.settleWrites.stand = s.stand :=
  State.stand_of_off (State.settleWrites_off rfl rfl rfl rfl rfl rfl rfl rfl s)

theorem State.losePigeonholes_stand (s : State) : s.losePigeonholes.stand = s.stand :=
  State.stand_of_off (State.losePigeonholes_off rfl rfl s)

theorem State.leftService_top (s : State) : s.leftService.top = s.top :=
  State.top_of_off (State.leftService_off rfl rfl rfl rfl s)

end Stand

/-! What waits for a commit point leaves the reset held -/

theorem State.forEach_resetting {α : Type} (s : State) (l : List α) {f : State → α → State}
    (h : ∀ s a, (f s a).top.resetting = s.top.resetting) : (s.forEach l f).top.resetting = s.top.resetting := by
  unfold State.forEach
  induction l generalizing s with
  | nil => rfl
  | cons a l ih => exact (ih (f s a)).trans (h s a)

theorem State.quarantinePorts_resetting (s : State) (which : Nat → Bool) :
    (s.quarantinePorts which).top.resetting = s.top.resetting :=
  (State.forEach_resetting _ _ fun s p => State.resetting_of_stand (s.setLink_stand p .quarantined)).trans
    (State.resetting_of_stand (State.freeFrames_stand s _))

theorem State.enterQuarantine_resetting (s : State) : s.enterQuarantine.top.resetting = s.top.resetting :=
  (congrArg Unit00.resetting (State.leftService_top _)).trans (State.quarantinePorts_resetting _ _)

theorem State.takeFault_resetting (s : State) (cause unit : Byte) : (s.takeFault cause unit).top.resetting = s.top.resetting := by
  unfold State.takeFault
  dsimp only
  split
  · rfl
  · rfl
  · exact State.quarantinePorts_resetting _ _
  · split
    · rfl
    · exact State.enterQuarantine_resetting _
  · split
    · rfl
    · exact State.enterQuarantine_resetting _
  · exact State.enterQuarantine_resetting _

theorem State.raiseFault_resetting (s : State) (cause unit : Byte) : (s.raiseFault cause unit).top.resetting = s.top.resetting := by
  unfold State.raiseFault
  split
  · exact s.takeFault_resetting cause unit
  · rfl

theorem State.clearScratch_top (s : State) (queue : BitVec 16) (jid : Nat) : (s.clearScratch queue jid).top = s.top :=
  State.top_of_off (State.clearScratch_off rfl s queue jid)

theorem State.rulewrEnds_top (s : State) (jid : Nat) (ks : List Nat) : (s.rulewrEnds jid ks).top = s.top :=
  State.top_of_off (State.rulewrEnds_off rfl rfl rfl rfl rfl s jid ks)

theorem State.reopen_top (s : State) (t : Nat) : (s.reopen t).top = s.top := State.top_of_off (State.reopen_off rfl s t)

theorem State.finish_top (s : State) (jid : Nat) (st : Status) (a b : DWord) : (s.finish jid st a b).top = s.top :=
  State.top_of_off (State.finish_off rfl rfl rfl rfl rfl s jid st a b)

theorem State.setArmedEpoch_top (s : State) (a : Option Armed) : (s.setArmedEpoch a).top = s.top := rfl

theorem State.setArmedSnap_top (s : State) (a : Option Armed) : (s.setArmedSnap a).top = s.top := rfl

theorem State.endForced_resetting (s : State) (jid : Nat) (st : Status) : (s.endForced jid st).top.resetting = s.top.resetting := by
  have hspare (x : Unit00) (hx : x.resetting = s.top.resetting) : (s.setTop x).top.resetting = s.top.resetting := hx
  grind [State.endForced, State.setArmedEpoch_top, State.setArmedSnap_top, State.clearScratch_top, State.rulewrEnds_top, State.finish_top,
    State.setSliceP_top, State.setPort_top, State.setCasc_top, State.setCs_top, State.reopen_top]

theorem State.erase_resetting (s : State) : s.erase.top.resetting = s.top.resetting :=
  (congrArg Unit00.resetting (State.top_of_off (State.eraseKeys_off rfl _))).trans
    (State.forEach_resetting _ _ fun s _ => s.endForced_resetting _ _)

theorem State.enterMaintenance_resetting (s : State) : s.enterMaintenance.top.resetting = s.top.resetting := by
  refine (congrArg Unit00.resetting (State.leftService_top _)).trans ?_
  split
  · exact State.forEach_resetting _ _ fun s p => State.resetting_of_stand (s.setLink_stand p .down)
  · rfl

theorem State.opens_resetting (s : State) (tap : Bool) : (s.opens tap).top.resetting = s.top.resetting := by
  have h (t : State) (ht : t.top.resetting = s.top.resetting) : (if tap then { t with mon := { t.mon with tapOpen := t.mon.dbgEn } }
      else ({ t with mon := { t.mon with isOpen := t.mon.dbgEn } } : State).say .maintenance).top.resetting = s.top.resetting := by
    cases tap <;> exact ht
  refine h _ ?_
  split
  · rfl
  · exact s.enterMaintenance_resetting

theorem State.eraseAndOpen_resetting (s : State) (tap : Bool) (n : Nat) : (s.eraseAndOpen tap n).top.resetting = s.top.resetting := by
  unfold State.eraseAndOpen
  dsimp only
  split
  · cases tap <;> exact (State.raiseFault_resetting _ _ _).trans s.erase_resetting
  · split
    · exact (State.opens_resetting _ _).trans s.erase_resetting
    · exact s.erase_resetting

theorem State.takeOne_resetting (s : State) (d : Due) : (s.takeOne d).top.resetting = s.top.resetting := by
  unfold State.takeOne
  split
  · exact s.takeFault_resetting _ _
  · split
    · exact s.opens_resetting _
    · exact s.eraseAndOpen_resetting _ _
  · exact s.opens_resetting _

theorem State.takeAll_resetting (s : State) : s.takeAll.top.resetting = s.top.resetting :=
  State.forEach_resetting _ _ State.takeOne_resetting

theorem State.takeAll_of_nothing_due {s : State} (h : s.top.due = []) : s.takeAll = s.setTop { s.top with due := [] } := by
  unfold State.takeAll
  rw [h]
  rfl

/-! A warm reset -/

/-- The state of a warm reset once every routine is at its last commit point and what was due has been taken. -/
def State.warmStart (s : State) : State := ((s.setTop { s.top with resetting := .warm }).rollBackAll).takeAll

/-- The state of a warm reset once the traffic has ended and the ports train again. -/
def State.warmTraffic (s : State) : State :=
  let s := (s.warmStart.dropTraffic.reportInjected).settleWrites.losePigeonholes
  s.forEach s.configuredPorts fun s p =>
    let s := s.resetLanes p
    if (s.port p).st != .down && (s.port p).st != .quarantined then s.setLink p .training else s

/-- The state of a warm reset once the probes and what the pair counts of its tests are gone. -/
def State.warmCleared (s : State) : State :=
  let t := s.warmTraffic.setReg { s.warmTraffic.reg with probes := [] }
  { t with pm := { t.pm with burst := 0, failedReturns := 0, testing := false, testFor := none } }

section Warm
variable {s : State}

theorem State.warmReset_of_running (hm : s.top.mode ≠ .cold) (hr : s.top.resetting ≠ .cold) :
    s.warmReset = s.warmCleared.resetDma.setTop { s.warmCleared.top with previous := s.warmCleared.top.mode, cause := 0x05 } := by
  simp only [State.warmReset, State.warmCleared, State.warmTraffic, State.warmStart, hm, hr, decide_false, Bool.or_false,
    Bool.false_eq_true, if_false]

theorem State.warmReset_top (hm : s.top.mode ≠ .cold) (hr : s.top.resetting ≠ .cold) :
    s.warmReset.top = { s.warmCleared.top with previous := s.warmCleared.top.mode, cause := 0x05 } := by
  rw [State.warmReset_of_running hm hr, State.top_setTop]

/-- What the last step of a warm reset writes into the mode word, and what it leaves. -/
theorem Unit00.marked_of_eq {x y : Unit00} (h : y = { x with previous := x.mode, cause := 0x05 }) :
    y.resetting = x.resetting ∧ y.previous = y.mode ∧ y.mode = x.mode ∧ y.cause = 0x05 := by
  subst h
  exact ⟨rfl, rfl, rfl, rfl⟩

theorem State.warmTraffic_stand : s.warmTraffic.stand = s.warmStart.stand := by
  have hport (s : State) (p : Nat) : (if ((s.resetLanes p).port p).st != .down && ((s.resetLanes p).port p).st != .quarantined then
      (s.resetLanes p).setLink p .training else s.resetLanes p).stand = s.stand := by
    have hlanes : (s.resetLanes p).stand = s.stand := State.stand_of_off (State.resetLanes_off rfl s p)
    split
    · exact (State.setLink_stand _ _ _).trans hlanes
    · exact hlanes
  refine (State.forEach_stand _ _ hport).trans ?_
  exact (State.losePigeonholes_stand _).trans ((State.settleWrites_stand _).trans
    ((State.reportInjected_stand _).trans (State.dropTraffic_stand _)))

theorem State.warmStart_resetting : s.warmStart.top.resetting = .warm := State.takeAll_resetting _

theorem State.warmStart_mode (h : s.top.due = []) : s.warmStart.top.mode = s.top.mode := by
  have hdue : ((s.setTop { s.top with resetting := .warm }).rollBackAll).top.due = [] := h
  rw [State.warmStart, State.takeAll_of_nothing_due hdue]
  rfl

theorem State.warmCleared_stand : s.warmCleared.stand = s.warmStart.stand := by
  unfold State.warmCleared
  exact (State.pm_stand _ _).trans ((State.setReg_stand _ _).trans State.warmTraffic_stand)

theorem State.warmCleared_resetting : s.warmCleared.top.resetting = .warm :=
  (State.resetting_of_stand State.warmCleared_stand).trans State.warmStart_resetting

theorem State.warmCleared_mode (h : s.top.due = []) : s.warmCleared.top.mode = s.top.mode :=
  (State.mode_of_stand State.warmCleared_stand).trans (State.warmStart_mode h)

/-- The reset of the channels leaves the registry and, of the Postmaster, all but the background activity. -/
theorem State.resetDma_off_dma (t : State) :
    t.resetDma.off { dma := true, background := true } = t.off { dma := true, background := true } := State.resetDma_off rfl rfl t

theorem State.warmReset_clears (hm : s.top.mode ≠ .cold) (hr : s.top.resetting ≠ .cold) :
    s.warmReset.reg.probes = [] ∧ s.warmReset.pm.burst = 0 ∧ s.warmReset.pm.testing = false := by
  have hoff := s.warmCleared.resetDma_off_dma
  rw [State.warmReset_of_running hm hr]
  exact ⟨congrArg (fun t => t.reg.probes) hoff, congrArg (fun t => t.pm.burst) hoff, congrArg (fun t => t.pm.testing) hoff⟩

end Warm

/-! A cold reset -/

/-- The state of a cold reset once the traffic has ended and the rings are whole. -/
def State.coldTraffic (s : State) : State := ((s.rollBackAll.dropTraffic.reportInjected.settleRings).leftService).ppsLow.releaseScl

theorem State.coldReset_eq (s : State) : s.coldReset = s.coldTraffic.coldKeep := by
  simp only [State.coldReset, State.coldTraffic]

theorem State.coldKeep_resets (s : State) : s.coldKeep.top.mode = .cold ∧ s.coldKeep.top.cause = 0 ∧ s.coldKeep.top.resetting = .cold ∧
    s.coldKeep.guards = {} ∧ s.coldKeep.sec.slots = [] ∧ s.coldKeep.frames = {} ∧ s.coldKeep.cs = {} ∧
    s.coldKeep.mon = { dbgEn := s.coldKeep.mon.dbgEn } := ⟨rfl, rfl, rfl, rfl, rfl, rfl, rfl, rfl⟩

theorem State.coldKeep_previous (s : State) : s.coldKeep.top.previous = s.top.mode := rfl

theorem State.coldKeep_guardQueue (s : State) : s.coldKeep.guardQueue = s.guardQueue := rfl

theorem State.coldTraffic_stand (s : State) : s.coldTraffic.stand = s.stand := by
  refine (State.stand_of_off (State.releaseScl_off rfl rfl _)).trans ((State.stand_of_off (State.ppsLow_off rfl rfl _)).trans ?_)
  refine (State.stand_of_off (State.leftService_off rfl rfl rfl rfl _)).trans ((State.settleRings_stand _).trans ?_)
  exact (State.reportInjected_stand _).trans ((State.dropTraffic_stand _).trans rfl)

/-! The release -/

section Release
variable {u : Parts}

theorem State.flushPnFuel_off (hout : u.out) (hqs : u.qs) (hdma : u.dma) (hsec : u.sec) (hcasc : u.casc) (fuel : ℕ) (s : State) :
    (State.flushPnFuel fuel s).off u = s.off u := by
  fun_induction State.flushPnFuel fuel s
  all_goals grind [State.genRecord_off_of_chan_none, State.off_sec]

theorem State.pnRecord_off (hout : u.out) (hqs : u.qs) (hdma : u.dma) (hsec : u.sec) (hcasc : u.casc) (s : State) (n : ℕ) (action : Byte)
    (pn : ℕ) : (s.pnRecord n action pn).off u = s.off u := by
  grind [State.pnRecord, State.flushPn, State.flushPnFuel_off, State.off_sec]

theorem State.pnEvents_off (hout : u.out) (hqs : u.qs) (hdma : u.dma) (hsec : u.sec) (hcasc : u.casc) (s : State) (n : ℕ) :
    (s.pnEvents n).off u = s.off u := by
  have hwarn (s : State) : (s.pnWarn n).off u = s.off u := by grind [State.pnWarn, State.pnRecord_off, State.setKeySlot_off]
  have hexhaust (s : State) : (s.pnExhaust n).off u = s.off u := by
    grind [State.pnExhaust, State.pnRecord_off, State.setKeySlot_off, State.setSecPort_off]
  exact (hexhaust _).trans (hwarn s)

theorem State.countSec_off (hout : u.out) (hqs : u.qs) (hdma : u.dma) (hstats : u.stats) (s : State) (p w k : ℕ) :
    (s.countSec p w k).off u = s.off u := by
  grind [State.countSec, State.crossed_off, State.off_stats]

theorem State.resumePorts_off (hout : u.out) (hfresh : u.fresh) (hqs : u.qs) (hdma : u.dma) (hstats : u.stats) (hsec : u.sec)
    (hcasc : u.casc) (s : State) (ps : List ℕ) : (s.resumePorts ps).off u = s.off u := by
  have hsa (s : State) (n : ℕ) : (s.resumeSa n).off u = s.off u := by
    grind [State.resumeSa, State.countSec_off, State.setKeySlot_off, State.pnEvents_off, State.raiseMark_off]
  grind [State.resumePorts, State.forEach_off]

end Release

/-- The units that the release of a warm reset changes before the pair runs. -/
def Parts.ofRelease : Parts :=
  { out := true, fresh := true, qs := true, dma := true, sorter := true, stats := true, sec := true, casc := true }

theorem State.release_power (s : State) : (s.resumePorts allPorts).refreshReplicas.power = s.power :=
  congrArg (fun t => t.power) (((State.refreshReplicas_off (u := .ofRelease) rfl _).trans
    (State.resumePorts_off rfl rfl rfl rfl rfl rfl rfl s allPorts)) :
      (s.resumePorts allPorts).refreshReplicas.off .ofRelease = s.off .ofRelease)

theorem State.releaseWarm_of_asleep {s : State} {id : BitVec 3} (hw : s.top.resetting = .warm) (hh : s.isOn dHOST = false) :
    s.release id = ((s.setTop { s.top with resetting := .none }).resumePorts allPorts).refreshReplicas := by
  have hon : (((s.setTop { s.top with resetting := .none }).resumePorts allPorts).refreshReplicas).isOn dHOST = s.isOn dHOST := by
    rw [State.isOn, State.dom, State.release_power]
    rfl
  unfold State.release
  simp only [hw]
  exact if_neg (by rw [hon, hh]; decide)

/-- Settles O56: the stages of each reset, and what they leave of the mode, the reset held and the registry. -/
theorem resetEvents : Obligations.ResetEvents := by
  intro s id b latch r
  refine ⟨fun h => congrArg Host.Outcome.next (if_pos (by simp [h])), fun hm hr => ?_, ?_, ⟨_, rfl, rfl, rfl, rfl, rfl, rfl, rfl, rfl, rfl⟩,
    ⟨_, rfl, rfl, rfl, rfl, rfl, rfl, rfl, rfl⟩, fun h => ?_, fun h => ?_, fun hw hh => congrArg Host.Outcome.next
      (State.releaseWarm_of_asleep hw hh)⟩
  · obtain ⟨hreset, hprevious, hmode, hcause⟩ := Unit00.marked_of_eq (State.warmReset_top hm hr)
    obtain ⟨hprobes, hburst, htesting⟩ := State.warmReset_clears hm hr
    obtain ⟨hpending, hguards⟩ := s.warmReset_kept
    exact ⟨s.warmReset, rfl, hreset.trans State.warmCleared_resetting, hprevious, fun hd => hmode.trans (State.warmCleared_mode hd),
      hcause, hguards,
      hpending, hprobes, hburst, htesting⟩
  · have hprevious : s.coldTraffic.coldKeep.top.previous = s.top.mode :=
      (State.coldKeep_previous _).trans (State.mode_of_stand s.coldTraffic_stand)
    have hqueue : s.coldTraffic.coldKeep.guardQueue = s.guardQueue :=
      (State.coldKeep_guardQueue _).trans (State.guardQueue_of_stand s.coldTraffic_stand)
    have hpending : s.coldTraffic.coldKeep.pending = s.pending := State.coldReset_eq s ▸ s.coldReset_pending
    obtain ⟨hmode, hcause, hreset, hguards, hslots, hframes, hcs, hmon⟩ := s.coldTraffic.coldKeep_resets
    exact ⟨s.coldTraffic.coldKeep, congrArg Host.Outcome.next s.coldReset_eq, hmode, hcause, hreset, hprevious, hguards, hslots, hframes, hcs,
      hmon, hqueue, hpending⟩
  · exact congrArg Host.Outcome.next (by rw [State.release, h])
  · exact ⟨_, congrArg Host.Outcome.next (by rw [State.release, h]), rfl, rfl⟩

end Machine
end Sys2Proof

end


section

/-! Power domains and the governor (O57, O58). -/

namespace Sys2Proof
namespace Machine

section Domains
variable {s : State} {n c : Nat} {d : BitVec 5} {src : BitVec 4} {detail : BitVec 16} {off : Bool} {into : RestSt}
  {st st' : RestoreStep}

/-! Wakes -/

theorem execWake_of_enabled (hh : s.wakeHolds src detail = true) (he : s.wakeEnabled src = true) (hw : s.entryWindow = false)
    (hd : s.wakeable ≠ []) : exec (.wake src detail) s =
      .next ((State.placeVotes { s with power := { s.power with wakeSource := src, wakeDetail := detail } } 0 s.wakeable).startRails) :=
  congrArg Host.Outcome.next ((if_pos hh).trans (if_neg (by simp [he, hw, hd])))

theorem execWake_of_disabled (he : s.wakeEnabled src = false) : exec (.wake src detail) s = .next s := by
  have hwake : s.wake src detail = s := if_pos (by rw [he]; rfl)
  refine congrArg Host.Outcome.next ?_
  rw [hwake]
  exact ite_self s

/-! Restore and entry -/

theorem State.restoreStep_railUp (h : (s.dom n).st = .restoring .railUp off) :
    s.restoreStep n = (s.setDom n { s.dom n with railWait := true }).railEnds n := by
  simp only [State.restoreStep, h]

theorem State.restoreStep_next (h : (s.dom n).st = .restoring st off) (hst : st ≠ .railUp) (hn : nextRestore n st = some st') :
    s.restoreStep n = s.setDom n { s.dom n with st := .restoring st' off } := by
  cases st
  case railUp => exact absurd rfl hst
  all_goals simp only [State.restoreStep, h, hn]

theorem State.restoreStep_last (h : (s.dom n).st = .restoring st off) (hst : st ≠ .railUp) (hn : nextRestore n st = none) :
    s.restoreStep n = s.domainUp n off := by
  cases st
  case railUp => exact absurd rfl hst
  all_goals simp only [State.restoreStep, h, hn]

theorem State.entryCycle_of_entering (hl : (s.dom n).leaving = false) (h : (s.dom n).st = .entering c into) :
    s.entryCycle n = if c < 7 then
        s.setDom n { s.dom n with railGood := (s.dom n).railGood && decide (c < 6), st := .entering (c + 1) into }
      else (s.setDom n { s.dom n with
        railGood := (s.dom n).railGood && decide (c < 6)
        st := if into = .off then .off else .retention (into == .retention) }).startRails := by
  have hb : s.beginReleased n = s := if_pos (by rw [hl]; rfl)
  simp only [State.entryCycle, hb, h]

end Domains

/-- Settles O57: each event by the state of the domain it is about. -/
theorem powerDomainEvents : Obligations.PowerDomainEvents := by
  intro s d src detail st off c into n x
  refine ⟨execWake_of_enabled, execWake_of_disabled, fun h => congrArg Host.Outcome.next (State.restoreStep_railUp h),
    fun h hst => ⟨fun st' hn => congrArg Host.Outcome.next (State.restoreStep_next h hst hn), fun hn => congrArg Host.Outcome.next
      (State.restoreStep_last h hst hn)⟩,
    fun hl h => ⟨fun hc => congrArg Host.Outcome.next ((State.entryCycle_of_entering hl h).trans (if_pos hc)),
      fun hc => congrArg Host.Outcome.next ((State.entryCycle_of_entering hl h).trans (if_neg (Nat.not_lt.mpr hc)))⟩,
    fun hr h0 h24 => congrArg Host.Outcome.next (if_neg ?_), fun h => congrArg Host.Outcome.next (if_neg (not_eq_true_of_not h)),
    fun h => congrArg Host.Outcome.next (if_pos (by rw [h]; rfl))⟩
  have hr' : (s.dom d.toNat).resting = false := hr
  have h24' : ¬ 24 < d.toNat := Nat.not_lt.mpr h24
  have h0' : ¬ d = 0#5 := fun h => h0 (congrArg BitVec.toNat h)
  simp [hr', h24', h0']

/-! The governor -/

section Governor
variable {s : State} {v : BitVec 16} {i : Nat} {h : Hint}

theorem execCapInput_of_changed (hv : v ≠ s.power.capSample) :
    exec (.capInput v) s = .next (s.setPower { s.power with capSample := v }) :=
  congrArg (fun c => Host.Outcome.next (s.setPower { s.power with capSample := v, capIn := c })) (if_neg hv)

theorem execCapInput_of_same : exec (.capInput s.power.capSample) s =
    .next (s.setPower { s.power with capIn := if s.power.capSample.toNat < 46000 then s.power.capSample else 46000 }) :=
  congrArg (fun c => Host.Outcome.next (s.setPower { s.power with capIn := c })) (if_pos rfl)

/-- A cap input counts at most 46,000. -/
theorem capSample_toNat_clamped (v : BitVec 16) : (if v.toNat < 46000 then v else 46000#16).toNat = min 46000 v.toNat := by
  split <;> simp <;> omega

theorem execHintExpire_of_hint (hh : s.power.hints[i]? = some h) : exec (.hintExpire i) s =
    .next (if s.usPassed h.duration h.since then s.setHints (s.power.hints.eraseIdx i) else s) := by
  refine congrArg Host.Outcome.next ?_
  simp only [hh]

end Governor

/-- Settles O58: the load against the cap, then the ladder; and each event of the power unit's own. -/
theorem powerGovernor : Obligations.PowerGovernor := by
  intro s o m v mean i e t g
  refine ⟨fun hl => ?_, fun hl => ?_, rfl, rfl, execCapInput_of_changed, fun hv => ?_, fun h hh => ⟨fun hp => ?_, fun hp => ?_⟩⟩
  · intro u
    exact congrArg Host.Outcome.next (if_pos hl)
  · intro under calm u
    exact congrArg Host.Outcome.next (if_neg (Nat.not_lt.mpr hl))
  · subst hv
    exact ⟨_, execCapInput_of_same, capSample_toNat_clamped _, rfl⟩
  · exact (execHintExpire_of_hint hh).trans (congrArg Host.Outcome.next (if_pos hp))
  · exact (execHintExpire_of_hint hh).trans (congrArg Host.Outcome.next (if_neg (ne_true_of_eq_false hp)))

end Machine
end Sys2Proof

end


section

/-! The monitor and the test access port (O59). -/

namespace Sys2Proof
namespace Machine

section Monitor
variable {s z : State} {n k l : Nat} {ir : Byte} {tap : Bool}

/-! Whether a command is answered -/

theorem State.monCommand_closedToo (hon : s.monOn = true) (hb : s.mon.busy = none) (f : State → State) :
    s.monCommand true f = f s :=
  (if_neg (not_eq_true_of_not hon)).trans ((if_neg (by rw [hb]; decide)).trans (if_neg (by rw [Bool.not_true, Bool.false_and]; decide)))

theorem State.monCommand_locked (hon : s.monOn = true) (hb : s.mon.busy = none) (ho : s.mon.isOpen = false) (f : State → State) :
    s.monCommand false f = s.say .locked :=
  (if_neg (not_eq_true_of_not hon)).trans ((if_neg (by rw [hb]; decide)).trans (if_pos (by rw [ho]; rfl)))

theorem State.monCommand_open (hon : s.monOn = true) (hb : s.mon.busy = none) (ho : s.mon.isOpen = true) (f : State → State) :
    s.monCommand false f = f s :=
  (if_neg (not_eq_true_of_not hon)).trans ((if_neg (by rw [hb]; decide)).trans (if_neg (by rw [ho]; decide)))

/-! What the commands do -/

theorem find_baudRate (r : Fin 8) : (List.range 8).find? (fun k => baudRates.getD k 0 == baudRates.getD r 0) = some r.val := by
  revert r
  decide

theorem State.setBaud_of_listed (r : Fin 8) : State.setBaud (baudRates.getD r 0) s =
    { s.say .ok with mon := { s.mon with baud := BitVec.ofNat 4 r } } := by
  simp only [State.setBaud, find_baudRate]

theorem State.setBaud_of_unlisted (h : n ∉ baudRates) : State.setBaud n s = s.say (.status .badOperand) := by
  have hnone : (List.range 8).find? (fun k => baudRates.getD k 0 == n) = none := by
    refine List.find?_eq_none.mpr fun k hk he => h ?_
    have hlt : k < baudRates.length := List.mem_range.mp hk
    rw [← beq_iff_eq.mp he, List.getD_eq_getElem _ _ hlt]
    exact List.getElem_mem hlt
  simp only [State.setBaud, hnone]

theorem State.poke_of_settable {a : Nat} {v m : Word} (hp : permits 0x01 {} s.top.mode = true) (hc : setCheck s a m v = none) :
    State.poke a v m s = (s.applySet a m v).say (.value ((s.applySet a m v).peek a)) := by
  refine (if_neg (not_eq_true_of_not hp)).trans ?_
  rw [hc]

/-! Unlocking -/

theorem unlockMode_ne_maintenance {m : Mode} (h : unlockMode m = true) : m ≠ .maintenance := by
  rintro rfl
  cases h

theorem State.unlockErase_of_allowed (hd : s.mon.dbgEn = true) (hm : unlockMode s.top.mode = true) :
    State.unlockErase n s = ((s.placeVotes 0xC0 [dHOST, dPMA, dPMB]).startRails).unlock false n :=
  (if_neg (not_eq_true_of_not hd)).trans (if_neg (not_eq_true_of_not hm))

theorem State.tapUnlock_of_allowed (hd : s.mon.dbgEn = true) (hm : unlockMode s.top.mode = true) : s.tapUnlock n = s.unlock true n :=
  (if_neg (not_eq_true_of_not hd)).trans ((if_neg (unlockMode_ne_maintenance hm)).trans (if_neg (not_eq_true_of_not hm)))

theorem State.unlock_of_keyload (h : z.keyloadInStep = true) :
    z.unlock tap n = z.setTop { z.top with due := z.top.due ++ [.unlock tap (some n)] } := if_pos h

theorem State.unlock_erases (h : z.keyloadInStep = false) : z.unlock tap n =
    if 2 ≤ n then (if tap then z.erase.raiseFault 3 0xFF else (z.erase.raiseFault 3 0xFF).say .erase)
    else if z.erase.atCommit then z.erase.opens tap
    else z.erase.setTop { z.erase.top with due := z.erase.top.due ++ [.unlock tap none] } := if_neg (ne_true_of_eq_false h)

theorem State.opens_of_not_maintenance (h : z.top.mode ≠ .maintenance) : z.opens tap =
    if tap then { z.enterMaintenance with mon := { z.enterMaintenance.mon with tapOpen := z.enterMaintenance.mon.dbgEn } }
    else State.say { z.enterMaintenance with mon := { z.enterMaintenance.mon with isOpen := z.enterMaintenance.mon.dbgEn } } .maintenance := by
  unfold State.opens
  rw [if_neg h]

/-! DBG_EN and the test access port -/

theorem State.setDbg_low : s.setDbg false = { s with mon := { s.mon with dbgEn := false, isOpen := false, tapOpen := false } } := by
  rw [State.setDbg, Bool.and_false, Bool.and_false]

theorem execTapInstruction_of_not_internal (h : s.mon.tapOpen = false ∨ ir = 0xFF ∨ ir = 0x7C ∨ Config.tapInternal ir = false) :
    exec (.tapInstruction ir) s = .next (s.tapLoad ir) := by
  refine if_neg ?_
  obtain h | rfl | rfl | h := h
  · simp [h]
  · simp
  · simp
  · simp [h]

end Monitor

/-- Settles O59: whether a command is answered, what it does, and the steps of an unlock. -/
theorem monitorCommands : Obligations.MonitorCommands := by
  intro s op i addr v m n k lane eye line ir z tap t w x hon hb
  have hlocked (ho : s.mon.isOpen = false) (f : State → State) : (.next (s.monCommand false f) : Host.Outcome State Fault Refusal) = .next
    (s.say .locked) :=
    congrArg Host.Outcome.next (State.monCommand_locked hon hb ho f)
  have hopen (ho : s.mon.isOpen = true) (f : State → State) : (.next (s.monCommand false f) : Host.Outcome State Fault Refusal) = .next (f s) :=
    congrArg Host.Outcome.next (State.monCommand_open hon hb ho f)
  refine ⟨congrArg Host.Outcome.next (State.monCommand_closedToo hon hb _),
    fun ho => ⟨hlocked ho _, hlocked ho _, hlocked ho _, hlocked ho _, hlocked ho _, hlocked ho _, hlocked ho _⟩,
    fun ho => ⟨fun r => ?_, fun hn => ?_, fun h0 h64 => ?_, fun hp hc => ?_, fun hj => ?_, fun h0 h4096 => ?_, hopen ho _, fun _ => hopen ho _,
      fun hl => ?_⟩,
    fun hl => congrArg Host.Outcome.next ((if_pos hl).trans (if_pos hon)), fun hm => ⟨?_, ?_⟩, State.unlock_of_keyload,
    fun hk => ⟨fun hn hc => ?_, fun hn hc => ?_, fun hn => ⟨?_, ?_⟩⟩, fun hm => ⟨State.opens_of_not_maintenance hm,
      State.opens_of_not_maintenance hm⟩,
    congrArg Host.Outcome.next ((State.monCommand_closedToo (s := s.setDbg false) hon hb (State.unlockErase n)).trans (if_pos rfl)),
      congrArg Host.Outcome.next (if_pos rfl),
    congrArg Host.Outcome.next State.setDbg_low, execTapInstruction_of_not_internal⟩
  · exact (hopen ho _).trans (congrArg Host.Outcome.next (State.setBaud_of_listed r))
  · exact (hopen ho _).trans (congrArg Host.Outcome.next (State.setBaud_of_unlisted hn))
  · exact (hopen ho _).trans (congrArg Host.Outcome.next (if_neg (by simp; omega)))
  · exact (hopen ho _).trans (congrArg Host.Outcome.next (State.poke_of_settable hp hc))
  · intro e t
    exact (hopen ho _).trans (congrArg Host.Outcome.next (if_neg (Nat.not_le.mpr hj)))
  · exact (hopen ho _).trans (congrArg Host.Outcome.next (if_neg (by simp; omega)))
  · exact congrArg Host.Outcome.next ((if_neg (Nat.not_lt.mpr hl)).trans (State.monCommand_open hon hb ho _))
  · exact congrArg Host.Outcome.next ((State.monCommand_closedToo (s := s.setDbg true) hon hb (State.unlockErase n)).trans
      (State.unlockErase_of_allowed rfl hm))
  · exact congrArg Host.Outcome.next (State.tapUnlock_of_allowed rfl hm)
  · exact (State.unlock_erases hk).trans ((if_neg (by omega)).trans (if_pos hc))
  · exact (State.unlock_erases hk).trans ((if_neg (by omega)).trans (if_neg (ne_true_of_eq_false hc)))
  · exact (State.unlock_erases hk).trans (if_pos hn)
  · exact (State.unlock_erases hk).trans (if_pos hn)

end Machine
end Sys2Proof

end
